-- ==== Sys2Proof/Word.lean ====
section
/-! DEFINITION. The word types of the part: bytes, station identities, Ethernet addresses, port and link
numbers, and the sparse table in which large collections are held. -/

namespace Sys2Proof

/-- One byte. -/
abbrev Byte := BitVec 8

/-- A 16-bit base, mask or half of a SID (R32). -/
abbrev Half := BitVec 16

/-- A station identity (spec 0.8). -/
abbrev Sid := BitVec 32

/-- An Ethernet address (R24). -/
abbrev Mac := BitVec 48

/-- A port by its port code (R23): 0..11 are Q0..Q11, 12 is T0, 13 is T1. -/
abbrev Port := Fin 14

/-- A quay port Q0..Q11. -/
abbrev QPort := Fin 12

/-- A set of quay ports; bit k is Qk (R180). -/
abbrev QuaySet := BitVec 12

/-- A crane link number (R61). -/
abbrev LinkNo := Fin 24

/-- A bucket of the FSQ (R149), numbered through the five kinds in order. -/
abbrev BucketNo := Fin 137

/-- A notice source by its number (R156). -/
abbrev SourceNo := Fin 24

/-- A collection of numbered places, held as the list of its occupied places in ascending order. -/
abbrev Table (α : Type) := List (Nat × α)

end Sys2Proof
end

