-- ==== Sys2Proof/Config.lean ====
section
/-! DEFINITION. What the spec fixes as numbers for the whole part, and the free values: the values the spec
leaves open, as constants without a body, so that no statement can rest on one of them. -/

namespace Sys2Proof

/-- Cells of the frame store's pool (R138). -/
def Config.poolCells : Nat := 4096

/-- Places of the static collection (R42). -/
def Config.staticPlaces : Nat := 64

/-- Places of the dynamic collection (R42). -/
def Config.dynamicPlaces : Nat := 2048

/-- Places of the reefer table (R103). -/
def Config.reeferPlaces : Nat := 4096

/-- Entries of a batch buffer (R128). -/
def Config.batchEntries : Nat := 48

/-- Bytes of a reply body at most (R171). -/
def Config.replyBytes : Nat := 1900

/-- The largest value of a 32-bit count. -/
def Config.max32 : Nat := 4294967295

/-- FREE VALUE (log 9): the time a hold timer still has to run is not determined without a clock. Read with a
fresh number each time; `Ops` bounds it by the period the timer began with (R67, R91). -/
opaque Config.holdRemaining : Nat → Nat

/-- FREE VALUE (log 10): the seconds counter after a tick at its 32-bit maximum (R175 gives no result). -/
opaque Config.secondsAfterMax : Nat → Nat

/-- FREE VALUE (log 10): the seconds since a report whose stamp lies above the seconds counter. -/
opaque Config.sinceWrapped : Nat → Nat → Nat

/-- FREE VALUE (log 11): the command code a reply entry carries for a command whose code byte lies beyond the
end of the payload; by the entry's index (R169, R171). -/
opaque Config.unreadCode : Nat → Byte

end Sys2Proof
end

