-- ==== Sys2Proof/Syntax.lean ====
section
/-! DEFINITION. The commands the block takes: one constructor for each row of spec/opcode_table.json, with the
row's operands. The arguments of a management command are the arguments its rule lists, in that order, as the
numbers its bytes carry (R180). -/

namespace Sys2Proof

/-- The grade of a coverage cell (R2), in the order of its codes (R178). -/
inductive Grade where
  | clear | shadowed | marginal | dead
  deriving DecidableEq, Repr

/-- A coverage cell value as STREAM-CELLS presents it: two port numbers 0..15 and a grade (R2, R178). -/
structure CellValue where
  primary   : Fin 16
  secondary : Fin 16
  grade     : Grade
  deriving DecidableEq, Repr

/-- The commands of the block, one constructor for each row of the table. -/
inductive Instr where
  -- resets and the part state
  | powerOnReset
  | pinReset
  | resetEnd (msel : Bool) (addr : Fin 16)
  | initializationEnd
  | restartInitializationEnd
  -- ports and the announcements the blocks take
  | phyLossOfLink (port : Port)
  | phyLinkReport (port : Port)
  | sttLinkDown (port : Port)
  | clsLinkDown (link : LinkNo) (port : Port)
  | clsLinkUp (link : LinkNo) (port : Port)
  | fsqLinkDown (port : Port)
  /-- A frame as it arrives: every byte from the destination address to the frame check sequence. -/
  | frameReceived (port : Port) (bytes : List Byte)
  -- coverage map
  | addSpan (segment : Nat)
  | removeSpan (segment : Nat)
  | coverageEpochExpiry
  -- crane links
  | mapSwappedReevaluation (link : LinkNo)
  | supervisionExpiry (link : LinkNo)
  | holdExpiry (link : LinkNo)
  -- station table
  | agingTimerExpiry
  | agingSweepVisit
  | purgeWalkVisit
  -- reefers
  | reportPeriodExpiry
  | supervisionSweepVisit
  | batchTimerExpiry
  -- frame store
  /-- The FSQ takes the enqueue that stands at `index` among those handed to it. -/
  | enqueue (index : Nat)
  | transmissionEnd (port : Port)
  | refillExpiry (bucket : BucketNo)
  -- notices
  | holdoffExpiry (source : SourceNo)
  -- the agent
  | commandFrameTake
  | ident
  | setIdent (sid : Sid)
  | setPort (port mode permission overhead : Nat)
  | setGroup (group : Nat) (base mask : Half) (valid : Nat)
  | setClass (group cls : Nat) (base mask : Half) (valid domain options : Nat)
  | readClass (group cls : Nat)
  | setDomain (domain enabled trunk : Nat) (flood : Half) (queue : Nat)
  | readDomain (domain : Nat)
  | setStation (sid : Sid) (port : Nat)
  | clearStation (sid : Sid)
  | readStation (sid : Sid)
  | listStations (collection start : Nat)
  | setLearning (margin period clear : Nat)
  | setCrane (link : Nat) (sid : Sid) (peerFlag : Nat) (peer : Sid)
      (home period late lapse hold rate burst overhead : Nat)
  | clearCrane (link : Nat)
  | readCrane (link clear : Nat)
  | setGeometry (origin length hysteresis : Nat)
  | setWindow (segStart segEnd laneStart laneEnd order direction : Nat)
  | streamCells (cont count : Nat) (values : List CellValue)
  | readCells (bank cont count : Nat)
  | copyActive
  | commitMap
  | setEpoch (period : Nat)
  | setReefer (threshold base margin batch report retire domain clear : Nat)
  | readReefer (sid : Sid)
  | listReefers (start filter : Nat)
  | forgetReefer (sid : Sid)
  | setRate (kind index write rate burst overhead : Nat)
  | setQueue (port queue limit : Nat)
  | setSched (port weightB weightD : Nat)
  | setReserve (reserve clear : Nat)
  | readCounters (selector clear : Nat)
  | setNotice (source mask level : Nat)
  | setNoticeDest (present : Nat) (sid : Sid) (trunk codeBase holdoff : Nat)
  | readNotice (source clear : Nat)
  | clearNotice (source : Nat)
  | restart
  -- time
  | secondsCounterTick
  deriving DecidableEq, Repr

end Sys2Proof
end

