-- ==== Sys2Proof/WellFormed.lean ====
section
/-! DEFINITION. When a command is well formed: every argument lies in the range its bytes can carry (R180), and
a segment named by a span event lies on the map (R16). -/

namespace Sys2Proof

/-- A one-byte argument: its carried range lies within 0..255 (R180). -/
def WellFormed.byteArg (n : Nat) : Bool := decide (n < 256)

/-- A two-byte argument: its carried range lies within 0..65535 (R180). -/
def WellFormed.halfArg (n : Nat) : Bool := decide (n < 65536)

/-- The arguments of a well-formed command lie in the ranges that the widths of R180 carry. -/
def Instr.wf : Instr → Bool
  | .powerOnReset | .pinReset | .resetEnd _ _ | .initializationEnd | .restartInitializationEnd => true
  | .phyLossOfLink _ | .phyLinkReport _ | .sttLinkDown _ | .clsLinkDown _ _ | .clsLinkUp _ _ => true
  | .fsqLinkDown _ | .frameReceived _ _ => true
  | .addSpan s => decide (s < 256)
  | .removeSpan s => decide (s < 256)
  | .coverageEpochExpiry | .mapSwappedReevaluation _ | .supervisionExpiry _ | .holdExpiry _ => true
  | .agingTimerExpiry | .agingSweepVisit | .purgeWalkVisit => true
  | .reportPeriodExpiry | .supervisionSweepVisit | .batchTimerExpiry => true
  | .enqueue _ | .transmissionEnd _ | .refillExpiry _ | .holdoffExpiry _ => true
  | .commandFrameTake | .ident | .setIdent _ => true
  | .setPort p m q o =>
      WellFormed.byteArg p && WellFormed.byteArg m && WellFormed.byteArg q && WellFormed.byteArg o
  | .setGroup g _ _ v => WellFormed.byteArg g && WellFormed.byteArg v
  | .setClass g c _ _ v d o =>
      WellFormed.byteArg g && WellFormed.byteArg c && WellFormed.byteArg v && WellFormed.byteArg d &&
        WellFormed.byteArg o
  | .readClass g c => WellFormed.byteArg g && WellFormed.byteArg c
  | .setDomain d e t _ q =>
      WellFormed.byteArg d && WellFormed.byteArg e && WellFormed.byteArg t && WellFormed.byteArg q
  | .readDomain d => WellFormed.byteArg d
  | .setStation _ p => WellFormed.byteArg p
  | .clearStation _ | .readStation _ => true
  | .listStations c s => WellFormed.byteArg c && WellFormed.halfArg s
  | .setLearning m p c => WellFormed.byteArg m && WellFormed.halfArg p && WellFormed.byteArg c
  | .setCrane l _ pf _ h p lt lp hd r b o =>
      WellFormed.byteArg l && WellFormed.byteArg pf && WellFormed.byteArg h && WellFormed.halfArg p &&
        WellFormed.byteArg lt && WellFormed.byteArg lp && WellFormed.byteArg hd && WellFormed.byteArg r &&
        WellFormed.halfArg b && WellFormed.byteArg o
  | .clearCrane l => WellFormed.byteArg l
  | .readCrane l c => WellFormed.byteArg l && WellFormed.byteArg c
  | .setGeometry o l h => WellFormed.halfArg o && WellFormed.halfArg l && WellFormed.halfArg h
  | .setWindow s e l m o d =>
      WellFormed.halfArg s && WellFormed.halfArg e && WellFormed.byteArg l && WellFormed.byteArg m &&
        WellFormed.byteArg o && WellFormed.byteArg d
  | .streamCells c n vs =>
      WellFormed.byteArg c && decide (2 + 2 * n < 256) && decide (vs.length = n)
  | .readCells b c n => WellFormed.byteArg b && WellFormed.byteArg c && WellFormed.halfArg n
  | .copyActive | .commitMap => true
  | .setEpoch p => WellFormed.halfArg p
  | .setReefer t b m tb r q d c =>
      WellFormed.byteArg t && WellFormed.byteArg b && WellFormed.byteArg m && WellFormed.byteArg tb &&
        WellFormed.halfArg r && WellFormed.byteArg q && WellFormed.byteArg d && WellFormed.byteArg c
  | .readReefer _ => true
  | .listReefers s f => WellFormed.halfArg s && WellFormed.byteArg f
  | .forgetReefer _ => true
  | .setRate k i w r b o =>
      WellFormed.byteArg k && WellFormed.byteArg i && WellFormed.byteArg w && WellFormed.byteArg r &&
        WellFormed.halfArg b && WellFormed.byteArg o
  | .setQueue p q l => WellFormed.byteArg p && WellFormed.byteArg q && WellFormed.halfArg l
  | .setSched p b d => WellFormed.byteArg p && WellFormed.byteArg b && WellFormed.byteArg d
  | .setReserve r c => WellFormed.halfArg r && WellFormed.byteArg c
  | .readCounters s c => WellFormed.byteArg s && WellFormed.byteArg c
  | .setNotice s m l => WellFormed.byteArg s && WellFormed.byteArg m && WellFormed.byteArg l
  | .setNoticeDest p _ t b h =>
      WellFormed.byteArg p && WellFormed.byteArg t && WellFormed.byteArg b && WellFormed.byteArg h
  | .readNotice s c => WellFormed.byteArg s && WellFormed.byteArg c
  | .clearNotice s => WellFormed.byteArg s
  | .restart | .secondsCounterTick => true

end Sys2Proof
end

