-- ==== Sys2Proof/Decode.lean ====
section
/-! DEFINITION. How the bytes of a command frame spell a management command (R180), and back. The rows of
spec/opcode_table.json carry no bits of their own, so `decodeTableWord` answers none for every word; what the
spec encodes is the command code and the argument bytes inside a command frame, and that is decoded here. -/

namespace Sys2Proof

/-- No row of the table gives bits: no word spells a command. -/
def decodeTableWord (_nbits _w : Nat) : Option Instr := none

/-- Two bytes, big-endian, as a number (R177). -/
def Decode.u16 (a b : Byte) : Nat := a.toNat * 256 + b.toNat

/-- Two bytes, big-endian, as 16 bits (R177). -/
def Decode.half (a b : Byte) : Half := a ++ b

/-- Four bytes, big-endian, as a SID (R177). -/
def Decode.sid (a b c d : Byte) : Sid := (a ++ b ++ c ++ d : BitVec (8 + 8 + 8 + 8))

/-- The grade of a code; every code of two bits names one (R178). -/
def Decode.grade (n : Nat) : Grade :=
  match n % 4 with
  | 0 => .clear
  | 1 => .shadowed
  | 2 => .marginal
  | _ => .dead

/-- A coverage cell value from its two bytes (R178). -/
def Decode.cell (a b : Byte) : CellValue :=
  { primary := (a >>> 4).setWidth 4 |>.toFin, secondary := (a.setWidth 4).toFin
    grade := Decode.grade b.toNat }

/-- The first `n` coverage cell values of a list of bytes (R178). -/
def Decode.cells : Nat → List Byte → List CellValue
  | n + 1, a :: b :: r => Decode.cell a b :: Decode.cells n r
  | _, _ => []

/-- What the code and the argument bytes of a command spell (R169): a code of the table with enough argument
bytes, a code with too few, or no code of the table. -/
inductive Decode.Parsed where
  | badCode
  | short
  | command (i : Instr)
  deriving DecidableEq, Repr

/-- A command whose arguments were found, or too few of them. -/
def Decode.ofOption : Option Instr → Decode.Parsed
  | none => .short
  | some i => .command i

/-- The command that one code and its argument bytes spell; the codes and the order and width of the arguments
are those of R180; the code base of SET-NOTICE-DEST is taken as one byte (log 42). Bytes beyond those a command needs
are ignored (R169). -/
def Decode.command (code : Byte) (args : List Byte) : Decode.Parsed :=
  match code.toNat with
  | 0x01 => .command .ident
  | 0x02 => Decode.ofOption <| match args with
    | a :: b :: c :: d :: _ => some (.setIdent (Decode.sid a b c d))
    | _ => none
  | 0x03 => Decode.ofOption <| match args with
    | p :: m :: q :: o :: _ => some (.setPort p.toNat m.toNat q.toNat o.toNat)
    | _ => none
  | 0x04 => Decode.ofOption <| match args with
    | g :: a :: b :: c :: d :: v :: _ =>
      some (.setGroup g.toNat (Decode.half a b) (Decode.half c d) v.toNat)
    | _ => none
  | 0x05 => Decode.ofOption <| match args with
    | g :: k :: a :: b :: c :: d :: v :: m :: o :: _ =>
      some (.setClass g.toNat k.toNat (Decode.half a b) (Decode.half c d) v.toNat m.toNat o.toNat)
    | _ => none
  | 0x06 => Decode.ofOption <| match args with
    | g :: k :: _ => some (.readClass g.toNat k.toNat)
    | _ => none
  | 0x07 => Decode.ofOption <| match args with
    | m :: e :: t :: a :: b :: q :: _ =>
      some (.setDomain m.toNat e.toNat t.toNat (Decode.half a b) q.toNat)
    | _ => none
  | 0x08 => Decode.ofOption <| match args with
    | m :: _ => some (.readDomain m.toNat)
    | _ => none
  | 0x09 => Decode.ofOption <| match args with
    | a :: b :: c :: d :: p :: _ => some (.setStation (Decode.sid a b c d) p.toNat)
    | _ => none
  | 0x0A => Decode.ofOption <| match args with
    | a :: b :: c :: d :: _ => some (.clearStation (Decode.sid a b c d))
    | _ => none
  | 0x0B => Decode.ofOption <| match args with
    | a :: b :: c :: d :: _ => some (.readStation (Decode.sid a b c d))
    | _ => none
  | 0x0C => Decode.ofOption <| match args with
    | k :: a :: b :: _ => some (.listStations k.toNat (Decode.u16 a b))
    | _ => none
  | 0x0D => Decode.ofOption <| match args with
    | m :: a :: b :: c :: _ => some (.setLearning m.toNat (Decode.u16 a b) c.toNat)
    | _ => none
  | 0x0E => Decode.ofOption <| match args with
    | l :: a :: b :: c :: d :: f :: e :: g :: h :: i :: m :: p :: q :: lt :: lp :: hd :: r :: x :: y :: o :: _ =>
      some (.setCrane l.toNat (Decode.sid a b c d) f.toNat (Decode.sid e g h i) m.toNat (Decode.u16 p q)
        lt.toNat lp.toNat hd.toNat r.toNat (Decode.u16 x y) o.toNat)
    | _ => none
  | 0x0F => Decode.ofOption <| match args with
    | l :: _ => some (.clearCrane l.toNat)
    | _ => none
  | 0x10 => Decode.ofOption <| match args with
    | l :: c :: _ => some (.readCrane l.toNat c.toNat)
    | _ => none
  | 0x11 => Decode.ofOption <| match args with
    | a :: b :: c :: d :: e :: f :: _ =>
      some (.setGeometry (Decode.u16 a b) (Decode.u16 c d) (Decode.u16 e f))
    | _ => none
  | 0x12 => Decode.ofOption <| match args with
    | a :: b :: c :: d :: l :: m :: o :: x :: _ =>
      some (.setWindow (Decode.u16 a b) (Decode.u16 c d) l.toNat m.toNat o.toNat x.toNat)
    | _ => none
  | 0x13 => Decode.ofOption <| match args with
    | c :: n :: vs =>
      if vs.length < 2 * n.toNat then none
      else some (.streamCells c.toNat n.toNat (Decode.cells n.toNat vs))
    | _ => none
  | 0x14 => Decode.ofOption <| match args with
    | k :: c :: a :: b :: _ => some (.readCells k.toNat c.toNat (Decode.u16 a b))
    | _ => none
  | 0x15 => .command .copyActive
  | 0x16 => .command .commitMap
  | 0x17 => Decode.ofOption <| match args with
    | a :: b :: _ => some (.setEpoch (Decode.u16 a b))
    | _ => none
  | 0x18 => Decode.ofOption <| match args with
    | t :: b :: m :: p :: x :: y :: r :: d :: c :: _ =>
      some (.setReefer t.toNat b.toNat m.toNat p.toNat (Decode.u16 x y) r.toNat d.toNat c.toNat)
    | _ => none
  | 0x19 => Decode.ofOption <| match args with
    | a :: b :: c :: d :: _ => some (.readReefer (Decode.sid a b c d))
    | _ => none
  | 0x1A => Decode.ofOption <| match args with
    | a :: b :: f :: _ => some (.listReefers (Decode.u16 a b) f.toNat)
    | _ => none
  | 0x1B => Decode.ofOption <| match args with
    | a :: b :: c :: d :: _ => some (.forgetReefer (Decode.sid a b c d))
    | _ => none
  | 0x1C => Decode.ofOption <| match args with
    | k :: i :: w :: r :: x :: y :: o :: _ =>
      some (.setRate k.toNat i.toNat w.toNat r.toNat (Decode.u16 x y) o.toNat)
    | _ => none
  | 0x1D => Decode.ofOption <| match args with
    | p :: q :: a :: b :: _ => some (.setQueue p.toNat q.toNat (Decode.u16 a b))
    | _ => none
  | 0x1E => Decode.ofOption <| match args with
    | p :: b :: d :: _ => some (.setSched p.toNat b.toNat d.toNat)
    | _ => none
  | 0x1F => Decode.ofOption <| match args with
    | a :: b :: c :: _ => some (.setReserve (Decode.u16 a b) c.toNat)
    | _ => none
  | 0x20 => Decode.ofOption <| match args with
    | s :: c :: _ => some (.readCounters s.toNat c.toNat)
    | _ => none
  | 0x21 => Decode.ofOption <| match args with
    | s :: m :: l :: _ => some (.setNotice s.toNat m.toNat l.toNat)
    | _ => none
  | 0x22 => Decode.ofOption <| match args with
    | p :: a :: b :: c :: d :: t :: k :: h :: _ =>
      some (.setNoticeDest p.toNat (Decode.sid a b c d) t.toNat k.toNat h.toNat)
    | _ => none
  | 0x23 => Decode.ofOption <| match args with
    | s :: c :: _ => some (.readNotice s.toNat c.toNat)
    | _ => none
  | 0x24 => Decode.ofOption <| match args with
    | s :: _ => some (.clearNotice s.toNat)
    | _ => none
  | 0x25 => .command .restart
  | _ => .badCode

/-- A number as one byte. -/
def Encode.u8 (n : Nat) : List Byte := [BitVec.ofNat 8 n]

/-- A number as two bytes, big-endian (R177). -/
def Encode.u16 (n : Nat) : List Byte := [BitVec.ofNat 8 (n / 256), BitVec.ofNat 8 n]

/-- Sixteen bits as two bytes, big-endian (R177). -/
def Encode.half (h : Half) : List Byte := [(h >>> 8).setWidth 8, h.setWidth 8]

/-- A SID as four bytes, big-endian (R177). -/
def Encode.sid (x : Sid) : List Byte :=
  [(x >>> 24).setWidth 8, (x >>> 16).setWidth 8, (x >>> 8).setWidth 8, x.setWidth 8]

/-- The code of a grade (R178). -/
def Encode.grade : Grade → Nat
  | .clear => 0
  | .shadowed => 1
  | .marginal => 2
  | .dead => 3

/-- A presented coverage cell value as its two bytes (R178). -/
def Encode.cellValue (v : CellValue) : List Byte :=
  [BitVec.ofNat 8 (v.primary.val * 16 + v.secondary.val), BitVec.ofNat 8 (Encode.grade v.grade)]

/-- The code and the argument bytes that spell a management command (R180); none for the other rows of the
table, which no frame spells. -/
def Encode.command : Instr → Option (Byte × List Byte)
  | .ident => some (0x01, [])
  | .setIdent s => some (0x02, Encode.sid s)
  | .setPort p m q o => some (0x03, Encode.u8 p ++ Encode.u8 m ++ Encode.u8 q ++ Encode.u8 o)
  | .setGroup g b m v => some (0x04, Encode.u8 g ++ Encode.half b ++ Encode.half m ++ Encode.u8 v)
  | .setClass g c b m v d o =>
    some (0x05, Encode.u8 g ++ Encode.u8 c ++ Encode.half b ++ Encode.half m ++ Encode.u8 v ++ Encode.u8 d
      ++ Encode.u8 o)
  | .readClass g c => some (0x06, Encode.u8 g ++ Encode.u8 c)
  | .setDomain d e t f q =>
    some (0x07, Encode.u8 d ++ Encode.u8 e ++ Encode.u8 t ++ Encode.half f ++ Encode.u8 q)
  | .readDomain d => some (0x08, Encode.u8 d)
  | .setStation s p => some (0x09, Encode.sid s ++ Encode.u8 p)
  | .clearStation s => some (0x0A, Encode.sid s)
  | .readStation s => some (0x0B, Encode.sid s)
  | .listStations c s => some (0x0C, Encode.u8 c ++ Encode.u16 s)
  | .setLearning m p c => some (0x0D, Encode.u8 m ++ Encode.u16 p ++ Encode.u8 c)
  | .setCrane l s f p h per lt lp hd r b o =>
    some (0x0E, Encode.u8 l ++ Encode.sid s ++ Encode.u8 f ++ Encode.sid p ++ Encode.u8 h ++ Encode.u16 per
      ++ Encode.u8 lt ++ Encode.u8 lp ++ Encode.u8 hd ++ Encode.u8 r ++ Encode.u16 b ++ Encode.u8 o)
  | .clearCrane l => some (0x0F, Encode.u8 l)
  | .readCrane l c => some (0x10, Encode.u8 l ++ Encode.u8 c)
  | .setGeometry o l h => some (0x11, Encode.u16 o ++ Encode.u16 l ++ Encode.u16 h)
  | .setWindow s e l m o d =>
    some (0x12, Encode.u16 s ++ Encode.u16 e ++ Encode.u8 l ++ Encode.u8 m ++ Encode.u8 o ++ Encode.u8 d)
  | .streamCells c n vs => some (0x13, Encode.u8 c ++ Encode.u8 n ++ vs.flatMap Encode.cellValue)
  | .readCells b c n => some (0x14, Encode.u8 b ++ Encode.u8 c ++ Encode.u16 n)
  | .copyActive => some (0x15, [])
  | .commitMap => some (0x16, [])
  | .setEpoch p => some (0x17, Encode.u16 p)
  | .setReefer t b m tb r q d c =>
    some (0x18, Encode.u8 t ++ Encode.u8 b ++ Encode.u8 m ++ Encode.u8 tb ++ Encode.u16 r ++ Encode.u8 q
      ++ Encode.u8 d ++ Encode.u8 c)
  | .readReefer s => some (0x19, Encode.sid s)
  | .listReefers s f => some (0x1A, Encode.u16 s ++ Encode.u8 f)
  | .forgetReefer s => some (0x1B, Encode.sid s)
  | .setRate k i w r b o =>
    some (0x1C, Encode.u8 k ++ Encode.u8 i ++ Encode.u8 w ++ Encode.u8 r ++ Encode.u16 b ++ Encode.u8 o)
  | .setQueue p q l => some (0x1D, Encode.u8 p ++ Encode.u8 q ++ Encode.u16 l)
  | .setSched p b d => some (0x1E, Encode.u8 p ++ Encode.u8 b ++ Encode.u8 d)
  | .setReserve r c => some (0x1F, Encode.u16 r ++ Encode.u8 c)
  | .readCounters s c => some (0x20, Encode.u8 s ++ Encode.u8 c)
  | .setNotice s m l => some (0x21, Encode.u8 s ++ Encode.u8 m ++ Encode.u8 l)
  | .setNoticeDest p s t b h =>
    some (0x22, Encode.u8 p ++ Encode.sid s ++ Encode.u8 t ++ Encode.u8 b ++ Encode.u8 h)
  | .readNotice s c => some (0x23, Encode.u8 s ++ Encode.u8 c)
  | .clearNotice s => some (0x24, Encode.u8 s)
  | .restart => some (0x25, [])
  | .powerOnReset | .pinReset | .resetEnd _ _ | .initializationEnd | .restartInitializationEnd => none
  | .phyLossOfLink _ | .phyLinkReport _ | .sttLinkDown _ | .clsLinkDown _ _ | .clsLinkUp _ _ => none
  | .fsqLinkDown _ | .frameReceived _ _ | .addSpan _ | .removeSpan _ | .coverageEpochExpiry => none
  | .mapSwappedReevaluation _ | .supervisionExpiry _ | .holdExpiry _ => none
  | .agingTimerExpiry | .agingSweepVisit | .purgeWalkVisit => none
  | .reportPeriodExpiry | .supervisionSweepVisit | .batchTimerExpiry => none
  | .enqueue _ | .transmissionEnd _ | .refillExpiry _ | .holdoffExpiry _ | .commandFrameTake => none
  | .secondsCounterTick => none

end Sys2Proof
end

