-- ==== Sys2Proof/Machine/State.lean ====
section
/-! DEFINITION. The state of the part: every piece of state the spec gives each block, as plain data, the values
each takes at a hard reset, and the state right after a power-on reset. -/

namespace Sys2Proof.Machine

/-- The reasons a step can stop with a fault. The spec describes no fault of the part, so there is none. -/
inductive Fault where
  deriving DecidableEq, Repr

/-- The reasons a step can be refused. -/
inductive Refusal where
  /-- Raised by an arm of `exec` whose command has no meaning yet; no arm raises it. Safe: the machine stops. -/
  | notModelled (mnemonic : String)
  deriving DecidableEq, Repr

/-! ## Names shared by the blocks -/

/-- The part state (R175), and the time from the beginning of a hard reset to its end, in which the part has
none of the three and neither receives nor sends. -/
inductive PartState where
  | inReset | starting | running | restarting
  deriving DecidableEq, Repr

/-- A trunk port (R36). -/
inductive Trunk where
  | t0 | t1
  deriving DecidableEq, Repr

/-- The four class queues of a port (spec 0.9), in the order of their codes (R140). -/
inductive QClass where
  | c | u | b | d
  deriving DecidableEq, Repr

/-- The frame kinds, in the order of their codes (R177). -/
inductive Kind where
  | data | craneControl | positionReport | reeferReport | managementCommand
  | managementReply | notice | linkAdvisory | reeferBatch
  deriving DecidableEq, Repr

/-! ## Port blocks (R20) -/

/-- Link state (R20). -/
inductive LinkSense where
  | down | up
  deriving DecidableEq, Repr

/-- Service mode (R22). -/
inductive Mode where
  | full | craneOnly | disabled
  deriving DecidableEq, Repr

/-- The record of a port block (R20). -/
structure PortRec where
  link      : LinkSense
  mode      : Mode
  permitted : Bool
  overhead  : Nat
  neighbour : Mac
  deriving DecidableEq, Repr

/-- A port record at a hard reset, but for its permission and its link state (R20). -/
def PortRec.hard (link : LinkSense) (permitted : Bool) : PortRec :=
  { link := link, mode := .full, permitted := permitted, overhead := 20, neighbour := 0xFFFFFFFFFFFF }

/-! ## Coverage Map (chapter 1) -/

/-- The geometry of a bank (R3). -/
structure Geometry where
  origin     : Nat
  length     : Nat
  hysteresis : Nat
  deriving DecidableEq, Repr

/-- The default geometry (R3). -/
def Geometry.default : Geometry := { origin := 0, length := 300, hysteresis := 20 }

/-- A coverage cell (R2). -/
structure Cell where
  primary   : Option QPort
  secondary : Option QPort
  grade     : Grade
  deriving DecidableEq, Repr

/-- What a coverage cell holds after a power-on reset (R17): what an unlisted cell reads as. -/
def Cell.empty : Cell := { primary := none, secondary := none, grade := .clear }

/-- A map bank: its cells by address 8 × segment + lane, those that are not `Cell.empty`, and its geometry. -/
structure Bank where
  cells    : Table Cell
  geometry : Geometry
  deriving DecidableEq, Repr

/-- Which axis of the window moves first (R4). -/
inductive Order where
  | laneFirst | segmentFirst
  deriving DecidableEq, Repr

/-- The direction of the segment walk (R4). -/
inductive Direction where
  | ascending | descending
  deriving DecidableEq, Repr

/-- The loading window (R4). -/
structure Window where
  segStart  : Nat
  segEnd    : Nat
  laneStart : Nat
  laneEnd   : Nat
  order     : Order
  direction : Direction
  deriving DecidableEq, Repr

/-- The window after a hard reset (R4). -/
def Window.full : Window :=
  { segStart := 0, segEnd := 255, laneStart := 0, laneEnd := 7, order := .laneFirst, direction := .ascending }

/-- A cursor (R6): none when it is marked fresh, since a fresh cursor has no position in use, and otherwise the
segment and lane it holds. -/
abbrev Cursor := Option (Nat × Nat)

/-- The Coverage Map. -/
structure Cvm where
  bank0       : Bank
  bank1       : Bank
  /-- the number of the active bank is 1 -/
  activeIsOne : Bool
  valid       : Bool
  swapPending : Bool
  window      : Window
  writeCursor : Cursor
  readCursor  : Cursor
  epochPeriod : Nat
  /-- the coverage epoch timer: none when stopped, else the period its interval began with (R11) -/
  epochTimer  : Option Nat
  overlay     : Vector Nat 256
  deriving DecidableEq, Repr

/-- The map after a power-on reset (R17). -/
def Cvm.powerOn : Cvm :=
  { bank0 := ⟨[], .default⟩, bank1 := ⟨[], .default⟩, activeIsOne := false, valid := false, swapPending := false
    window := .full, writeCursor := none, readCursor := none, epochPeriod := 100, epochTimer := none
    overlay := Vector.replicate 256 0 }

/-! ## Identity Classifier (chapter 2) -/

/-- An identity group (R32). -/
structure Group where
  base  : Half
  mask  : Half
  valid : Bool
  deriving DecidableEq, Repr

/-- The options of an identity class (R32, R34). -/
structure Options where
  uplinkOnly : Bool
  reefer     : Bool
  crane      : Bool
  deriving DecidableEq, Repr

/-- An identity class (R32). -/
structure IdClass where
  base    : Half
  mask    : Half
  valid   : Bool
  domain  : Fin 8
  options : Options
  deriving DecidableEq, Repr

/-- The queue in which a domain's data frames travel (R36). -/
inductive DataQueue where
  | d | b
  deriving DecidableEq, Repr

/-- A domain record (R36). -/
structure Domain where
  enabled : Bool
  trunk   : Trunk
  flood   : QuaySet
  queue   : DataQueue
  deriving DecidableEq, Repr

/-- The Identity Classifier; class g.c stands at index 4 × g + c. -/
structure Idc where
  groups  : Vector Group 4
  classes : Vector IdClass 16
  domains : Vector Domain 8
  deriving DecidableEq, Repr

/-- The boot default of the IDC and the domain records at a hard reset (R32, R36). -/
def Idc.hard : Idc :=
  { groups := (Vector.replicate 4 ⟨0, 0, false⟩).set 0 ⟨0, 0xFFFF, true⟩
    classes := (Vector.replicate 16 ⟨0, 0, false, 0, ⟨false, false, false⟩⟩).set 0
      ⟨0, 0xFFFF, true, 0, ⟨false, false, false⟩⟩
    domains := (Vector.replicate 8 ⟨false, .t0, 0, .d⟩).set 0 ⟨true, .t0, 0xFFF, .d⟩ }

/-! ## Station Table (chapter 3) -/

/-- What a record of the static collection says of its station (R42). -/
inductive Binding where
  | static (port : QPort)
  | crane (link : LinkNo)
  deriving DecidableEq, Repr

/-- A static or crane-bound station record (R42). -/
structure StaticRec where
  sid     : Sid
  binding : Binding
  deriving DecidableEq, Repr

/-- A dynamic station record (R42). -/
structure DynRec where
  sid   : Sid
  port  : QPort
  grade : Nat
  age   : Nat
  deriving DecidableEq, Repr

/-- The STT statistics (R51). -/
structure SttStats where
  inserts          : Nat
  moves            : Nat
  competing        : Nat
  agingRemovals    : Nat
  purgeRemovals    : Nat
  agingOverruns    : Nat
  located          : Nat
  floods           : Nat
  deriving DecidableEq, Repr

/-- All STT statistics 0 (R43). -/
def SttStats.zero : SttStats := ⟨0, 0, 0, 0, 0, 0, 0, 0⟩

/-- A purge walk in progress (R54): the place it visits next and the ports of its set. -/
structure Walk where
  next  : Nat
  ports : QuaySet
  deriving DecidableEq, Repr

/-- The Station Table. -/
structure Stt where
  statics     : Table StaticRec
  dynamics    : Table DynRec
  margin      : Nat
  agingPeriod : Nat
  stats       : SttStats
  agingTimer  : Option Nat
  /-- the aging sweep in progress: the place it visits next (R53) -/
  sweep       : Option Nat
  remembered  : Bool
  walk        : Option Walk
  waiting     : QuaySet
  deriving DecidableEq, Repr

/-- The Station Table at a hard reset (R43, R54). -/
def Stt.hard : Stt :=
  { statics := [], dynamics := [], margin := 2, agingPeriod := 300, stats := .zero, agingTimer := none
    sweep := none, remembered := false, walk := none, waiting := 0 }

/-! ## Crane Link Supervisor (chapters 4 and 5) -/

/-- The state of a crane link (R61). -/
inductive LinkState where
  | unbound | waiting | live | late | lapsed
  deriving DecidableEq, Repr

/-- The configuration fields of a crane link (R61). -/
structure LinkConfig where
  sid    : Sid
  peer   : Option Sid
  home   : QPort
  period : Nat
  late   : Nat
  lapse  : Nat
  hold   : Nat
  deriving DecidableEq, Repr

/-- The empty configuration of an UNBOUND link (R62; zeros, log 20). -/
def LinkConfig.empty : LinkConfig :=
  { sid := 0, peer := none, home := 0, period := 0, late := 0, lapse := 0, hold := 0 }

/-- A handover context (R89); `timer` is the period its hold timer began with (R91). -/
structure Handover where
  old   : QPort
  new   : QPort
  timer : Nat
  deriving DecidableEq, Repr

/-- The eleven link counts (R82). -/
structure LinkCounts where
  late          : Nat
  lapses        : Nat
  duplicates    : Nat
  stale         : Nat
  foreign       : Nat
  lapsedDiscard : Nat
  completed     : Nat
  reverted      : Nat
  redirected    : Nat
  abandoned     : Nat
  failovers     : Nat
  deriving DecidableEq, Repr

/-- All link counts 0 (R82). -/
def LinkCounts.zero : LinkCounts := ⟨0, 0, 0, 0, 0, 0, 0, 0, 0, 0, 0⟩

/-- A crane link record (R61). The repeat slot holds a frame's bytes, without the check sequence (R79). -/
structure Link where
  state    : LinkState
  config   : LinkConfig
  missed   : Nat
  cycle    : Option Nat
  position : Option Nat
  segment  : Option Nat
  primary  : QPort
  context  : Option Handover
  reverted : Option QPort
  slot     : Option (List Byte)
  counts   : LinkCounts
  /-- the supervision timer: none when stopped, else the period its interval began with (R72) -/
  timer    : Option Nat
  deriving DecidableEq, Repr

/-- A link at a hard reset (R62). -/
def Link.hard : Link :=
  { state := .unbound, config := .empty, missed := 0, cycle := none, position := none, segment := none
    primary := 0, context := none, reverted := none, slot := none, counts := .zero, timer := none }

/-! ## Reefer Consolidator (chapters 6 and 7) -/

/-- The supervision state of a reefer record (R103). -/
inductive ReeferState where
  | reporting | overdue | silent
  deriving DecidableEq, Repr

/-- The unit state a reefer reports (R103). -/
inductive UnitState where
  | off | cooling | heating | defrost | fault
  deriving DecidableEq, Repr

/-- A record's relation to the batch buffers (R103). -/
inductive BatchPlace where
  | none
  | inFilling (index : Nat)
  | unsent
  deriving DecidableEq, Repr

/-- The values of a report after clamping (R111), as a record stores them. -/
structure Readings where
  unit     : UnitState
  segment  : Option Nat
  lane     : Option Nat
  setpoint : Option Int
  supply   : Option Int
  ret      : Option Int
  alarms   : List Byte
  counter  : Nat
  deriving DecidableEq, Repr

/-- A reefer record (R103). -/
structure Reefer where
  sid      : Sid
  state    : ReeferState
  readings : Readings
  missed   : Nat
  heard    : Bool
  stamp    : Nat
  place    : BatchPlace
  deriving DecidableEq, Repr

/-- The entry state of a batch entry (R129). -/
inductive EntryState where
  | reporting | overdue | silent | retired
  deriving DecidableEq, Repr

/-- A batch entry (R129). -/
structure BatchEntry where
  sid      : Sid
  state    : EntryState
  unit     : UnitState
  setpoint : Option Int
  supply   : Option Int
  ret      : Option Int
  alarms   : List Byte
  missed   : Nat
  since    : Nat
  segment  : Option Nat
  lane     : Option Nat
  deriving DecidableEq, Repr

/-- The state of a batch buffer (R128). -/
inductive BufferState where
  | idle | filling | sending
  deriving DecidableEq, Repr

/-- A batch buffer (R128). -/
structure Buffer where
  state   : BufferState
  entries : List BatchEntry
  deriving DecidableEq, Repr

/-- The consolidator settings (R106). -/
structure RcnSettings where
  threshold    : Nat
  allowance    : Nat
  silentMargin : Nat
  reportPeriod : Nat
  batchPeriod  : Nat
  retire       : Bool
  domain       : Fin 8
  deriving DecidableEq, Repr

/-- The settings after a hard reset (R106). -/
def RcnSettings.hard : RcnSettings :=
  { threshold := 5, allowance := 3, silentMargin := 3, reportPeriod := 120, batchPeriod := 10, retire := true
    domain := 0 }

/-- The sixteen RCN statistics, in the order of R107. -/
structure RcnStats where
  accepted         : Nat
  inserts          : Nat
  passThroughs     : Nat
  checkFailures    : Nat
  duplicates       : Nat
  stale            : Nat
  restarts         : Nat
  truncations      : Nat
  alarmsForwarded  : Nat
  alarmHolds       : Nat
  forgets          : Nat
  retirements      : Nat
  batchOverflows   : Nat
  batchesSent      : Nat
  batchesDiscarded : Nat
  sweepOverruns    : Nat
  deriving DecidableEq, Repr

/-- All RCN statistics 0 (R107). -/
def RcnStats.zero : RcnStats := ⟨0, 0, 0, 0, 0, 0, 0, 0, 0, 0, 0, 0, 0, 0, 0, 0⟩

/-- The Reefer Consolidator. -/
structure Rcn where
  reefers     : Table Reefer
  settings    : RcnSettings
  stats       : RcnStats
  periodTimer : Option Nat
  /-- the supervision sweep in progress: the place it visits next (R122) -/
  sweep       : Option Nat
  remembered  : Bool
  bufferA     : Buffer
  bufferB     : Buffer
  sendDue     : Bool
  batchTimer  : Option Nat
  deriving DecidableEq, Repr

/-- The Reefer Consolidator at a hard reset (R105, R106, R137). -/
def Rcn.hard : Rcn :=
  { reefers := [], settings := .hard, stats := .zero, periodTimer := none, sweep := none, remembered := false
    bufferA := ⟨.filling, []⟩, bufferB := ⟨.idle, []⟩, sendDue := false, batchTimer := none }

/-! ## Frame Store and Queues (chapter 8) -/

/-- Where a frame handed to the FSQ comes from: forwarded as it arrived (a priming copy among them), or
originated by the part; a reply says whether it carries a RESTART that was taken (R173). -/
inductive Origin where
  | forwarded
  | advisory
  | notice
  | reply (restart : Bool)
  deriving DecidableEq, Repr

/-- A stored frame (R138): its bytes from the destination address to the last byte before the check sequence,
the pool cells it holds and its reference count. -/
structure Stored where
  bytes  : List Byte
  cells  : Nat
  refs   : Nat
  kind   : Kind
  origin : Origin
  deriving DecidableEq, Repr

/-- An entry of a class queue (R140): it points at a stored frame, by its identifier, or is the batch entry with
the frame built for the SENDING buffer (R143). -/
inductive Entry where
  | frame (id cells length : Nat)
  | batch (bytes : List Byte)
  deriving DecidableEq, Repr

/-- A class queue (R140): its cell limit and its entries, oldest first. -/
structure Queue where
  limit   : Nat
  entries : List Entry
  deriving DecidableEq, Repr

/-- The two queues of the weighted part (R145). -/
inductive Turn where
  | b | d
  deriving DecidableEq, Repr

/-- The queues, the transmitter and the scheduler of one port (R140, R144, R145). -/
structure PortQueues where
  queueC  : Queue
  queueU  : Queue
  queueB  : Queue
  queueD  : Queue
  /-- none when the transmitter is IDLE, else the queue whose head entry it is SENDING (R144) -/
  sending : Option QClass
  turn    : Turn
  served  : Nat
  weightB : Nat
  weightD : Nat
  deriving DecidableEq, Repr

/-- The queues of a port at a hard reset (R140, R144, R145). -/
def PortQueues.hard : PortQueues :=
  { queueC := ⟨512, []⟩, queueU := ⟨256, []⟩, queueB := ⟨1024, []⟩, queueD := ⟨1024, []⟩, sending := none
    turn := .b, served := 0, weightB := 1, weightD := 4 }

/-- A credit bucket (R149); credits are in sixteenths of a byte. -/
structure Bucket where
  rate     : Nat
  burst    : Nat
  overhead : Bool
  credit   : Int
  /-- its refill timer runs (R150) -/
  refill   : Bool
  deriving DecidableEq, Repr

/-- A bucket at a hard reset: open and full (R149). -/
def Bucket.hard : Bucket := { rate := 0, burst := 4096, overhead := false, credit := 65536, refill := false }

/-- The Frame Store and Queues. -/
structure Fsq where
  free      : Nat
  store     : Table Stored
  reserve   : Nat
  overBurst : Nat
  ports     : Vector PortQueues 14
  buckets   : Vector Bucket 137
  deriving DecidableEq, Repr

/-- The FSQ at a hard reset (R138, R139, R140, R149). -/
def Fsq.hard : Fsq :=
  { free := Config.poolCells, store := [], reserve := 256, overBurst := 0
    ports := Vector.replicate 14 .hard, buckets := Vector.replicate 137 .hard }

/-! ## Notice Unit and Counter Block (chapter 9) -/

/-- What names the sweep of an overrun (R156, R179). -/
inductive SweepName where
  | aging | reefer
  deriving DecidableEq, Repr

/-- Why a port's usability changed (R21). -/
inductive Cause where
  | link | serviceMode
  deriving DecidableEq, Repr

/-- The detail of an edge source, in the forms of R179. -/
inductive Detail where
  | link (link : LinkNo)
  | foreign (link : LinkNo) (peer : Sid)
  | reverted (link : LinkNo) (port : QPort)
  | sid (sid : Sid)
  | sweep (name : SweepName)
  | bank (one : Bool)
  | port (port : Port) (cause : Cause)
  | command (port : Port) (sender : Sid)
  | counter (port : Port) (counter : Fin 12)
  deriving DecidableEq, Repr

/-- The record of a notice source (R156); its mode is fixed by its number and its status is pending and not
masked, both computed. -/
structure Source where
  masked  : Bool
  level   : Nat
  pending : Bool
  count   : Nat
  detail  : Option Detail
  /-- the holdoff timer: none when stopped, else the period its interval began with (R158) -/
  holdoff : Option Nat
  deriving DecidableEq, Repr

/-- A notice source at a hard reset (R156). -/
def Source.hard : Source :=
  { masked := true, level := 4, pending := false, count := 0, detail := none, holdoff := none }

/-- The notice destination (R156). -/
structure NoticeDest where
  sid      : Option Sid
  trunk    : Trunk
  codeBase : Nat
  holdoff  : Nat
  deriving DecidableEq, Repr

/-- The Notice Unit. -/
structure Ntu where
  sources  : Vector Source 24
  dest     : NoticeDest
  enqueued : Nat
  lost     : Nat
  deriving DecidableEq, Repr

/-- The Notice Unit at a hard reset (R156). -/
def Ntu.hard : Ntu :=
  { sources := Vector.replicate 24 .hard, dest := ⟨none, .t0, 0, 10⟩, enqueued := 0, lost := 0 }

/-- A per-port counter with its wrap flag (R164). -/
structure Counter where
  value   : Nat
  wrapped : Bool
  deriving DecidableEq, Repr

/-- The Counter Block (R164, R165). -/
structure Ctb where
  ports : Vector (Vector Counter 12) 14
  drops : Vector Nat 20
  deriving DecidableEq, Repr

/-- The Counter Block at a hard reset (R164, R165). -/
def Ctb.hard : Ctb :=
  { ports := Vector.replicate 14 (Vector.replicate 12 ⟨0, false⟩), drops := Vector.replicate 20 0 }

/-! ## Management Agent (chapter 10) -/

/-- A command status (R170), in the order of its codes (R180). -/
inductive Status where
  | ok | clamped | partialFit | badCode | badArgument | notFound | tableFull | conflict | windowInvalid
  | short | skipped
  deriving DecidableEq, Repr

/-- An accepted command frame (R168): its port of arrival, its two SIDs as received, and its payload. -/
structure CommandFrame where
  arrival : Port
  station : Sid
  peer    : Sid
  payload : List Byte
  deriving DecidableEq, Repr

/-- One command entry of a reply (R171). -/
structure ReplyEntry where
  code   : Byte
  status : Status
  result : List Byte
  deriving DecidableEq, Repr

/-- A command frame being executed (R169, R171): where its reply goes, the payload from the place where the
previous command ended, whether a command of it has failed, the entries built so far and the room that remains
for results. -/
structure Execution where
  arrival     : Port
  station     : Sid
  peer        : Sid
  stopOnError : Bool
  tag         : Nat
  count       : Nat
  rest        : List Byte
  failed      : Bool
  entries     : List ReplyEntry
  room        : Nat
  deriving DecidableEq, Repr

/-- What the agent is doing: nothing, executing a frame, held by a COMMIT-MAP in progress (R12), or waiting for
the end of the reply of a RESTART that was taken (R174). -/
inductive Phase where
  | idle
  | executing (e : Execution)
  | held (e : Execution)
  | restartOrdered
  deriving DecidableEq, Repr

/-- The Management Agent. -/
structure Mga where
  queue : List CommandFrame
  phase : Phase
  deriving DecidableEq, Repr

/-- The Management Agent at a hard reset (R168). -/
def Mga.hard : Mga := { queue := [], phase := .idle }

/-! ## Events between blocks -/

/-- A span event from the CLS to the CVM (R16). -/
inductive SpanEvent where
  | add (segment : Nat)
  | remove (segment : Nat)
  deriving DecidableEq, Repr

/-- A change of a port's usability on its way to one bound link (R96, R97). -/
structure LinkEvent where
  up   : Bool
  link : LinkNo
  port : Port
  deriving DecidableEq, Repr

/-- What is handed to the FSQ: a frame with every byte it arrived with, a frame the part originates from its
EtherType on (its Ethernet addresses are set when it is enqueued, R24), or the same for a batch frame, which is
stored nowhere (R143). -/
inductive Body where
  | forwarded (bytes : List Byte)
  | originated (origin : Origin) (bytes : List Byte)
  | batch (bytes : List Byte)
  deriving DecidableEq, Repr

/-- An enqueue (R141): the queues it names, and the frame with its kind. -/
structure EnqueueRequest where
  queues : List (Port × QClass)
  kind   : Kind
  body   : Body
  deriving DecidableEq, Repr

/-- The events that one block has issued and another has not yet taken, oldest first (log 6). -/
structure Flight where
  enqueues     : List EnqueueRequest
  spans        : List SpanEvent
  stationDowns : List Port
  linkEvents   : List LinkEvent
  queueDowns   : List Port
  reevaluations : List LinkNo
  deriving DecidableEq, Repr

/-- No event in flight. -/
def Flight.none : Flight := ⟨[], [], [], [], [], []⟩

/-! ## The part -/

/-- The strap levels sampled at the last hard reset (R175). -/
structure Straps where
  msel : Bool
  addr : Fin 16
  deriving DecidableEq, Repr

/-- The state of the part. -/
structure State where
  /-- the commands that wait, first in first out: the model's own -/
  pending  : List Instr
  part     : PartState
  straps   : Straps
  seconds  : Nat
  restarts : Nat
  sid      : Sid
  ports    : Vector PortRec 14
  cvm      : Cvm
  idc      : Idc
  stt      : Stt
  links    : Vector Link 24
  rcn      : Rcn
  fsq      : Fsq
  ntu      : Ntu
  ctb      : Ctb
  mga      : Mga
  flight   : Flight
  /-- every frame whose transmission has ended, with its port, oldest first: the model's own (log 21) -/
  wire     : List (Port × List Byte)
  /-- how many free values have been read: the model's own (log 9) -/
  freeUse  : Nat
  deriving DecidableEq, Repr

/-- The part right after a power-on reset: STARTING, every block at its hard-reset values, the straps sampled
low and every link DOWN (R175; straps and links: log 1, log 2). -/
def State.reset : State :=
  { pending := [], part := .starting, straps := ⟨false, 0⟩, seconds := 0, restarts := 0, sid := 0xFFFFFF00
    ports := (Vector.replicate 14 (.hard .down false)).set 12 (.hard .down true)
    cvm := .powerOn, idc := .hard, stt := .hard, links := Vector.replicate 24 .hard, rcn := .hard
    fsq := .hard, ntu := .hard, ctb := .hard, mga := .hard, flight := .none, wire := [], freeUse := 0 }

end Sys2Proof.Machine
end

