-- ==== Sys2Proof/Machine/Collections.lean ====
section
/-! DEFINITION. The operations over numbered places (tables), over fixed rows of records (vectors) and over the
coverage cells of a map bank. -/

namespace Sys2Proof

/-- The record at a place, if the place is occupied. -/
def Table.get {α : Type} : Table α → Nat → Option α
  | [], _ => none
  | (j, v) :: r, k => if j = k then some v else Table.get r k

/-- The table with a record at a place, inserted or replaced. -/
def Table.put {α : Type} : Table α → Nat → α → Table α
  | [], k, v => [(k, v)]
  | (j, w) :: r, k, v =>
    if k < j then (k, v) :: (j, w) :: r
    else if k = j then (k, v) :: r
    else (j, w) :: Table.put r k v

/-- The table with a place freed. -/
def Table.erase {α : Type} (t : Table α) (k : Nat) : Table α := t.filter (fun e => decide (e.1 ≠ k))

/-- The first record, in ascending order of place, that a test admits, with its place. -/
def Table.find {α : Type} (t : Table α) (p : α → Bool) : Option (Nat × α) := t.find? (fun e => p e.2)

/-- The table with every record changed in its place. -/
def Table.mapValues {α : Type} (t : Table α) (f : α → α) : Table α := t.map (fun e => (e.1, f e.2))

/-- The lowest free place among `fuel` places from `k` on. -/
def Table.freeFrom {α : Type} (t : Table α) : Nat → Nat → Option Nat
  | 0, _ => none
  | fuel + 1, k => if (Table.get t k).isNone then some k else Table.freeFrom t fuel (k + 1)

/-- The lowest-numbered free place of a collection of `n` places (R42, R104). -/
def Table.lowestFree {α : Type} (t : Table α) (n : Nat) : Option Nat := Table.freeFrom t n 0

/-- Every place of a collection of `n` places is occupied. -/
def Table.full {α : Type} (t : Table α) (n : Nat) : Bool := (Table.lowestFree t n).isNone

/-- The form every table keeps: places strictly rising, all below `n`. -/
abbrev Table.wf {α : Type} (n : Nat) (t : Table α) : Prop :=
  t.Pairwise (fun a b => a.1 < b.1) ∧ ∀ e ∈ t, e.1 < n

/-- The row with one record replaced. -/
def vset {α : Type} {n : Nat} (v : Vector α n) (i : Fin n) (x : α) : Vector α n := v.set i.val x i.isLt

/-- The coverage cell at an address; an unlisted cell is `Cell.empty` (R17). -/
def Memory.read (t : Table Machine.Cell) (a : Nat) : Machine.Cell := (Table.get t a).getD .empty

/-- The cells of a bank with one written; a cell equal to what an unlisted one reads as is not listed. -/
def Memory.write (t : Table Machine.Cell) (a : Nat) (c : Machine.Cell) : Table Machine.Cell :=
  if c = .empty then Table.erase t a else Table.put t a c

/-- The one form of a bank's cells: addresses strictly rising and below 2,048, no entry equal to what an
unlisted address reads as. -/
abbrev Memory.wf (t : Table Machine.Cell) : Prop :=
  Table.wf 2048 t ∧ ∀ e ∈ t, e.2 ≠ Machine.Cell.empty

end Sys2Proof
end

