-- ==== Sys2Proof/Machine/Bytes.lean ====
section
/-! DEFINITION. Byte order (R177), the numbers of the names carried in bytes (R180) and the two check sequences
(R27, R110). -/

namespace Sys2Proof.Machine

/-- A number as one byte. -/
def be1 (n : Nat) : List Byte := [BitVec.ofNat 8 n]

/-- A number as two bytes, big-endian (R177). -/
def be2 (n : Nat) : List Byte := [BitVec.ofNat 8 (n / 256), BitVec.ofNat 8 n]

/-- A number as four bytes, big-endian (R177). -/
def be4 (n : Nat) : List Byte :=
  [BitVec.ofNat 8 (n / 16777216), BitVec.ofNat 8 (n / 65536), BitVec.ofNat 8 (n / 256), BitVec.ofNat 8 n]

/-- A signed number as two bytes, two's complement, big-endian (R177). -/
def signed2 (n : Int) : List Byte := be2 (n % 65536).toNat

/-- A signed number as four bytes, two's complement, big-endian (R180). -/
def signed4 (n : Int) : List Byte := be4 (n % 4294967296).toNat

/-- A SID as four bytes, upper half first (R177). -/
def sidBytes (s : Sid) : List Byte := be4 s.toNat

/-- An Ethernet address as six bytes in the order of a frame's header (R180). -/
def macBytes (m : Mac) : List Byte :=
  be2 (m.toNat / 4294967296) ++ be4 m.toNat

/-- A flag as one byte. -/
def flagByte (b : Bool) : List Byte := [if b then 1 else 0]

/-- An optional field: its presence byte, then the field at its full width, 0 when absent (R180). -/
def optBytes {α : Type} (width : Nat) (f : α → List Byte) : Option α → List Byte
  | none => 0 :: List.replicate width 0
  | some x => 1 :: f x

/-- The byte at an offset; beyond the end, 0. -/
def byteAt (bytes : List Byte) (i : Nat) : Byte := bytes.getD i 0

/-- The number in the two bytes at an offset. -/
def u16At (bytes : List Byte) (i : Nat) : Nat := (byteAt bytes i).toNat * 256 + (byteAt bytes (i + 1)).toNat

/-- The number in the four bytes at an offset. -/
def u32At (bytes : List Byte) (i : Nat) : Nat := u16At bytes i * 65536 + u16At bytes (i + 2)

/-- The signed number in the two bytes at an offset (R177). -/
def s16At (bytes : List Byte) (i : Nat) : Int :=
  let n := u16At bytes i
  if n < 32768 then (n : Int) else (n : Int) - 65536

/-- One bit of the CRC-32, least significant bit first. -/
def crc32Bit (c : BitVec 32) : BitVec 32 :=
  if c.getLsbD 0 then (c >>> 1) ^^^ 0xEDB88320#32 else c >>> 1

/-- One byte of the CRC-32. The generator 0x04C11DB7 with each byte taken least significant bit first and the
result reflected is the generator 0xEDB88320 in a register that shifts right (R27). -/
def crc32Byte (c : BitVec 32) (b : Byte) : BitVec 32 :=
  crc32Bit (crc32Bit (crc32Bit (crc32Bit (crc32Bit (crc32Bit (crc32Bit (crc32Bit
    (c ^^^ b.setWidth 32))))))))

/-- The frame check sequence of a frame's bytes (R27). -/
def crc32 (bytes : List Byte) : BitVec 32 := ~~~ (bytes.foldl crc32Byte 0xFFFFFFFF#32)

/-- The four bytes of the frame check sequence as carried, least significant first (R27). -/
def fcsBytes (bytes : List Byte) : List Byte := (be4 (crc32 bytes).toNat).reverse

/-- One bit of the CRC16, most significant bit first (R110). -/
def crc16Bit (c : BitVec 16) : BitVec 16 :=
  if c.getMsbD 0 then (c <<< 1) ^^^ 0x1021#16 else c <<< 1

/-- One byte of the CRC16 (R110). -/
def crc16Byte (c : BitVec 16) (b : Byte) : BitVec 16 :=
  crc16Bit (crc16Bit (crc16Bit (crc16Bit (crc16Bit (crc16Bit (crc16Bit (crc16Bit
    (c ^^^ (b.setWidth 16 <<< 8)))))))))

/-- The CRC16 of a reefer report's bytes (R110). -/
def crc16 (bytes : List Byte) : BitVec 16 := bytes.foldl crc16Byte 0

/-! ## Codes of names -/

/-- The port of a quay port. -/
def QPort.port (q : QPort) : Port := ⟨q.val, by omega⟩

/-- A port is a quay port (spec 0.9). -/
def Port.isQuay (p : Port) : Bool := decide (p.val < 12)

/-- The quay port of a port that is one. -/
def Port.quay (p : Port) : Option QPort := if h : p.val < 12 then some ⟨p.val, h⟩ else none

/-- The quay port of a port code that names one (R44, R63). -/
def quayOfCode (n : Nat) : Option QPort := if h : n < 12 then some ⟨n, h⟩ else none

/-- The port of a port code (R23). -/
def portOfCode (n : Nat) : Option Port := if h : n < 14 then some ⟨n, h⟩ else none

/-- The port of a trunk port: T0 is 12, T1 is 13 (R23). -/
def Trunk.port : Trunk → Port
  | .t0 => 12
  | .t1 => 13

/-- The code of a trunk port (R37). -/
def Trunk.code : Trunk → Nat
  | .t0 => 0
  | .t1 => 1

/-- The trunk port of a code 0 or 1 (R37). -/
def trunkOfCode (n : Nat) : Trunk := if n = 0 then .t0 else .t1

/-- The code of a frame kind (R177). -/
def Kind.code : Kind → Nat
  | .data => 0
  | .craneControl => 1
  | .positionReport => 2
  | .reeferReport => 3
  | .managementCommand => 4
  | .managementReply => 5
  | .notice => 6
  | .linkAdvisory => 7
  | .reeferBatch => 8

/-- The frame kind of a code 0..8 (R177); a code of 9..15 names none (R28). -/
def kindOfCode : Nat → Option Kind
  | 0 => some .data
  | 1 => some .craneControl
  | 2 => some .positionReport
  | 3 => some .reeferReport
  | 4 => some .managementCommand
  | 5 => some .managementReply
  | 6 => some .notice
  | 7 => some .linkAdvisory
  | 8 => some .reeferBatch
  | _ => none

/-- The kinds a CRANE-ONLY port carries (R22, R31, R57, R141). -/
def Kind.craneOnly : Kind → Bool
  | .craneControl | .positionReport | .managementCommand | .managementReply => true
  | .data | .reeferReport | .notice | .linkAdvisory | .reeferBatch => false

/-- The code of a class queue (R140). -/
def QClass.code : QClass → Nat
  | .c => 0
  | .u => 1
  | .b => 2
  | .d => 3

/-- The class queue of a code (R140). -/
def queueOfCode : Nat → Option QClass
  | 0 => some .c
  | 1 => some .u
  | 2 => some .b
  | 3 => some .d
  | _ => none

/-- The class queue of a domain's data queue (R36). -/
def DataQueue.queue : DataQueue → QClass
  | .d => .d
  | .b => .b

/-- The class queue of the weighted part (R145). -/
def Turn.queue : Turn → QClass
  | .b => .b
  | .d => .d

/-- The other queue of the weighted part (R145). -/
def Turn.other : Turn → Turn
  | .b => .d
  | .d => .b

/-- The code of a unit state (R178). -/
def UnitState.code : UnitState → Nat
  | .off => 0
  | .cooling => 1
  | .heating => 2
  | .defrost => 3
  | .fault => 4

/-- The unit state of a code 0..4 (R109). -/
def unitOfCode : Nat → Option UnitState
  | 0 => some .off
  | 1 => some .cooling
  | 2 => some .heating
  | 3 => some .defrost
  | 4 => some .fault
  | _ => none

/-- The code of a reefer's state (R180: in the order R103 lists them). -/
def ReeferState.code : ReeferState → Nat
  | .reporting => 0
  | .overdue => 1
  | .silent => 2

/-- The entry state of a record's state (R129). -/
def ReeferState.entry : ReeferState → EntryState
  | .reporting => .reporting
  | .overdue => .overdue
  | .silent => .silent

/-- The code of an entry state (R179). -/
def EntryState.code : EntryState → Nat
  | .reporting => 0
  | .overdue => 1
  | .silent => 2
  | .retired => 3

/-- The code of a crane link's state (R180: in the order R61 lists them). -/
def LinkState.code : LinkState → Nat
  | .unbound => 0
  | .waiting => 1
  | .live => 2
  | .late => 3
  | .lapsed => 4

/-- The code of a command status (R180). -/
def Status.code : Status → Nat
  | .ok => 0
  | .clamped => 1
  | .partialFit => 2
  | .badCode => 3
  | .badArgument => 4
  | .notFound => 5
  | .tableFull => 6
  | .conflict => 7
  | .windowInvalid => 8
  | .short => 9
  | .skipped => 10

/-- A command fails when its status is anything other than OK, CLAMPED or PARTIAL (R170). -/
def Status.fails : Status → Bool
  | .ok | .clamped | .partialFit => false
  | .badCode | .badArgument | .notFound | .tableFull | .conflict | .windowInvalid | .short | .skipped => true

/-- The number of a coverage cell's port field; none is 15 (R178). -/
def cellPortCode : Option QPort → Nat
  | none => 15
  | some q => q.val

/-- A coverage cell in its stored form (R178). -/
def cellBytes (c : Cell) : List Byte :=
  be1 (cellPortCode c.primary * 16 + cellPortCode c.secondary) ++ be1 (Encode.grade c.grade)

/-- The quay ports of a set, in ascending order. -/
def quayList (f : QuaySet) : List QPort := (List.finRange 12).filter (fun q => f.getLsbD q.val)

/-- The set that holds one quay port. -/
def quaySingle (q : QPort) : QuaySet := BitVec.ofNat 12 (2 ^ q.val)

end Sys2Proof.Machine
end

