-- ==== Sys2Proof/Machine/Frames.lean ====
section
/-! DEFINITION. Frames: how a received frame's bytes are read and how the part builds the frames it originates
(R24, R27, R177, R178). A frame's bytes run from the destination address to the last byte before the check
sequence. -/

namespace Sys2Proof.Machine

/-- The EtherType of a ZQ frame (R177). -/
def zqEtherType : Nat := 0x8A5C

/-- The bytes of an arriving frame without its check sequence. -/
def frameBody (raw : List Byte) : List Byte := raw.take (raw.length - 4)

/-- The check of the frame check sequence (R27): a frame too short to carry one fails. -/
def fcsMatches (raw : List Byte) : Bool :=
  decide (4 ≤ raw.length) && raw.drop (raw.length - 4) == fcsBytes (frameBody raw)

/-- The source address of a frame (R24). -/
def sourceMac (bytes : List Byte) : Mac := BitVec.ofNat 48 (u16At bytes 6 * 4294967296 + u32At bytes 8)

/-- The EtherType of a frame. -/
def etherTypeOf (bytes : List Byte) : Nat := u16At bytes 12

/-- The version field (R177). -/
def versionOf (bytes : List Byte) : Nat := (byteAt bytes 14).toNat / 16

/-- The kind field (R177). -/
def kindCodeOf (bytes : List Byte) : Nat := (byteAt bytes 14).toNat % 16

/-- The payload length stated in the header (R177). -/
def payloadLengthOf (bytes : List Byte) : Nat := u16At bytes 26

/-- A frame of the part's form, read (R177). -/
structure Frame where
  bytes   : List Byte
  kind    : Kind
  down    : Bool
  grade   : Nat
  cycle   : Nat
  station : Sid
  peer    : Sid
  payload : List Byte
  deriving DecidableEq, Repr

/-- The frame length (R27). -/
def Frame.length (f : Frame) : Nat := f.bytes.length

/-- The fields of a frame whose kind is known; padding is not carried as payload (R29, R177). -/
def readFrame (bytes : List Byte) (kind : Kind) : Frame :=
  { bytes := bytes, kind := kind
    down := (byteAt bytes 15).getMsbD 0
    grade := (byteAt bytes 15).toNat % 16
    cycle := (byteAt bytes 16).toNat
    station := BitVec.ofNat 32 (u32At bytes 18)
    peer := BitVec.ofNat 32 (u32At bytes 22)
    payload := (bytes.drop 28).take (payloadLengthOf bytes) }

/-- The kind of a frame of the part's form, none when it is foreign (R28). -/
def formOf (bytes : List Byte) : Option Kind :=
  if etherTypeOf bytes = zqEtherType ∧ versionOf bytes = 1 then kindOfCode (kindCodeOf bytes) else none

/-- The check of the stated payload length against the frame length (R29). -/
def payloadLengthFits (bytes : List Byte) : Bool :=
  decide (bytes.length = max 64 (28 + payloadLengthOf bytes))

/-- The bytes of an originated frame from its EtherType on (R177): version 1, grade 0, cycle 0, spare 0. -/
def originatedBytes (kind : Kind) (down : Bool) (station peer : Sid) (payload : List Byte) : List Byte :=
  be2 zqEtherType ++ be1 (16 + kind.code) ++ be1 (if down then 128 else 0) ++ be1 0 ++ be1 0 ++
    sidBytes station ++ sidBytes peer ++ be2 payload.length ++ payload

/-- A frame with its Ethernet addresses, padded to a frame length of 64 (R27, R177). -/
def withAddresses (dst src : Mac) (bytes : List Byte) : List Byte :=
  let whole := macBytes dst ++ macBytes src ++ bytes
  whole ++ List.replicate (64 - whole.length) 0

/-- The part address (R24): 02-4B-51-30-00-0a with ADDR[3:0] in the low four bits of the last byte. -/
def partAddress (addr : Fin 16) : Mac := BitVec.ofNat 48 (0x024B51300000 + addr.val)

/-- The cells a frame of this length holds (R138). -/
def cellsOf (length : Nat) : Nat := (length + 255) / 256

/-- The frame length of what is handed to the FSQ (R27, R143). -/
def Body.length : Body → Nat
  | .forwarded bytes => bytes.length
  | .originated _ bytes => max 64 (12 + bytes.length)
  | .batch bytes => max 64 (12 + bytes.length)

/-! ## The reefer report body (R109, R178) -/

/-- The readings of a report body after clamping (R111), and whether its alarm list was truncated. -/
structure Report where
  readings  : Readings
  truncated : Bool
  deriving DecidableEq, Repr

/-- A temperature after clamping to its range; −32768 is absent (R111). -/
def clampTemperature (lo hi v : Int) : Option Int :=
  if v = -32768 then none else some (max lo (min hi v))

/-- The alarm list built from the codes carried, and whether a code was ignored because the list already held
four (R111). -/
def alarmList : List Byte → List Byte → Bool → List Byte × Bool
  | [], acc, t => (acc, t)
  | c :: r, acc, t =>
    if c = 0 ∨ c = 255 ∨ c ∈ acc then alarmList r acc t
    else if acc.length < 4 then alarmList r (acc ++ [c]) t
    else alarmList r acc true

/-- The segment a report carries, after clamping (R111). -/
def clampSegment (n : Nat) : Option Nat := if n = 65535 then none else some (min n 255)

/-- The lane a report carries, after clamping (R111). -/
def clampLane (n : Nat) : Option Nat := if n < 8 then some n else none

/-- The form checks of a report body in their order, and its values after clamping; none when a check fails
(R109, R111). -/
def readReport (body : List Byte) : Option Report :=
  if body.length < 13 then none
  else
    let n := (byteAt body 12).toNat
    if body.length ≠ 15 + n then none
    else if u16At body (13 + n) ≠ (crc16 (body.take (13 + n))).toNat then none
    else match unitOfCode (byteAt body 2).toNat with
      | none => none
      | some unit =>
        let alarms := alarmList ((body.drop 13).take n) [] false
        some
          { readings :=
              { unit := unit
                segment := clampSegment (u16At body 3)
                lane := clampLane (byteAt body 5).toNat
                setpoint := clampTemperature (-400) 300 (s16At body 6)
                supply := clampTemperature (-500) 800 (s16At body 8)
                ret := clampTemperature (-500) 800 (s16At body 10)
                alarms := alarms.1
                counter := u16At body 0 }
            truncated := alarms.2 }

/-! ## Payloads the part originates (R179) -/

/-- The six bytes of a notice's detail (R179). -/
def detailBytes : Option Detail → List Byte
  | none => be1 0 ++ be1 0 ++ be4 0
  | some (.link l) => be1 1 ++ be1 l.val ++ be4 0
  | some (.foreign l p) => be1 2 ++ be1 l.val ++ sidBytes p
  | some (.reverted l q) => be1 3 ++ be1 l.val ++ be4 q.val
  | some (.sid x) => be1 4 ++ be1 0 ++ sidBytes x
  | some (.sweep .aging) => be1 5 ++ be1 0 ++ be4 0
  | some (.sweep .reefer) => be1 5 ++ be1 1 ++ be4 0
  | some (.bank one) => be1 6 ++ be1 (if one then 1 else 0) ++ be4 0
  | some (.port p .link) => be1 7 ++ be1 p.val ++ be4 0
  | some (.port p .serviceMode) => be1 7 ++ be1 p.val ++ be4 1
  | some (.command p x) => be1 8 ++ be1 p.val ++ sidBytes x
  | some (.counter p c) => be1 9 ++ be1 p.val ++ be4 c.val

/-- A temperature as carried, −32768 when absent (R179). -/
def temperatureBytes : Option Int → List Byte
  | none => signed2 (-32768)
  | some v => signed2 v

/-- A batch entry, 21 bytes (R179). -/
def batchEntryBytes (e : BatchEntry) : List Byte :=
  sidBytes e.sid ++ be1 (e.state.code * 16 + e.unit.code) ++ temperatureBytes e.setpoint ++
    temperatureBytes e.supply ++ temperatureBytes e.ret ++
    (e.alarms ++ List.replicate (4 - e.alarms.length) 0).take 4 ++ be1 e.missed ++ be2 e.since ++
    be2 (e.segment.getD 65535) ++ be1 (e.lane.getD 255)

/-- A reefer batch payload (R134, R179). -/
def batchPayload (entries : List BatchEntry) : List Byte :=
  be1 entries.length ++ entries.flatMap batchEntryBytes

/-- The advisory states (R80), with their codes (R179). -/
inductive AdvisoryState where
  | late | lapsed | restored
  deriving DecidableEq, Repr

/-- The code of an advisory state (R179). -/
def AdvisoryState.code : AdvisoryState → Nat
  | .late => 1
  | .lapsed => 2
  | .restored => 3

/-- A link advisory payload (R80, R179). -/
def advisoryPayload (sid : Sid) (l : LinkNo) (a : AdvisoryState) : List Byte :=
  sidBytes sid ++ be1 l.val ++ be1 a.code

end Sys2Proof.Machine
end

