-- ==== Sys2Proof/Machine/Ops.lean ====
section
/-! DEFINITION. The operations the blocks share: records and their updates, counters, notices, the hand-over of a
frame to the FSQ, policers, classification and the reads of the coverage map. -/

namespace Sys2Proof.Machine

/-! ## Names of counters, drop reasons and notice sources -/

/-- The numbers of the per-port counters (R164). -/
abbrev Ctr.rxFrames : Fin 12 := 0
abbrev Ctr.rxBytes : Fin 12 := 1
abbrev Ctr.txFrames : Fin 12 := 2
abbrev Ctr.txBytes : Fin 12 := 3
abbrev Ctr.rxCheckErrors : Fin 12 := 4
abbrev Ctr.rxForeign : Fin 12 := 5
abbrev Ctr.rxPolicer : Fin 12 := 6
abbrev Ctr.rxServiceMode : Fin 12 := 7
abbrev Ctr.rxManagement : Fin 12 := 8
abbrev Ctr.txQueueFull : Fin 12 := 9
abbrev Ctr.txPortDown : Fin 12 := 10
abbrev Ctr.txAborted : Fin 12 := 11

/-- The numbers of the drop reasons (R165). -/
abbrev Drop.frameCheck : Fin 20 := 0
abbrev Drop.foreign : Fin 20 := 1
abbrev Drop.wrongDirection : Fin 20 := 2
abbrev Drop.unclassified : Fin 20 := 3
abbrev Drop.domainDisabled : Fin 20 := 4
abbrev Drop.directionViolation : Fin 20 := 5
abbrev Drop.serviceMode : Fin 20 := 6
abbrev Drop.policer : Fin 20 := 7
abbrev Drop.queueFull : Fin 20 := 8
abbrev Drop.portDown : Fin 20 := 9
abbrev Drop.learnFail : Fin 20 := 10
abbrev Drop.craneDuplicate : Fin 20 := 11
abbrev Drop.craneStale : Fin 20 := 12
abbrev Drop.craneForeign : Fin 20 := 13
abbrev Drop.lapsedDiscard : Fin 20 := 14
abbrev Drop.reeferCheck : Fin 20 := 15
abbrev Drop.reeferDuplicateStale : Fin 20 := 16
abbrev Drop.alarmRate : Fin 20 := 17
abbrev Drop.managementRefused : Fin 20 := 18
abbrev Drop.restartDiscard : Fin 20 := 19

/-- The numbers of the notice sources (spec 9.2). -/
abbrev Src.craneLate : SourceNo := 0
abbrev Src.craneLapse : SourceNo := 1
abbrev Src.craneRestored : SourceNo := 2
abbrev Src.craneForeign : SourceNo := 3
abbrev Src.handoverReverted : SourceNo := 4
abbrev Src.craneUncovered : SourceNo := 5
abbrev Src.stationFull : SourceNo := 6
abbrev Src.unclassified : SourceNo := 7
abbrev Src.reeferAlarm : SourceNo := 8
abbrev Src.reeferOverdue : SourceNo := 9
abbrev Src.reeferSilent : SourceNo := 10
abbrev Src.reeferFull : SourceNo := 11
abbrev Src.batchOverflow : SourceNo := 12
abbrev Src.sweepOverrun : SourceNo := 13
abbrev Src.mapCommitted : SourceNo := 14
abbrev Src.mapInvalid : SourceNo := 15
abbrev Src.portDown : SourceNo := 16
abbrev Src.portUp : SourceNo := 17
abbrev Src.mgmtForeign : SourceNo := 18
abbrev Src.mgmtOverflow : SourceNo := 19
abbrev Src.poolLow : SourceNo := 20
abbrev Src.alarmRate : SourceNo := 21
abbrev Src.counterWrap : SourceNo := 22
abbrev Src.directionViolation : SourceNo := 23

/-- The level sources (spec 9.2); every other source is an edge source. -/
def isLevelSource (k : SourceNo) : Bool :=
  k == Src.craneUncovered || k == Src.stationFull || k == Src.reeferFull || k == Src.batchOverflow ||
    k == Src.mapInvalid || k == Src.poolLow

/-! ## Records and their updates -/

/-- The record of a port. -/
def State.port (s : State) (p : Port) : PortRec := s.ports.get p

/-- The part with the record of a port replaced. -/
def State.setPort (s : State) (p : Port) (r : PortRec) : State := { s with ports := vset s.ports p r }

/-- The record of a crane link. -/
def State.link (s : State) (l : LinkNo) : Link := s.links.get l

/-- The part with the record of a crane link replaced. -/
def State.setLink (s : State) (l : LinkNo) (r : Link) : State := { s with links := vset s.links l r }

/-- The part with another coverage map. -/
def State.setCvm (s : State) (c : Cvm) : State := { s with cvm := c }

/-- The part with other identity records. -/
def State.setIdc (s : State) (c : Idc) : State := { s with idc := c }

/-- The part with another station table. -/
def State.setStt (s : State) (t : Stt) : State := { s with stt := t }

/-- The part with another reefer consolidator. -/
def State.setRcn (s : State) (r : Rcn) : State := { s with rcn := r }

/-- The part with another frame store. -/
def State.setFsq (s : State) (f : Fsq) : State := { s with fsq := f }

/-- The part with another notice unit. -/
def State.setNtu (s : State) (n : Ntu) : State := { s with ntu := n }

/-- The part with other counters. -/
def State.setCtb (s : State) (c : Ctb) : State := { s with ctb := c }

/-- The part with another management agent. -/
def State.setMga (s : State) (m : Mga) : State := { s with mga := m }

/-- The part with other events in flight. -/
def State.setFlight (s : State) (f : Flight) : State := { s with flight := f }

/-- A bucket (R149). -/
def State.bucket (s : State) (b : BucketNo) : Bucket := s.fsq.buckets.get b

/-- The part with a bucket replaced. -/
def State.setBucket (s : State) (b : BucketNo) (x : Bucket) : State :=
  s.setFsq { s.fsq with buckets := vset s.fsq.buckets b x }

/-- The queues of a port. -/
def State.queues (s : State) (p : Port) : PortQueues := s.fsq.ports.get p

/-- The part with the queues of a port replaced. -/
def State.setQueues (s : State) (p : Port) (q : PortQueues) : State :=
  s.setFsq { s.fsq with ports := vset s.fsq.ports p q }

/-- The record of a notice source. -/
def State.source (s : State) (k : SourceNo) : Source := s.ntu.sources.get k

/-- The part with the record of a notice source replaced. -/
def State.setSource (s : State) (k : SourceNo) (x : Source) : State :=
  s.setNtu { s.ntu with sources := vset s.ntu.sources k x }

/-- A per-port counter (R164). -/
def State.counter (s : State) (p : Port) (c : Fin 12) : Counter := (s.ctb.ports.get p).get c

/-- The part with a per-port counter replaced. -/
def State.setCounter (s : State) (p : Port) (c : Fin 12) (x : Counter) : State :=
  s.setCtb { s.ctb with ports := vset s.ctb.ports p (vset (s.ctb.ports.get p) c x) }

/-- A domain record (R36). -/
def State.domain (s : State) (d : Fin 8) : Domain := s.idc.domains.get d

/-- A port is usable while its link state is UP and its service mode is not DISABLED (R21). -/
def State.usable (s : State) (p : Port) : Bool :=
  (s.port p).link == .up && (s.port p).mode != .disabled

/-- A quay port that a cell or a record may name is usable; none never is (R86). -/
def State.quayUsable (s : State) : Option QPort → Bool
  | none => false
  | some q => s.usable (QPort.port q)

/-! ## Counts -/

/-- A 32-bit count that stops at its maximum (R51, R82, R107, R139, R156, R165). -/
def countUp (a n : Nat) : Nat := min Config.max32 (a + n)

/-- A drop-reason counter increases (R165). -/
def addDrop (r : Fin 20) (n : Nat) (s : State) : State :=
  s.setCtb { s.ctb with drops := vset s.ctb.drops r (countUp (s.ctb.drops.get r) n) }

/-! ## Events at the notice unit and per-port counters -/

/-- A source's status: pending set and mask unmasked (R156). -/
def Source.status (x : Source) : Bool := x.pending && !x.masked

/-- The record of an edge source after an event with a detail (R157). -/
def Source.event (x : Source) (d : Detail) : Source :=
  if x.pending then { x with count := min 255 (x.count + 1) }
  else { x with pending := true, detail := some d, count := 1 }

/-- The pending set of a notice frame: bit k is set when source k is pending (R160, R179). -/
def pendingSet (s : State) : Nat :=
  (List.finRange 24).foldl (fun n k => if (s.source k).pending then n + 2 ^ k.val else n) 0

/-- The payload of a notice frame for a source (R160, R179). -/
def noticePayload (k : SourceNo) (s : State) : List Byte :=
  be2 (s.ntu.dest.codeBase * 256 + k.val) ++ be1 (s.source k).level ++ be1 (s.source k).count ++
    detailBytes (s.source k).detail ++ be1 0 ++ be1 (pendingSet s / 65536) ++ be2 (pendingSet s)

/-- A frame is handed to the FSQ: the enqueue is in flight until the FSQ takes it (R141). -/
def handOff (r : EnqueueRequest) (s : State) : State :=
  s.setFlight { s.flight with enqueues := s.flight.enqueues ++ [r] }

/-- A notice frame is built for a source and handed onward, or lost (R159, R160); `bump` counts at a port. -/
def issueWith (bump : Port → Fin 12 → Nat → State → State) (k : SourceNo) (s : State) : State :=
  match s.ntu.dest.sid with
  | none => s
  | some d =>
    if s.usable s.ntu.dest.trunk.port then
      handOff
        { queues := [(s.ntu.dest.trunk.port, .u)], kind := .notice
          body := .originated .notice (originatedBytes .notice false s.sid d (noticePayload k s)) } s
    else
      bump s.ntu.dest.trunk.port Ctr.txPortDown 1
        (addDrop Drop.portDown 1 (s.setNtu { s.ntu with lost := countUp s.ntu.lost 1 }))

/-- A per-port counter increases modulo 2³²; past its maximum its wrap flag is set and COUNTER-WRAP takes the
event (R164). Also whether the status of COUNTER-WRAP became set, so that a notice frame is due. -/
def countPort (p : Port) (c : Fin 12) (n : Nat) (s : State) : State × Bool :=
  let x := s.counter p c
  if x.value + n ≤ Config.max32 then (s.setCounter p c { x with value := x.value + n }, false)
  else
    let s1 := s.setCounter p c { value := (x.value + n) % (Config.max32 + 1), wrapped := true }
    let y := s1.source Src.counterWrap
    (s1.setSource Src.counterWrap (y.event (.counter p c)), !y.pending && !y.masked)

/-- A per-port counter increases; a COUNTER-WRAP notice that is due is issued, at most `fuel` deep. The frame
may itself be lost at a port that is not usable, which counts at that port (R160); COUNTER-WRAP is then pending,
so no second frame is due, and a `fuel` of 2 is never used up (log 24). -/
def bumpFuel : Nat → Port → Fin 12 → Nat → State → State
  | 0, p, c, n, s => (countPort p c n s).1
  | fuel + 1, p, c, n, s =>
    if (countPort p c n s).2 then issueWith (bumpFuel fuel) Src.counterWrap (countPort p c n s).1
    else (countPort p c n s).1

/-- A per-port counter increases (R164). -/
def bump (p : Port) (c : Fin 12) (n : Nat) (s : State) : State := bumpFuel 2 p c n s

/-- A notice frame is issued for a source (R159). -/
def issue (k : SourceNo) (s : State) : State := issueWith bump k s

/-- An event at an edge source (R157); a status that becomes set issues a frame (R159). -/
def raise (k : SourceNo) (d : Detail) (s : State) : State :=
  let x := s.source k
  let s1 := s.setSource k (x.event d)
  if !x.pending && !x.masked then issue k s1 else s1

/-- The owner of a level source presents its condition (R158). -/
def present (k : SourceNo) (condition : Bool) (s : State) : State :=
  let x := s.source k
  if condition && !x.pending then
    let x1 := { x with pending := true, count := min 255 (x.count + 1) }
    if x.masked then s.setSource k x1
    else issue k (s.setSource k { x1 with holdoff := some s.ntu.dest.holdoff })
  else if !condition && x.pending then s.setSource k { x with pending := false, holdoff := none }
  else s

/-- A frame is dropped as port down at a port: the drop reason and the port's tx port-down discards each
increase by 1 (R58, R69, R78, R81, R141, R172). -/
def portDownDrop (p : Port) (s : State) : State := bump p Ctr.txPortDown 1 (addDrop Drop.portDown 1 s)

/-! ## Policers (R149 to R152) -/

/-- The largest credit of a bucket, in sixteenths (R151). -/
def Bucket.cmax (x : Bucket) : Int := (x.burst : Int) * 16

/-- The refill of a rate code per interval, in sixteenths (R150). -/
def refillOf (rate : Nat) : Int := if rate ≤ 200 then (rate : Int) * 100 else ((rate : Int) - 200) * 2

/-- The cost of a frame at a bucket, with the overhead of the port it is charged for (R151). -/
def costOf (x : Bucket) (length overhead : Nat) : Int :=
  ((length : Int) + (if x.overhead then (overhead : Int) else 0)) * 16

/-- The bucket of a quay port's ingress policer for a kind group 0..3 (R149). -/
def ingressBucket (q : QPort) (group : Fin 4) : BucketNo := ⟨q.val * 4 + group.val, by omega⟩

/-- The bucket of a crane link's downlink policer (R149). -/
def linkBucket (l : LinkNo) : BucketNo := ⟨48 + l.val, by omega⟩

/-- The bucket of a domain's flood policer (R149). -/
def floodBucket (d : Fin 8) : BucketNo := ⟨72 + d.val, by omega⟩

/-- The bucket of the reefer alarm policer (R149). -/
def alarmBucket : BucketNo := 80

/-- The bucket of the shaper of a port's class queue (R149). -/
def shaperBucket (p : Port) (q : QClass) : BucketNo :=
  ⟨81 + p.val * 4 + q.code, by cases q <;> simp [QClass.code] <;> omega⟩

/-- A frame is offered to a policer (R152): whether it conforms, and the part after the offer. -/
def offer (b : BucketNo) (length : Nat) (p : Port) (s : State) : Bool × State :=
  let x := s.bucket b
  let cost := costOf x length (s.port p).overhead
  if x.rate = 0 then (true, s)
  else if cost ≤ x.credit then (true, s.setBucket b { x with credit := x.credit - cost })
  else if x.cmax < cost then (false, s.setFsq { s.fsq with overBurst := countUp s.fsq.overBurst 1 })
  else (false, s)

/-! ## Classification (R33) -/

/-- A value matches a base where the mask is 0 (R33). -/
def halfMatches (x base mask : Half) : Bool := (x ^^^ base) &&& ~~~ mask == 0

/-- The class of a SID: the first it matches, in the order 0.0, 0.1, to 3.3 (R33). -/
def classify (i : Idc) (sid : Sid) : Option IdClass :=
  ((List.finRange 16).find? (fun k =>
    let g := i.groups.get ⟨k.val / 4, by omega⟩
    let c := i.classes.get k
    g.valid && halfMatches (sid.extractLsb' 16 16) g.base g.mask &&
      c.valid && halfMatches (sid.extractLsb' 0 16) c.base c.mask)).map i.classes.get

/-- The bound link whose crane SID this is (R40). -/
def boundLink (s : State) (sid : Sid) : Option LinkNo :=
  (List.finRange 24).find? (fun l => (s.link l).state != .unbound && (s.link l).config.sid == sid)

/-! ## Reads of the coverage map (R15) -/

/-- The active bank (R1). -/
def Cvm.active (c : Cvm) : Bank := if c.activeIsOne then c.bank1 else c.bank0

/-- The shadow bank (R1). -/
def Cvm.shadow (c : Cvm) : Bank := if c.activeIsOne then c.bank0 else c.bank1

/-- The map with another shadow bank (R1). -/
def Cvm.setShadow (c : Cvm) (b : Bank) : Cvm :=
  if c.activeIsOne then { c with bank0 := b } else { c with bank1 := b }

/-- The address of a coverage cell. -/
def cellAddress (segment lane : Nat) : Nat := segment * 8 + lane

/-- The coverage cell of a bank (R15). -/
def Bank.cell (b : Bank) (segment lane : Nat) : Cell := Memory.read b.cells (cellAddress segment lane)

/-- The bank with a coverage cell written. -/
def Bank.writeCell (b : Bank) (segment lane : Nat) (c : Cell) : Bank :=
  { b with cells := Memory.write b.cells (cellAddress segment lane) c }

/-- The overlay count of a segment (R16). -/
def Cvm.overlayAt (c : Cvm) (segment : Nat) : Nat := if h : segment < 256 then c.overlay[segment] else 0

/-! ## The seconds counter -/

/-- The seconds since a report (R118, R129): the seconds counter less the stamp, stopped at 65535; a stamp above
the counter has no stated result (free value, log 10). -/
def secondsSince (s : State) (stamp : Nat) : Nat :=
  if stamp ≤ s.seconds then min 65535 (s.seconds - stamp)
  else Config.sinceWrapped s.seconds stamp % 65536

/-! ## Announcements (R21) -/

/-- A port that stopped being usable announces link down, and PORT-DOWN is raised (R21). -/
def announceDown (p : Port) (cause : Cause) (s : State) : State :=
  raise Src.portDown (.port p cause)
    (s.setFlight { s.flight with
      stationDowns := s.flight.stationDowns ++ [p]
      queueDowns := s.flight.queueDowns ++ [p]
      linkEvents := s.flight.linkEvents ++
        ((List.finRange 24).filter (fun l => (s.link l).state != .unbound)).map (fun l => ⟨false, l, p⟩) })

/-- A port that became usable announces link up, and PORT-UP is raised (R21). No block but the CLS acts on it. -/
def announceUp (p : Port) (cause : Cause) (s : State) : State :=
  raise Src.portUp (.port p cause)
    (s.setFlight { s.flight with
      linkEvents := s.flight.linkEvents ++
        ((List.finRange 24).filter (fun l => (s.link l).state != .unbound)).map (fun l => ⟨true, l, p⟩) })

end Sys2Proof.Machine
end

