-- ==== Sys2Proof/Machine/Flags.lean ====
section
/-! DEFINITION. The conditions that the owners of the six level sources present (spec 9.2), and the candidates of
a crane link from which CRANE-UNCOVERED is worked out. -/

namespace Sys2Proof.Machine

/-- STATION-FULL: the dynamic collection holds 2,048 records (R49). -/
def stationFull (s : State) : Bool := Table.full s.stt.dynamics Config.dynamicPlaces

/-- REEFER-FULL: the reefer table holds 4,096 records (R104). -/
def reeferFull (s : State) : Bool := Table.full s.rcn.reefers Config.reeferPlaces

/-- The buffer that is FILLING (R128). -/
def Rcn.filling (r : Rcn) : Buffer := if r.bufferA.state = .filling then r.bufferA else r.bufferB

/-- The buffer that is not FILLING (R128). -/
def Rcn.other (r : Rcn) : Buffer := if r.bufferA.state = .filling then r.bufferB else r.bufferA

/-- BATCH-OVERFLOW: the FILLING buffer holds 48 entries and the other buffer is SENDING (R133). -/
def batchOverflow (s : State) : Bool :=
  decide (Config.batchEntries ≤ s.rcn.filling.entries.length) && s.rcn.other.state == .sending

/-- POOL-LOW: the free cells are below the reserve (R139). -/
def poolLow (s : State) : Bool := decide (s.fsq.free < s.fsq.reserve)

/-- MAP-INVALID: the active valid flag is clear (R14). -/
def mapInvalid (s : State) : Bool := !s.cvm.valid

/-- The two candidates of a link (R86): the ports of its cell of lane 0 while the map is in use and its segment
is known, its home port otherwise. -/
def candidates (s : State) (l : Link) : Option QPort × Option QPort :=
  match s.cvm.valid, l.segment with
  | true, some g => ((s.cvm.active.cell g 0).primary, (s.cvm.active.cell g 0).secondary)
  | _, _ => (some l.config.home, none)

/-- A bound link in WAITING, LIVE or LATE whose primary port, or each of whose candidates, is not usable
(R100). -/
def linkUncovered (s : State) (l : Link) : Bool :=
  (l.state == .waiting || l.state == .live || l.state == .late) &&
    (!s.usable (QPort.port l.primary) ||
      (!s.quayUsable (candidates s l).1 && !s.quayUsable (candidates s l).2))

/-- CRANE-UNCOVERED: at least one link is uncovered (R100). -/
def craneUncovered (s : State) : Bool := (List.finRange 24).any (fun l => linkUncovered s (s.link l))

/-- The STT presents STATION-FULL (R49). -/
def presentStationFull (s : State) : State := present Src.stationFull (stationFull s) s

/-- The RCN presents REEFER-FULL (R104). -/
def presentReeferFull (s : State) : State := present Src.reeferFull (reeferFull s) s

/-- The RCN presents BATCH-OVERFLOW (R133). -/
def presentBatchOverflow (s : State) : State := present Src.batchOverflow (batchOverflow s) s

/-- The FSQ presents POOL-LOW (R139). -/
def presentPoolLow (s : State) : State := present Src.poolLow (poolLow s) s

/-- The CVM presents MAP-INVALID (R14). -/
def presentMapInvalid (s : State) : State := present Src.mapInvalid (mapInvalid s) s

/-- The CLS presents CRANE-UNCOVERED (R100). -/
def presentUncovered (s : State) : State := present Src.craneUncovered (craneUncovered s) s

/-- Every owner of a level source presents its condition as it stands (R174, R175). The spec gives no order among the
owners: the model takes them in ascending order of source number (log 46). -/
def presentAll (s : State) : State :=
  presentPoolLow (presentMapInvalid (presentBatchOverflow (presentReeferFull (presentStationFull
    (presentUncovered s)))))

end Sys2Proof.Machine
end

