-- ==== Sys2Proof/Machine/Operands.lean ====
section
/-! DEFINITION. How the arguments of management commands are brought into range, and what a command that is taken
gives back to the agent: its status and its result (R170, R171, R180). -/

namespace Sys2Proof.Machine

/-- What a command that was taken gives: its status, its result, and the part after it. -/
structure Taken where
  status : Status
  result : List Byte
  state  : State
  deriving DecidableEq, Repr

/-- A command is refused: no result, nothing changed (R170). -/
def refuse (st : Status) (s : State) : Taken := { status := st, result := [], state := s }

/-- A command is taken; CLAMPED when a value was brought into its range (R170). -/
def taken (clamped : Bool) (result : List Byte) (s : State) : Taken :=
  { status := if clamped then .clamped else .ok, result := result, state := s }

/-- A value brought into a range. -/
def clampTo (lo hi n : Nat) : Nat := max lo (min hi n)

/-- An argument that a marked value keeps: the present value when `n` is the mark, else `n` in its range. -/
def keepOr (mark lo hi present n : Nat) : Nat := if n = mark then present else clampTo lo hi n

/-- Whether an argument is clamped: it is not the mark and lies outside its range. -/
def clampsUnless (mark lo hi n : Nat) : Bool := n != mark && clampTo lo hi n != n

/-- A flag byte where the rule gives no other treatment: 0 is clear and any other value is set (R180). -/
def flagSet (n : Nat) : Bool := n != 0

/-- A presented port number 0..15 as stored (R2): 0..11 a port, others none. -/
def storedPort (n : Fin 16) : Option QPort := if h : n.val < 12 then some ⟨n.val, h⟩ else none

/-- A presented coverage cell value as stored (R2). -/
def storedCell (v : CellValue) : Cell :=
  let p := storedPort v.primary
  let q := storedPort v.secondary
  { primary := p, secondary := if p.isSome && p == q then none else q, grade := v.grade }

/-- Whether a presented coverage cell value is clamped (R2). -/
def cellClamped (v : CellValue) : Bool :=
  (v.primary.val == 12 || v.primary.val == 13 || v.primary.val == 14) ||
    (v.secondary.val == 12 || v.secondary.val == 13 || v.secondary.val == 14) ||
    ((storedPort v.primary).isSome && storedPort v.primary == storedPort v.secondary)

/-- How many of the items fit whole, in order, in the room (R171). -/
def fitCount : Nat → List (List Byte) → Nat
  | _, [] => 0
  | room, x :: r => if x.length ≤ room then fitCount (room - x.length) r + 1 else 0

/-- The next cell of a window, and whether the advance was a wrap (R4). -/
def Window.advance (w : Window) (pos : Nat × Nat) : (Nat × Nat) × Bool :=
  let first := if w.direction = .ascending then w.segStart else w.segEnd
  let last := if w.direction = .ascending then w.segEnd else w.segStart
  let next := if w.direction = .ascending then pos.1 + 1 else pos.1 - 1
  match w.order with
  | .laneFirst =>
    if pos.2 < w.laneEnd then ((pos.1, pos.2 + 1), false)
    else if pos.1 ≠ last then ((next, w.laneStart), false)
    else ((first, w.laneStart), true)
  | .segmentFirst =>
    if pos.1 ≠ last then ((next, pos.2), false)
    else if pos.2 < w.laneEnd then ((first, pos.2 + 1), false)
    else ((first, w.laneStart), true)

/-- The first cell of a window (R4). -/
def Window.firstCell (w : Window) : Nat × Nat :=
  (if w.direction = .ascending then w.segStart else w.segEnd, w.laneStart)

/-- Where a command that uses a cursor begins (R7): the first cell when its continue flag is clear or the cursor
is fresh, the cursor's position otherwise. -/
def startingCell (w : Window) (cont : Nat) (c : Cursor) : Nat × Nat :=
  match c with
  | none => w.firstCell
  | some pos => if flagSet cont then pos else w.firstCell

/-! ## Results (R180) -/

/-- The geometry as a result carries it. -/
def geometryBytes (g : Geometry) : List Byte := be2 g.origin ++ be2 g.length ++ be2 g.hysteresis

/-- The window as a result carries it (R5). -/
def windowBytes (w : Window) : List Byte :=
  be2 w.segStart ++ be2 w.segEnd ++ be1 w.laneStart ++ be1 w.laneEnd ++
    be1 (if w.order = .laneFirst then 0 else 1) ++ be1 (if w.direction = .ascending then 0 else 1)

/-- The port record as a result carries it (R23). -/
def portBytes (r : PortRec) : List Byte :=
  be1 (if r.link = .down then 0 else 1) ++
    be1 (match r.mode with | .full => 0 | .craneOnly => 1 | .disabled => 2) ++
    flagByte r.permitted ++ be1 r.overhead ++ macBytes r.neighbour

/-- The identity group as a result carries it (R35). -/
def groupBytes (g : Group) : List Byte := Encode.half g.base ++ Encode.half g.mask ++ flagByte g.valid

/-- The options byte (R35). -/
def optionsCode (o : Options) : Nat :=
  (if o.uplinkOnly then 1 else 0) + (if o.reefer then 2 else 0) + (if o.crane then 4 else 0)

/-- The identity class as a result carries it (R35). -/
def classBytes (c : IdClass) : List Byte :=
  Encode.half c.base ++ Encode.half c.mask ++ flagByte c.valid ++ be1 c.domain.val ++ be1 (optionsCode c.options)

/-- The domain record as a result carries it (R37): its trunk port as its trunk code 0 or 1 (log 41). -/
def domainBytes (d : Domain) : List Byte :=
  flagByte d.enabled ++ be1 d.trunk.code ++ be2 d.flood.toNat ++ be1 (if d.queue = .d then 0 else 1)

/-- A bucket's credit as a result carries it, signed (R180). -/
def creditBytes (x : Bucket) : List Byte := signed4 x.credit

/-- A static or crane-bound record: kind, place, and its port, or its link and that link's primary port (R46). The
kind is 0 for STATIC and 1 for CRANE-BOUND (log 18). -/
def staticBytes (s : State) (k : Nat) (r : StaticRec) : List Byte :=
  match r.binding with
  | .static p => be1 0 ++ be2 k ++ be1 p.val
  | .crane l => be1 1 ++ be2 k ++ be1 l.val ++ be1 (s.link l).primary.val

/-- A dynamic record: kind, place, port, grade, age (R46). The kind is 2 (log 18). -/
def dynamicBytes (k : Nat) (r : DynRec) : List Byte :=
  be1 2 ++ be2 k ++ be1 r.port.val ++ be1 r.grade ++ be1 r.age

/-- The eight STT statistics (R51). -/
def SttStats.bytes (x : SttStats) : List Byte :=
  be4 x.inserts ++ be4 x.moves ++ be4 x.competing ++ be4 x.agingRemovals ++ be4 x.purgeRemovals ++
    be4 x.agingOverruns ++ be4 x.located ++ be4 x.floods

/-- A link's configuration with its policer's rate code, burst and flag (R61, R63). -/
def linkConfigBytes (c : LinkConfig) (b : Bucket) : List Byte :=
  sidBytes c.sid ++ optBytes 4 sidBytes c.peer ++ be1 c.home.val ++ be2 c.period ++ be1 c.late ++
    be1 c.lapse ++ be1 c.hold ++ be1 b.rate ++ be2 b.burst ++ flagByte b.overhead

/-- The eleven link counts (R82). -/
def LinkCounts.bytes (x : LinkCounts) : List Byte :=
  be4 x.late ++ be4 x.lapses ++ be4 x.duplicates ++ be4 x.stale ++ be4 x.foreign ++ be4 x.lapsedDiscard ++
    be4 x.completed ++ be4 x.reverted ++ be4 x.redirected ++ be4 x.abandoned ++ be4 x.failovers

/-- The settings of the consolidator (R106). -/
def RcnSettings.bytes (x : RcnSettings) : List Byte :=
  be1 x.threshold ++ be1 x.allowance ++ be1 x.silentMargin ++ be2 x.reportPeriod ++ be1 x.batchPeriod ++
    flagByte x.retire ++ be1 x.domain.val

/-- The sixteen RCN statistics (R107). -/
def RcnStats.bytes (x : RcnStats) : List Byte :=
  be4 x.accepted ++ be4 x.inserts ++ be4 x.passThroughs ++ be4 x.checkFailures ++ be4 x.duplicates ++
    be4 x.stale ++ be4 x.restarts ++ be4 x.truncations ++ be4 x.alarmsForwarded ++ be4 x.alarmHolds ++
    be4 x.forgets ++ be4 x.retirements ++ be4 x.batchOverflows ++ be4 x.batchesSent ++
    be4 x.batchesDiscarded ++ be4 x.sweepOverruns

/-- A batch place, with the entry index when IN-FILLING (R118, R120). The place is 0, 1 or 2 in the order of R103 (log
18). -/
def BatchPlace.bytes : BatchPlace → List Byte
  | .none => be1 0
  | .inFilling i => be1 1 ++ be1 i
  | .unsent => be1 2

/-- A notice source's record (R162): its mode 0 for edge and 1 for level, and its detail in the form of a notice frame
(log 18); its event count takes one byte (log 48). The holdoff timer is in no result (log 50). -/
def sourceBytes (k : SourceNo) (x : Source) : List Byte :=
  flagByte (isLevelSource k) ++ flagByte x.masked ++ be1 x.level ++ flagByte x.pending ++ flagByte x.status ++
    be1 x.count ++ detailBytes x.detail

/-- The notice destination as a result carries it (R162): its trunk port as its trunk code 0 or 1 (log 41), its code base
in one byte (log 42). -/
def destBytes (d : NoticeDest) : List Byte :=
  optBytes 4 sidBytes d.sid ++ be1 d.trunk.code ++ be1 d.codeBase ++ be1 d.holdoff

/-- A list in a result: its item count, then the items (R180). -/
def listBytes (items : List (List Byte)) : List Byte := be2 items.length ++ items.flatten

end Sys2Proof.Machine
end

