-- ==== Sys2Proof/Machine/Batches.lean ====
section
/-! DEFINITION. The batch buffers of the Reefer Consolidator (spec 7.3, 7.4): the append, the swap, and the end
of a batch frame. -/

namespace Sys2Proof.Machine

/-- The consolidator with another FILLING buffer. -/
def Rcn.setFilling (r : Rcn) (b : Buffer) : Rcn :=
  if r.bufferA.state = .filling then { r with bufferA := b } else { r with bufferB := b }

/-- The consolidator with another buffer in place of the one that is not FILLING. -/
def Rcn.setOther (r : Rcn) (b : Buffer) : Rcn :=
  if r.bufferA.state = .filling then { r with bufferB := b } else { r with bufferA := b }

/-- The place and the record of a SID in the reefer table (R104). -/
def findReefer (s : State) (sid : Sid) : Option (Nat × Reefer) :=
  Table.find s.rcn.reefers (fun r => r.sid == sid)

/-- The part with a reefer record written at a place. -/
def State.setReefer (s : State) (k : Nat) (r : Reefer) : State :=
  s.setRcn { s.rcn with reefers := Table.put s.rcn.reefers k r }

/-- The part with RCN statistics changed. -/
def State.rcnStats (s : State) (f : RcnStats → RcnStats) : State := s.setRcn { s.rcn with stats := f s.rcn.stats }

/-- The entry of a record, with an entry state (R129). -/
def batchEntry (s : State) (r : Reefer) (st : EntryState) : BatchEntry :=
  { sid := r.sid, state := st, unit := r.readings.unit, setpoint := r.readings.setpoint
    supply := r.readings.supply, ret := r.readings.ret, alarms := r.readings.alarms, missed := r.missed
    since := secondsSince s r.stamp, segment := r.readings.segment, lane := r.readings.lane }

/-- The trunk port of batch frames: that of the batch domain, enabled or not (R106, R134). -/
def batchTrunk (s : State) : Port := (s.domain s.rcn.settings.domain).trunk.port

/-- The entries of the SENDING buffer (R128). -/
def Rcn.sendingEntries (r : Rcn) : List BatchEntry :=
  if r.bufferA.state = .sending then r.bufferA.entries
  else if r.bufferB.state = .sending then r.bufferB.entries
  else []

/-- The consolidator with its SENDING buffer IDLE and its entries dropped (R135, R136). -/
def Rcn.idleSending (r : Rcn) : Rcn :=
  if r.bufferA.state = .sending then { r with bufferA := ⟨.idle, []⟩ }
  else if r.bufferB.state = .sending then { r with bufferB := ⟨.idle, []⟩ }
  else r

/-- A record of a lost batch is marked UNSENT when its place is NONE (R136). -/
def markUnsent (entries : List BatchEntry) (r : Reefer) : Reefer :=
  if r.place = .none ∧ entries.any (fun e => e.sid == r.sid) then { r with place := .unsent } else r

/-- The SENDING buffer is ended as discarded, but for a swap that waits on it (R136 steps 1 to 3). -/
def discardSending (s : State) : State :=
  let r := s.rcn
  s.setRcn
    { r.idleSending with
      reefers := Table.mapValues r.reefers (markUnsent r.sendingEntries)
      stats := { r.stats with batchesDiscarded := countUp r.stats.batchesDiscarded 1 } }

/-- A record whose batch place is IN-FILLING takes the place NONE at a swap (R132). -/
def leaveFilling (r : Reefer) : Reefer :=
  match r.place with
  | .inFilling _ => { r with place := .none }
  | .none | .unsent => r

/-- The consolidator after steps 1 to 4 of a swap (R132). -/
def Rcn.swapped (r : Rcn) : Rcn :=
  { r with
    bufferA := if r.bufferA.state = .filling then ⟨.sending, r.bufferA.entries⟩ else ⟨.filling, []⟩
    bufferB := if r.bufferA.state = .filling then ⟨.filling, []⟩ else ⟨.sending, r.bufferB.entries⟩
    reefers := Table.mapValues r.reefers leaveFilling
    batchTimer := none
    sendDue := false }

/-- A swap is carried out (R132) and its batch frame is handed to the FSQ, or, at a trunk port that is not usable,
dropped and its buffer ended as discarded (R134). The swap has cleared send due, so no swap waits on that end.
BATCH-OVERFLOW is presented before that drop is counted (log 44). -/
def carryOutSwap (s : State) : State :=
  let s1 := presentBatchOverflow (s.setRcn s.rcn.swapped)
  if s1.usable (batchTrunk s1) then
    handOff
      { queues := [(batchTrunk s1, .b)], kind := .reeferBatch
        body := .batch (originatedBytes .reeferBatch false s1.sid 0 (batchPayload s.rcn.filling.entries)) } s1
  else discardSending (portDownDrop (batchTrunk s1) s1)

/-- A swap becomes due (R132): it is carried out when the other buffer is IDLE, and waits when it is SENDING. -/
def swapDue (s : State) : State :=
  if s.rcn.other.state = .idle then carryOutSwap s else s.setRcn { s.rcn with sendDue := true }

/-- The swap that waits on the SENDING buffer, when send due is set (R135, R136). -/
def waitingSwap (s : State) : State :=
  if s.rcn.sendDue then carryOutSwap s else presentBatchOverflow s

/-- The event batch frame transmitted (R135). -/
def batchTransmitted (s : State) : State :=
  let r := s.rcn
  waitingSwap (s.setRcn
    { r.idleSending with stats := { r.stats with batchesSent := countUp r.stats.batchesSent 1 } })

/-- The event batch frame discarded (R136). -/
def batchDiscarded (s : State) : State := waitingSwap (discardSending s)

/-- Whether the append for a record can write its entry (R130). -/
def canAppend (s : State) (r : Reefer) : Bool :=
  match r.place with
  | .inFilling _ => true
  | .none | .unsent => decide (s.rcn.filling.entries.length < Config.batchEntries)

/-- The batch append for the record at a place, with an entry state (R130). -/
def batchAppend (k : Nat) (st : EntryState) (s : State) : State :=
  match Table.get s.rcn.reefers k with
  | none => s
  | some r =>
    let f := s.rcn.filling
    match r.place with
    | .inFilling i => s.setRcn (s.rcn.setFilling { f with entries := f.entries.set i (batchEntry s r st) })
    | .none | .unsent =>
      if f.entries.length < Config.batchEntries then
        let n := f.entries.length
        let s1 := s.setRcn (s.rcn.setFilling { f with entries := f.entries ++ [batchEntry s r st] })
        let s2 := s1.setReefer k { r with place := .inFilling n }
        let s3 := if n = 0 then s2.setRcn { s2.rcn with batchTimer := some s2.rcn.settings.batchPeriod } else s2
        presentBatchOverflow (if n + 1 = Config.batchEntries then swapDue s3 else s3)
      else
        (s.setReefer k { r with place := .unsent }).rcnStats
          (fun x => { x with batchOverflows := countUp x.batchOverflows 1 })

end Sys2Proof.Machine
end

