-- ==== Sys2Proof/Machine/Reefers.lean ====
section
/-! DEFINITION. Reefer reports (chapter 6), the supervision sweep (spec 7.1, 7.2) and the batch timer, with the
meanings of their events. -/

namespace Sys2Proof.Machine

/-- What a meaning answers. -/
abbrev Outcome := Host.Outcome State Fault Refusal

/-! ## Taking a report (spec 6.3) -/

/-- Two alarm lists hold the same set of codes (R116). -/
def sameCodes (x y : List Byte) : Bool := x.all (fun c => y.contains c) && y.all (fun c => x.contains c)

/-- Supply air changed significantly (R116). -/
def supplyChanged (threshold : Nat) (old new : Option Int) : Bool :=
  match old, new with
  | some a, some b => decide ((threshold : Int) ≤ |b - a|)
  | none, none => false
  | none, some _ | some _, none => true

/-- An accepted report is a significant change against the record as it stood before it (R116). -/
def significant (threshold : Nat) (old : Reefer) (new : Readings) : Bool :=
  old.state != .reporting || old.readings.unit != new.unit || old.readings.setpoint != new.setpoint ||
    supplyChanged threshold old.readings.supply new.supply || !sameCodes old.readings.alarms new.alarms

/-- The alarm codes of a report that are not in the record's list (R115). -/
def newAlarms (old new : List Byte) : List Byte := new.filter (fun c => !old.contains c)

/-- A frame is handed, as it arrived, to the FSQ for a queue of a trunk port, or dropped as port down (R69, R113,
R117). -/
def forwardTo (p : Port) (q : QClass) (f : Frame) (s : State) : State :=
  if s.usable p then handOff { queues := [(p, q)], kind := f.kind, body := .forwarded f.bytes } s
  else portDownDrop p s

/-- The alarm path of a report with a new alarm code (R117). A report held back is counted under the drop reason alarm
rate (R117) and not under policer, also where its cost exceeds Cmax and R152 names policer (log 38). REEFER-ALARM is
raised before the report is forwarded or counted as port down: R117 gives no order (log 44). -/
def alarmPath (f : Frame) (arrival : Port) (trunk : Port) (s : State) : State :=
  let o := offer alarmBucket f.length arrival s
  if o.1 then
    forwardTo trunk .u f (raise Src.reeferAlarm (.sid f.station)
      (o.2.rcnStats (fun x => { x with alarmsForwarded := countUp x.alarmsForwarded 1 })))
  else
    raise Src.alarmRate (.sid f.station)
      (addDrop Drop.alarmRate 1 (o.2.rcnStats (fun x => { x with alarmHolds := countUp x.alarmHolds 1 })))

/-- The record after an accepted report (R115). -/
def Reefer.updated (r : Reefer) (new : Readings) (seconds : Nat) : Reefer :=
  { r with readings := new, state := .reporting, missed := 0, heard := true, stamp := seconds }

/-- An accepted report at the record of a place (R115): its effects in order, given whether the change is
significant and which alarm codes are new. -/
def acceptReport (k : Nat) (r : Reefer) (new : Readings) (isSignificant : Bool) (fresh : List Byte) (f : Frame)
    (arrival trunk : Port) (s : State) : State :=
  let s1 := (s.setReefer k (r.updated new s.seconds)).rcnStats
    (fun x => { x with accepted := countUp x.accepted 1 })
  let s2 := if fresh = [] then s1 else alarmPath f arrival trunk s1
  if isSignificant then batchAppend k .reporting s2 else s2

/-- The judgement of a report's counter (R114). -/
inductive Judgement where
  | accepted | restarted | duplicate | stale
  deriving DecidableEq, Repr

/-- A report's counter against an existing record (R114). -/
def judge (r : Reefer) (counter : Nat) : Judgement :=
  if r.state ≠ .reporting then .accepted
  else if counter = 0 ∧ r.readings.counter ≠ 0 then .restarted
  else
    let d := (counter + 65536 - r.readings.counter) % 65536
    if d = 0 then .duplicate else if d ≤ 32767 then .accepted else .stale

/-- The batch place of a new record: the index of an entry with its SID in the FILLING buffer, if one stands
there (R112). -/
def placeForNew (s : State) (sid : Sid) : BatchPlace :=
  match s.rcn.filling.entries.findIdx? (fun e => e.sid == sid) with
  | none => .none
  | some i => .inFilling i

/-- The record that an unknown SID's report inserts, before the effects of acceptance (R112). -/
def newReefer (s : State) (sid : Sid) (new : Readings) : Reefer :=
  { sid := sid, state := .reporting, readings := new, missed := 0, heard := true, stamp := s.seconds
    place := placeForNew s sid }

/-- A reefer report is taken by the RCN (R108), from the quay port `arrival`, with the trunk port of its domain.
At a full table pass-throughs rises also where that port is not usable and the report is dropped (log 51). -/
def takeReport (f : Frame) (arrival trunk : Port) (s : State) : State :=
  match readReport f.payload with
  | none =>
    addDrop Drop.reeferCheck 1 (s.rcnStats (fun x => { x with checkFailures := countUp x.checkFailures 1 }))
  | some rep =>
    let s := if rep.truncated then s.rcnStats (fun x => { x with truncations := countUp x.truncations 1 }) else s
    match findReefer s f.station with
    | none =>
      match Table.lowestFree s.rcn.reefers Config.reeferPlaces with
      | none =>
        forwardTo trunk .d f (s.rcnStats (fun x => { x with passThroughs := countUp x.passThroughs 1 }))
      | some k =>
        let r := newReefer s f.station rep.readings
        let s1 := presentReeferFull ((s.setReefer k r).rcnStats
          (fun x => { x with inserts := countUp x.inserts 1 }))
        acceptReport k r rep.readings true rep.readings.alarms f arrival trunk s1
    | some (k, r) =>
      match judge r rep.readings.counter with
      | .duplicate =>
        addDrop Drop.reeferDuplicateStale 1
          (s.rcnStats (fun x => { x with duplicates := countUp x.duplicates 1 }))
      | .stale =>
        addDrop Drop.reeferDuplicateStale 1 (s.rcnStats (fun x => { x with stale := countUp x.stale 1 }))
      | .accepted =>
        acceptReport k r rep.readings (significant s.rcn.settings.threshold r rep.readings)
          (newAlarms r.readings.alarms rep.readings.alarms) f arrival trunk s
      | .restarted =>
        acceptReport k r rep.readings (significant s.rcn.settings.threshold r rep.readings)
          (newAlarms r.readings.alarms rep.readings.alarms) f arrival trunk
          (s.rcnStats (fun x => { x with restarts := countUp x.restarts 1 }))

/-! ## The supervision sweep (spec 7.1, 7.2) -/

/-- The grade term of an allowance (R125). -/
def gradeTerm : Grade → Nat
  | .clear => 0
  | .shadowed => 1
  | .marginal => 2
  | .dead => 4

/-- The allowance of a record (R125). -/
def allowance (s : State) (r : Readings) : Nat :=
  match s.cvm.valid, r.segment, r.lane with
  | true, some g, some l =>
    let c := s.cvm.active.cell g l
    min 15 (s.rcn.settings.allowance + gradeTerm c.grade +
      (if 0 < s.cvm.overlayAt g then 2 else 0) +
      (match c.primary with
        | some q => if (s.port (QPort.port q)).link = .down then 4 else 0
        | none => 0))
  | _, _, _ => s.rcn.settings.allowance

/-- The silent threshold of a record (R125). -/
def silentThreshold (s : State) (r : Readings) : Nat := min 15 (allowance s r + s.rcn.settings.silentMargin)

/-- The record at a place is removed and its place freed (R120, R126). -/
def removeReefer (k : Nat) (s : State) : State :=
  presentReeferFull (s.setRcn { s.rcn with reefers := Table.erase s.rcn.reefers k })

/-- The catch-up of a visit: an UNSENT record is appended (R127). -/
def catchUp (k : Nat) (r : Reefer) (s : State) : State :=
  if r.place = .unsent then batchAppend k r.state.entry s else s

/-- A retirement: a RETIRED entry is written and the record removed, or held back when the entry cannot be
written (R126). -/
def retireReefer (k : Nat) (r : Reefer) (s : State) : State :=
  if canAppend s r then
    (removeReefer k (batchAppend k .retired s)).rcnStats
      (fun x => { x with retirements := countUp x.retirements 1 })
  else batchAppend k .retired s

/-- The visit of the sweep to a place that holds a record (R123, R124, R127). -/
def visitReefer (k : Nat) (r : Reefer) (s : State) : State :=
  if r.heard then
    catchUp k { r with heard := false } (s.setReefer k { r with heard := false })
  else
    let m := min 15 (r.missed + 1)
    let s1 := s.setReefer k { r with missed := m }
    if r.state = .silent ∧ r.missed = 15 ∧ s.rcn.settings.retire = true then
      retireReefer k { r with missed := m } s1
    else if silentThreshold s r.readings ≤ m ∧ r.state ≠ .silent then
      batchAppend k .silent (raise Src.reeferSilent (.sid r.sid)
        (s.setReefer k { r with missed := m, state := .silent }))
    else if allowance s r.readings < m ∧ r.state = .reporting then
      batchAppend k .overdue (raise Src.reeferOverdue (.sid r.sid)
        (s.setReefer k { r with missed := m, state := .overdue }))
    else catchUp k { r with missed := m } s1

/-- The sweep after its visit to a place: the next place, or its end, at which a remembered expiry begins a new
sweep at place 0 (R121, R122). -/
def advanceReeferSweep (k : Nat) (s : State) : State :=
  if k + 1 < Config.reeferPlaces then s.setRcn { s.rcn with sweep := some (k + 1) }
  else if s.rcn.remembered then s.setRcn { s.rcn with sweep := some 0, remembered := false }
  else s.setRcn { s.rcn with sweep := none }

/-! ## Meanings -/

/-- REPORT_PERIOD_EXPIRY (R121). The timer restarts; a sweep begins, or the expiry is remembered, or it is an
overrun. Where the timer does not run, no expiry takes place. -/
def execReportPeriodExpiry (s : State) : Outcome :=
  .next <|
    match s.rcn.periodTimer with
    | none => s
    | some _ =>
      let s1 := s.setRcn { s.rcn with periodTimer := some s.rcn.settings.reportPeriod }
      if s.rcn.sweep = none then s1.setRcn { s1.rcn with sweep := some 0 }
      else if s.rcn.remembered = false then s1.setRcn { s1.rcn with remembered := true }
      else raise Src.sweepOverrun (.sweep .reefer)
        (s1.rcnStats (fun x => { x with sweepOverruns := countUp x.sweepOverruns 1 }))

/-- SUPERVISION_SWEEP_VISIT (R122 to R127). The sweep in progress visits its next place. -/
def execSupervisionSweepVisit (s : State) : Outcome :=
  .next <|
    match s.rcn.sweep with
    | none => s
    | some k =>
      advanceReeferSweep k
        (match Table.get s.rcn.reefers k with
          | none => s
          | some r => visitReefer k r s)

/-- BATCH_TIMER_EXPIRY (R131). The timer does not restart; with an entry in the FILLING buffer a swap becomes
due, unless one is due already. -/
def execBatchTimerExpiry (s : State) : Outcome :=
  .next <|
    match s.rcn.batchTimer with
    | none => s
    | some _ =>
      let s1 := s.setRcn { s.rcn with batchTimer := none }
      if s.rcn.filling.entries = [] ∨ s.rcn.sendDue = true then s1 else swapDue s1

end Sys2Proof.Machine
end

