-- ==== Sys2Proof/Machine/Cranes.lean ====
section
/-! DEFINITION. The Crane Link Supervisor (chapters 4 and 5): advisories, the cell check and the handover, uplink
and downlink control, position reports, and the meanings of the events at a link. -/

namespace Sys2Proof.Machine

/-- The part with the counts of a link changed (R82, R101). -/
def State.linkCounts (s : State) (l : LinkNo) (f : LinkCounts → LinkCounts) : State :=
  s.setLink l { s.link l with counts := f (s.link l).counts }

/-- A span event is issued to the CVM (R16). -/
def sendSpan (e : SpanEvent) (s : State) : State := s.setFlight { s.flight with spans := s.flight.spans ++ [e] }

/-- A span event for a segment, when it is known. -/
def sendSpanFor (mk : Nat → SpanEvent) : Option Nat → State → State
  | none, s => s
  | some g, s => sendSpan (mk g) s

/-- A link is LIVE or LATE: its span is counted in the overlay (R16). -/
def LinkState.spans : LinkState → Bool
  | .live | .late => true
  | .unbound | .waiting | .lapsed => false

/-! ## Link advisories (spec 4.6) -/

/-- The trunk port of an advisory (R81): that of the domain of the crane SID's class, enabled or not, T0 when it
has none. -/
def advisoryTrunk (s : State) (sid : Sid) : Port :=
  match classify s.idc sid with
  | some c => (s.domain c.domain).trunk.port
  | none => Trunk.port .t0

/-- A link advisory is built and handed to the FSQ, or dropped as port down (R80, R81). -/
def sendAdvisory (l : LinkNo) (a : AdvisoryState) (s : State) : State :=
  let c := (s.link l).config
  let p := advisoryTrunk s c.sid
  if s.usable p then
    handOff
      { queues := [(p, .u)], kind := .linkAdvisory
        body := .originated .advisory
          (originatedBytes .linkAdvisory false c.sid (c.peer.getD 0) (advisoryPayload c.sid l a)) } s
  else portDownDrop p s

/-! ## The cell check (spec 5.2) and the handover (spec 5.3) -/

/-- A handover completes: the primary port becomes the new port and the context is removed (R86, R92, R96). -/
def Link.complete (x : Link) (h : Handover) : Link :=
  { x with primary := h.new, context := none, counts := { x.counts with completed := countUp x.counts.completed 1 } }

/-- A handover is abandoned: the context is removed (R86, R96). -/
def Link.abandon (x : Link) : Link :=
  { x with context := none, counts := { x.counts with abandoned := countUp x.counts.abandoned 1 } }

/-- A handover context is settled against the ports as they are (R86). -/
def settleContext (s : State) (x : Link) : Link :=
  match x.context with
  | none => x
  | some h =>
    if !s.usable (QPort.port h.old) then x.complete h
    else if !s.usable (QPort.port h.new) then x.abandon
    else x

/-- The port a link is on, or is moving to (R87). -/
def Link.standing (x : Link) : QPort :=
  match x.context with
  | some h => h.new
  | none => x.primary

/-- The target of a cell check (R87 steps 2 and 3): the first usable candidate, but none where the bar of the
reverted target applies. -/
def chooseTarget (s : State) (x : Link) : Option QPort :=
  let c := candidates s x
  let t := if s.quayUsable c.1 then c.1 else if s.quayUsable c.2 then c.2 else none
  if s.usable (QPort.port x.primary) && t == x.reverted then none else t

/-- The priming copy of the repeat slot, for a handover's new port (R90). -/
def primingCopy (new : QPort) (x : Link) (s : State) : State :=
  match x.slot with
  | none => s
  | some bytes =>
    handOff { queues := [(QPort.port new, .c)], kind := .craneControl, body := .forwarded bytes } s

/-- The period of a hold timer that starts now (R91). -/
def Link.holdPeriod (x : Link) : Nat := x.config.hold * x.config.period

/-- The action of a cell check that reached a target (R88, R94). -/
def actOnTarget (l : LinkNo) (x : Link) (target : QPort) (s : State) : State :=
  match x.context with
  | some h =>
    if target = h.old then s.setLink l { x with context := none }
    else
      primingCopy target x (s.setLink l
        { x with context := some { old := h.old, new := target, timer := x.holdPeriod }
                 counts := { x.counts with redirected := countUp x.counts.redirected 1 } })
  | none =>
    match x.state with
    | .waiting | .lapsed => s.setLink l { x with primary := target }
    | .live | .late =>
      if s.usable (QPort.port x.primary) then
        primingCopy target x (s.setLink l
          { x with context := some { old := x.primary, new := target, timer := x.holdPeriod } })
      else
        s.setLink l
          { x with primary := target
                   counts := { x.counts with failovers := countUp x.counts.failovers 1 } }
    | .unbound => s

/-- The cell check at a bound link (R86, R87). -/
def cellCheck (l : LinkNo) (s : State) : State :=
  let x := settleContext s (s.link l)
  let s1 := s.setLink l x
  let c := candidates s1 x
  if (c.1 == some x.standing || c.2 == some x.standing) && s1.usable (QPort.port x.standing) then s1
  else
    match chooseTarget s1 x with
    | none => s1
    | some t => actOnTarget l x t s1

/-! ## Uplink control and the cycle filter (spec 4.3) -/

/-- What the cycle filter makes of an uplink control frame (R68). -/
inductive CycleJudgement where
  | accepted | duplicate | stale
  deriving DecidableEq, Repr

/-- The judgement of a cycle at a link (R68). -/
def judgeCycle (x : Link) (cycle : Nat) : CycleJudgement :=
  match x.state, x.cycle with
  | .live, some last | .late, some last =>
    let d := (cycle + 256 - last) % 256
    if d = 0 then .duplicate else if d ≤ 127 then .accepted else .stale
  | _, _ => .accepted

/-- The link after an accepted frame that arrived on a port (R69, R70, R92). -/
def Link.accepted (x : Link) (cycle : Nat) (arrival : QPort) : Link :=
  let y : Link := { x with cycle := some cycle, missed := 0, timer := some x.config.period, state := .live }
  match x.context with
  | some h => if h.new = arrival then y.complete h else y
  | none => y

/-- Acceptance restores a LATE or LAPSED link: its advisory and CRANE-RESTORED (R70). The advisory comes first, as R70
names it first (log 45). -/
def restoreNotice (l : LinkNo) (before : LinkState) (s : State) : State :=
  match before with
  | .late | .lapsed => raise Src.craneRestored (.link l) (sendAdvisory l .restored s)
  | .unbound | .waiting | .live => s

/-- The span that acceptance adds: on entry into LIVE from WAITING or LAPSED, when the segment is known (R70). -/
def acceptSpan (before : LinkState) (segment : Option Nat) (s : State) : State :=
  match before with
  | .waiting | .lapsed => sendSpanFor .add segment s
  | .unbound | .live | .late => s

/-- An uplink control frame is accepted at a link and forwarded to the C queue of its domain's trunk port (R69).
CRANE-UNCOVERED is worked out again when the state or the primary port has changed (R100). No rule orders these
effects: the model forwards, or counts as port down, last (log 44). -/
def acceptControl (l : LinkNo) (f : Frame) (arrival : QPort) (trunk : Port) (s : State) : State :=
  let x := s.link l
  let y := x.accepted f.cycle arrival
  let s1 := acceptSpan x.state x.segment (restoreNotice l x.state (s.setLink l y))
  let s2 := if x.state ≠ .live ∨ y.context ≠ x.context then presentUncovered s1 else s1
  forwardTo trunk .c f s2

/-- An uplink control frame of a bound link's crane SID (R68, R71). -/
def uplinkControl (l : LinkNo) (f : Frame) (arrival : QPort) (trunk : Port) (s : State) : State :=
  match judgeCycle (s.link l) f.cycle with
  | .accepted => acceptControl l f arrival trunk s
  | .duplicate =>
    addDrop Drop.craneDuplicate 1 (s.linkCounts l (fun c => { c with duplicates := countUp c.duplicates 1 }))
  | .stale => addDrop Drop.craneStale 1 (s.linkCounts l (fun c => { c with stale := countUp c.stale 1 }))

/-! ## Downlink acceptance (spec 4.5) -/

/-- The quay ports a downlink control frame is delivered to (R78). -/
def Link.deliveryPorts (x : Link) : List QPort :=
  match x.context with
  | none => [x.primary]
  | some h => if h.new = x.primary then [x.primary] else [x.primary, h.new]

/-- A downlink control frame is delivered to the C queues of its usable ports; each other port counts it as port down
(R78). The primary port comes before the new port (log 45). -/
def deliverControl (x : Link) (f : Frame) (s : State) : State :=
  let good := x.deliveryPorts.filter (fun q => s.usable (QPort.port q))
  let bad := x.deliveryPorts.filter (fun q => !s.usable (QPort.port q))
  let s1 := bad.foldl (fun t q => portDownDrop (QPort.port q) t) s
  if good = [] then s1
  else handOff { queues := good.map (fun q => (QPort.port q, .c)), kind := f.kind, body := .forwarded f.bytes } s1

/-- The repeat slot after a frame that passed the checks (R79). -/
def Link.refilled (x : Link) (f : Frame) : Link :=
  if f.payload.length ≤ 256 then { x with slot := some f.bytes } else x

/-- A downlink control frame of a bound link's crane SID, from a trunk port (R75, R79, R78). -/
def downlinkControl (l : LinkNo) (f : Frame) (arrival : Port) (s : State) : State :=
  let x := s.link l
  if x.state = .lapsed then
    addDrop Drop.lapsedDiscard 1 (s.linkCounts l (fun c => { c with lapsedDiscard := countUp c.lapsedDiscard 1 }))
  else if x.config.peer.isSome && x.config.peer != some f.peer then
    raise Src.craneForeign (.foreign l f.peer)
      (addDrop Drop.craneForeign 1 (s.linkCounts l (fun c => { c with foreign := countUp c.foreign 1 })))
  else
    let o := offer (linkBucket l) f.length arrival s
    if o.1 then deliverControl (x.refilled f) f (o.2.setLink l (x.refilled f))
    else bump arrival Ctr.rxPolicer 1 (addDrop Drop.policer 1 o.2)

/-! ## Position reports (spec 5.1) -/

/-- The raw segment of a position under a geometry (R84 steps 1 and 2). -/
def rawSegment (g : Geometry) (position : Nat) : Nat := min 255 ((position - g.origin) / g.length)

/-- The segment of a position with hysteresis against the current segment (R84). -/
def segmentOf (g : Geometry) (current : Option Nat) (position : Nat) : Nat :=
  match current with
  | none => rawSegment g position
  | some c =>
    let rel := position - g.origin
    if (c ≠ 255 ∧ (c + 1) * g.length + g.hysteresis ≤ rel) ∨ rel + g.hysteresis < c * g.length then
      rawSegment g position
    else c

/-- The span events of a change of segment at a LIVE or LATE link (R85, R98). -/
def moveSpan (x : Link) (new : Nat) (s : State) : State :=
  if x.state.spans then sendSpan (.add new) (sendSpanFor .remove x.segment s) else s

/-- A position report of a bound link's crane SID, from a quay port (R83, R85). A report dropped for its length presents
no CRANE-UNCOVERED: it changes nothing at the link (log 49). -/
def positionReport (l : LinkNo) (f : Frame) (arrival : Port) (s : State) : State :=
  if f.payload.length < 2 then bump arrival Ctr.rxCheckErrors 1 (addDrop Drop.frameCheck 1 s)
  else
    let x := s.link l
    let pos := u16At f.payload 0
    let g := segmentOf s.cvm.active.geometry x.segment pos
    if x.segment = some g then presentUncovered (s.setLink l { x with position := some pos })
    else
      presentUncovered (cellCheck l (moveSpan x g
        (s.setLink l { x with position := some pos, segment := some g, reverted := none })))

/-! ## Supervision (spec 4.4) -/

/-- A link enters LAPSED at a supervision expiry (R74), with the missed count it reached. The advisory comes before
CRANE-LAPSE (log 45). -/
def lapse (l : LinkNo) (s : State) : State :=
  let x := s.link l
  let s1 := s.setLink l
    { x with state := .lapsed, timer := none, context := none
             counts := { x.counts with lapses := countUp x.counts.lapses 1 } }
  raise Src.craneLapse (.link l) (sendAdvisory l .lapsed (sendSpanFor .remove x.segment s1))

/-- The work of a supervision expiry at a link whose timer runs (R73). The advisory precedes CRANE-LATE (log 45).
CRANE-UNCOVERED is worked out again at a change of state alone (R100), after the notice of the change (log 44). -/
def superviseLink (l : LinkNo) (s : State) : State :=
  let x := s.link l
  let m := x.missed + 1
  let s1 := s.setLink l { x with missed := m }
  if x.config.lapse ≤ m then presentUncovered (lapse l s1)
  else if x.state = .live ∧ x.config.late ≤ m then
    presentUncovered (raise Src.craneLate (.link l) (sendAdvisory l .late (s.setLink l
      { x with missed := m, state := .late, timer := some x.config.period
               counts := { x.counts with late := countUp x.counts.late 1 } })))
  else s.setLink l { x with missed := m, timer := some x.config.period }

/-! ## Events in flight to a link -/

/-- The part without the first event in flight to a link, when that event is the one given (log 6): events at
one link are taken in the order they were announced. An announcement stays in flight while its link is unbound and
bound again, and the new binding takes it (log 37). -/
def takeLinkEvent (e : LinkEvent) (s : State) : Option State :=
  if s.flight.linkEvents.find? (fun x => x.link == e.link) = some e then
    some (s.setFlight { s.flight with linkEvents := s.flight.linkEvents.erase e })
  else none

/-- The work of a link-down announcement at a bound link (R96). -/
def linkDownAt (l : LinkNo) (p : Port) (s : State) : State :=
  let x := s.link l
  if x.state = .unbound then s
  else
    match x.context with
    | some h =>
      if QPort.port h.old = p then s.setLink l (x.complete h)
      else if QPort.port h.new = p then cellCheck l (s.setLink l x.abandon)
      else s
    | none => if QPort.port x.primary = p then cellCheck l s else s

/-- The work of a link-up announcement at a bound link (R97); a trunk port's acts on no link. -/
def linkUpAt (l : LinkNo) (p : Port) (s : State) : State :=
  if (s.link l).state = .unbound ∨ Port.isQuay p = false then s else cellCheck l s

/-- The re-evaluation of a bound link that holds a last position, on "map swapped" (R98). -/
def reevaluate (l : LinkNo) (s : State) : State :=
  let x := s.link l
  match x.state, x.position with
  | .unbound, _ => s
  | _, none => s
  | _, some pos =>
    let g := rawSegment s.cvm.active.geometry pos
    let s1 := if x.segment = some g then s else moveSpan x g s
    presentUncovered (cellCheck l (s1.setLink l { s1.link l with segment := some g, reverted := none }))

/-! ## Meanings -/

/-- CLS_LINK_DOWN (R96). A bound link takes a port's link down; CRANE-UNCOVERED is worked out again (R100). -/
def execClsLinkDown (l : LinkNo) (p : Port) (s : State) : Outcome :=
  .next <|
    match takeLinkEvent ⟨false, l, p⟩ s with
    | none => s
    | some s1 => presentUncovered (linkDownAt l p s1)

/-- CLS_LINK_UP (R97). A bound link takes a quay port's link up and runs the cell check. -/
def execClsLinkUp (l : LinkNo) (p : Port) (s : State) : Outcome :=
  .next <|
    match takeLinkEvent ⟨true, l, p⟩ s with
    | none => s
    | some s1 => presentUncovered (linkUpAt l p s1)

/-- MAP_SWAPPED_REEVALUATION (R98), where a re-evaluation of the link is due. One that was due before the link was
unbound and bound again is taken by the new binding (log 37). -/
def execMapSwappedReevaluation (l : LinkNo) (s : State) : Outcome :=
  .next <|
    if l ∈ s.flight.reevaluations then
      reevaluate l (s.setFlight { s.flight with reevaluations := s.flight.reevaluations.erase l })
    else s

/-- SUPERVISION_EXPIRY (R73, R74), where the link's supervision timer runs. -/
def execSupervisionExpiry (l : LinkNo) (s : State) : Outcome :=
  .next <|
    match (s.link l).timer with
    | none => s
    | some _ => superviseLink l s

/-- HOLD_EXPIRY (R93), where the link holds a handover context. HANDOVER-REVERTED is raised and then CRANE-UNCOVERED
presented (log 44). -/
def execHoldExpiry (l : LinkNo) (s : State) : Outcome :=
  .next <|
    match (s.link l).context with
    | none => s
    | some h =>
      let x := s.link l
      presentUncovered (raise Src.handoverReverted (.reverted l h.new) (s.setLink l
        { x with context := none, reverted := some h.new
                 counts := { x.counts with reverted := countUp x.counts.reverted 1 } }))

end Sys2Proof.Machine
end

