-- ==== Sys2Proof/Machine/Stations.lean ====
section
/-! DEFINITION. The Station Table (chapter 3): records, learning, the aging sweep, the port purge and downlink
steering, with the meanings of its events. -/

namespace Sys2Proof.Machine

/-- The place and the record of a SID in the static collection (R42). -/
def findStatic (s : State) (sid : Sid) : Option (Nat × StaticRec) :=
  Table.find s.stt.statics (fun r => r.sid == sid)

/-- The place and the record of a SID in the dynamic collection (R42). -/
def findDynamic (s : State) (sid : Sid) : Option (Nat × DynRec) :=
  Table.find s.stt.dynamics (fun r => r.sid == sid)

/-- The part with STT statistics changed (R51). -/
def State.sttStats (s : State) (f : SttStats → SttStats) : State := s.setStt { s.stt with stats := f s.stt.stats }

/-- A dynamic record is written at a place, and STATION-FULL presented (R49). -/
def putDynamic (k : Nat) (r : DynRec) (s : State) : State :=
  presentStationFull (s.setStt { s.stt with dynamics := Table.put s.stt.dynamics k r })

/-- A dynamic record is removed and its place freed, and STATION-FULL presented (R49). -/
def removeDynamic (k : Nat) (s : State) : State :=
  presentStationFull (s.setStt { s.stt with dynamics := Table.erase s.stt.dynamics k })

/-- Any dynamic record for a SID is removed (R44, R47). -/
def removeDynamicOf (sid : Sid) (s : State) : State :=
  match findDynamic s sid with
  | none => s
  | some (k, _) => removeDynamic k s

/-! ## Bind and unbind (R47) -/

/-- The answer of the STT to a bind (R47). -/
inductive BindAnswer where
  | bound (s : State)
  | otherLink
  | full
  deriving DecidableEq, Repr

/-- The request bind of a SID to a link (R47). -/
def bindStation (sid : Sid) (l : LinkNo) (s : State) : BindAnswer :=
  match findStatic s sid with
  | some (k, r) =>
    match r.binding with
    | .crane m =>
      if m = l then
        .bound (removeDynamicOf sid s)
      else .otherLink
    | .static _ =>
      .bound (removeDynamicOf sid
        (s.setStt { s.stt with statics := Table.put s.stt.statics k { sid := sid, binding := .crane l } }))
  | none =>
    match Table.lowestFree s.stt.statics Config.staticPlaces with
    | none => .full
    | some k =>
      .bound (removeDynamicOf sid
        (s.setStt { s.stt with statics := Table.put s.stt.statics k { sid := sid, binding := .crane l } }))

/-- The request unbind of a SID: its crane-bound record, if one exists, is removed (R47). -/
def unbindStation (sid : Sid) (s : State) : State :=
  match findStatic s sid with
  | some (k, { binding := .crane _, .. }) =>
    s.setStt { s.stt with statics := Table.erase s.stt.statics k }
  | some (_, { binding := .static _, .. }) => s
  | none => s

/-! ## Learning (spec 3.3) -/

/-- What learning makes of a frame at an existing dynamic record (R50). -/
inductive Learnt where
  | refreshed | moved | competing
  deriving DecidableEq, Repr

/-- The case of R50 that a frame on a port with a grade falls under. -/
def learnCase (margin : Nat) (r : DynRec) (port : QPort) (grade : Nat) : Learnt :=
  if port = r.port then .refreshed
  else if r.grade + margin ≤ grade then .moved
  else if r.age ≤ 1 then .moved
  else .competing

/-- A frame is offered to learning (R48, R49, R50). -/
def learn (sid : Sid) (port : QPort) (grade : Nat) (s : State) : State :=
  match findStatic s sid with
  | some _ => s
  | none =>
    match findDynamic s sid with
    | none =>
      match Table.lowestFree s.stt.dynamics Config.dynamicPlaces with
      | none => addDrop Drop.learnFail 1 s
      | some k =>
        putDynamic k { sid := sid, port := port, grade := grade, age := 3 }
          (s.sttStats (fun x => { x with inserts := countUp x.inserts 1 }))
    | some (k, r) =>
      match learnCase s.stt.margin r port grade with
      | .refreshed => putDynamic k { r with grade := grade, age := 3 } s
      | .moved =>
        putDynamic k { r with port := port, grade := grade, age := 3 }
          (s.sttStats (fun x => { x with moves := countUp x.moves 1 }))
      | .competing => s.sttStats (fun x => { x with competing := countUp x.competing 1 })

/-! ## Downlink steering (spec 3.6) -/

/-- A steered frame is delivered to a set of quay ports (R57): CRANE-ONLY ports that do not carry its kind are
removed and counted, and what remains is handed to the FSQ for the domain's data queue. -/
def deliverSteered (f : Frame) (d : Domain) (ports : List QPort) (s : State) : State :=
  let removed := fun q => (s.port (QPort.port q)).mode == .craneOnly && !f.kind.craneOnly
  let kept := ports.filter (fun q => !removed q)
  let s1 := addDrop Drop.serviceMode (ports.filter removed).length s
  if kept = [] then s1
  else
    handOff { queues := kept.map (fun q => (QPort.port q, d.queue.queue)), kind := f.kind, body := .forwarded f.bytes }
      s1

/-- Record steering to one port (R58). -/
def steerToPort (f : Frame) (d : Domain) (q : QPort) (s : State) : State :=
  if s.usable (QPort.port q) then deliverSteered f d [q] s else portDownDrop (QPort.port q) s

/-- The usable ports of the coverage cell where a SID's reefer record places it, while the map is in use (R56 step 4,
R59); empty where located delivery does not apply. The primary port comes before the secondary one (log 45). -/
def locatedPorts (s : State) (sid : Sid) : List QPort :=
  match s.cvm.valid, findReefer s sid with
  | true, some (_, r) =>
    match r.readings.segment, r.readings.lane with
    | some g, some l =>
      let c := s.cvm.active.cell g l
      (c.primary.toList ++ c.secondary.toList).filter (fun q => s.usable (QPort.port q))
    | _, _ => []
  | _, _ => []

/-- A flood of a domain, from the trunk port on which the frame arrived (R60). -/
def flood (f : Frame) (n : Fin 8) (arrival : Port) (s : State) : State :=
  let d := s.domain n
  let ports := (quayList d.flood).filter (fun q => s.usable (QPort.port q))
  if ports = [] then addDrop Drop.portDown 1 s
  else
    let o := offer (floodBucket n) f.length arrival s
    if o.1 then
      deliverSteered f d ports (o.2.sttStats (fun x => { x with floods := countUp x.floods 1 }))
    else bump arrival Ctr.rxPolicer 1 (addDrop Drop.policer 1 o.2)

/-- A miss: located delivery (R59) where it applies, a flood (R60) otherwise. The located delivery is counted before
the removals of R57, also where they leave no port (log 43). -/
def steerMiss (f : Frame) (n : Fin 8) (arrival : Port) (s : State) : State :=
  match locatedPorts s f.station with
  | [] => flood f n arrival s
  | q :: r => deliverSteered f (s.domain n) (q :: r) (s.sttStats (fun x => { x with located := countUp x.located 1 }))

/-- Downlink steering of a frame of a domain (R56). -/
def steer (f : Frame) (n : Fin 8) (arrival : Port) (s : State) : State :=
  match findStatic s f.station with
  | some (_, r) =>
    match r.binding with
    | .crane l => steerToPort f (s.domain n) (s.link l).primary s
    | .static q => steerToPort f (s.domain n) q s
  | none =>
    match findDynamic s f.station with
    | some (_, r) => steerToPort f (s.domain n) r.port s
    | none => steerMiss f n arrival s

/-! ## The aging sweep and the purge walk (spec 3.4, 3.5) -/

/-- The aging sweep's visit to a place (R53). -/
def ageAt (k : Nat) (s : State) : State :=
  match Table.get s.stt.dynamics k with
  | none => s
  | some r =>
    if r.age ≤ 1 then
      removeDynamic k (s.sttStats (fun x => { x with agingRemovals := countUp x.agingRemovals 1 }))
    else s.setStt { s.stt with dynamics := Table.put s.stt.dynamics k { r with age := r.age - 1 } }

/-- The aging sweep after its visit to a place (R52, R53). -/
def advanceAging (k : Nat) (s : State) : State :=
  if k + 1 < Config.dynamicPlaces then s.setStt { s.stt with sweep := some (k + 1) }
  else if s.stt.remembered then s.setStt { s.stt with sweep := some 0, remembered := false }
  else s.setStt { s.stt with sweep := none }

/-- The purge walk's visit to a place, with its set (R54). -/
def purgeAt (k : Nat) (ports : QuaySet) (s : State) : State :=
  match Table.get s.stt.dynamics k with
  | none => s
  | some r =>
    if ports.getLsbD r.port.val then
      removeDynamic k (s.sttStats (fun x => { x with purgeRemovals := countUp x.purgeRemovals 1 }))
    else s

/-- The purge walk after its visit to a place: at its end a walk for the waiting set begins (R54). -/
def advancePurge (w : Walk) (s : State) : State :=
  if w.next + 1 < Config.dynamicPlaces then s.setStt { s.stt with walk := some { w with next := w.next + 1 } }
  else if s.stt.waiting ≠ 0 then
    s.setStt { s.stt with walk := some { next := 0, ports := s.stt.waiting }, waiting := 0 }
  else s.setStt { s.stt with walk := none }

/-- The work of a quay port's link down at the STT (R54). -/
def stationLinkDown (q : QPort) (s : State) : State :=
  match s.stt.walk with
  | none => s.setStt { s.stt with walk := some { next := 0, ports := quaySingle q } }
  | some _ => s.setStt { s.stt with waiting := s.stt.waiting ||| quaySingle q }

/-! ## Meanings -/

/-- STT_LINK_DOWN (R54), where the announcement is in flight; a trunk port's starts no purge. -/
def execSttLinkDown (p : Port) (s : State) : Outcome :=
  .next <|
    if p ∈ s.flight.stationDowns then
      let s1 := s.setFlight { s.flight with stationDowns := s.flight.stationDowns.erase p }
      match Port.quay p with
      | none => s1
      | some q => stationLinkDown q s1
    else s

/-- AGING_TIMER_EXPIRY (R52). -/
def execAgingTimerExpiry (s : State) : Outcome :=
  .next <|
    match s.stt.agingTimer with
    | none => s
    | some _ =>
      let s1 := s.setStt { s.stt with agingTimer := some s.stt.agingPeriod }
      if s.stt.sweep = none then s1.setStt { s1.stt with sweep := some 0 }
      else if s.stt.remembered = false then s1.setStt { s1.stt with remembered := true }
      else raise Src.sweepOverrun (.sweep .aging)
        (s1.sttStats (fun x => { x with agingOverruns := countUp x.agingOverruns 1 }))

/-- AGING_SWEEP_VISIT (R53), where a sweep is in progress. -/
def execAgingSweepVisit (s : State) : Outcome :=
  .next <|
    match s.stt.sweep with
    | none => s
    | some k => advanceAging k (ageAt k s)

/-- PURGE_WALK_VISIT (R54), where a walk is in progress. -/
def execPurgeWalkVisit (s : State) : Outcome :=
  .next <|
    match s.stt.walk with
    | none => s
    | some w => advancePurge w (purgeAt w.next w.ports s)

end Sys2Proof.Machine
end

