-- ==== Sys2Proof/Machine/Reset.lean ====
section
/-! DEFINITION. The resets and the part state (spec 10.5): the hard-reset values, the soft restart of every
block, the entry into RUNNING, and the meanings of the reset events and of the seconds tick. -/

namespace Sys2Proof.Machine

/-! ## Hard reset -/

/-- The map with every part but its coverage cells as at power-on (R18). -/
def Cvm.pinReset (c : Cvm) : Cvm :=
  { Cvm.powerOn with bank0 := ⟨c.bank0.cells, .default⟩, bank1 := ⟨c.bank1.cells, .default⟩ }

/-- The port records at a hard reset (R20): the link state is per PHY, T0 is permitted, and T1 as MSEL is. -/
def hardPorts (msel : Bool) (old : Vector PortRec 14) : Vector PortRec 14 :=
  Vector.ofFn (fun p : Port => PortRec.hard (old.get p).link (p.val == 12 || (p.val == 13 && msel)))

/-- The part SID at a hard reset (R25). -/
def hardSid (addr : Fin 16) : Sid := BitVec.ofNat 32 (0xFFFFFF00 + addr.val)

/-- Every block at its hard-reset values with the straps as given, and a map (R175). The link states, the queue
of commands and the model's own records are kept. -/
def hardValues (part : PartState) (straps : Straps) (map : Cvm) (s : State) : State :=
  { s with
    part := part, straps := straps, seconds := 0, restarts := 0, sid := hardSid straps.addr
    ports := hardPorts straps.msel s.ports, cvm := map, idc := .hard, stt := .hard
    links := Vector.replicate 24 .hard, rcn := .hard, fsq := .hard, ntu := .hard, ctb := .hard, mga := .hard
    flight := .none }

/-! ## Soft restart -/

/-- The map at a soft restart (R19). -/
def Cvm.softRestart (c : Cvm) : Cvm :=
  { c with writeCursor := none, readCursor := none, epochTimer := none, overlay := Vector.replicate 256 0 }

/-- The station table at a soft restart (R43). -/
def Stt.softRestart (t : Stt) : Stt :=
  { t with dynamics := [], agingTimer := none, sweep := none, remembered := false, walk := none, waiting := 0 }

/-- A link at a soft restart (R62). -/
def Link.softRestart (x : Link) : Link :=
  if x.state = .unbound then x
  else
    { x with state := .waiting, missed := 0, timer := none, primary := x.config.home, cycle := none
             context := none, reverted := none, slot := none }

/-- A reefer record at a soft restart (R105). -/
def Reefer.softRestart (r : Reefer) : Reefer :=
  { r with
    heard := true
    missed := 0
    place := match r.place with
      | .inFilling _ => .unsent
      | .none => .none
      | .unsent => .unsent }

/-- The consolidator at a soft restart (R105, R137). -/
def Rcn.softRestart (r : Rcn) : Rcn :=
  { r with
    reefers := Table.mapValues r.reefers Reefer.softRestart
    stats :=
      if r.bufferA.state = .sending ∨ r.bufferB.state = .sending then
        { r.stats with batchesDiscarded := countUp r.stats.batchesDiscarded 1 }
      else r.stats
    periodTimer := none, sweep := none, remembered := false
    bufferA := ⟨.filling, []⟩, bufferB := ⟨.idle, []⟩, sendDue := false, batchTimer := none }

/-- The four queues of a port, without their entries. -/
def PortQueues.emptied (q : PortQueues) : PortQueues :=
  { q with
    queueC := { q.queueC with entries := [] }, queueU := { q.queueU with entries := [] }
    queueB := { q.queueB with entries := [] }, queueD := { q.queueD with entries := [] }
    sending := none }

/-- The entries of a port's four queues, C first and then U, B and D, each in FIFO order (R147). -/
def PortQueues.entries (q : PortQueues) : List Entry :=
  q.queueC.entries ++ q.queueU.entries ++ q.queueB.entries ++ q.queueD.entries

/-- A bucket at a soft restart (R149): open and full, its refill timer stopped. -/
def Bucket.softRestart (x : Bucket) : Bucket := { x with rate := 0, credit := x.cmax, refill := false }

/-- The frame store at a soft restart (R148, R149). -/
def Fsq.softRestart (f : Fsq) : Fsq :=
  { f with
    free := Config.poolCells, store := []
    ports := f.ports.map (fun q => { q.emptied with turn := .b, served := 0 })
    buckets := f.buckets.map Bucket.softRestart }

/-- A notice source at a soft restart (R156). -/
def Source.softRestart (x : Source) : Source :=
  { x with pending := false, count := 0, detail := none, holdoff := none }

/-- The counts of a soft restart (R148): each transmission in progress in its port's tx aborted, and every entry
of every queue in restart discard. -/
def countRestart (s : State) : State :=
  (List.finRange 14).foldl
    (fun t p =>
      addDrop Drop.restartDiscard (s.queues p).entries.length
        (if (s.queues p).sending.isSome then bump p Ctr.txAborted 1 t else t))
    s

/-- The soft restart begins (R174): the part is RESTARTING, every block takes its soft-restart values, and every
command frame that waits is removed as a restart discard (R168). The events in flight are dropped (log 7). The counts
are made before the NTU takes its soft-restart values, so a COUNTER-WRAP that a tx aborted count raises does not
survive, and its frame is dropped (log 39). -/
def softRestart (s : State) : State :=
  let s1 := addDrop Drop.restartDiscard s.mga.queue.length (countRestart s)
  { s1 with
    part := .restarting, restarts := min 65535 (s.restarts + 1)
    cvm := s1.cvm.softRestart, stt := s1.stt.softRestart, links := s1.links.map Link.softRestart
    rcn := s1.rcn.softRestart, fsq := s1.fsq.softRestart
    ntu := { s1.ntu with sources := s1.ntu.sources.map Source.softRestart }
    mga := .hard, flight := .none }

/-! ## Entry into RUNNING -/

/-- The block timers start with full periods (R11, R52, R121, R150). -/
def startTimers (s : State) : State :=
  { s with
    cvm := { s.cvm with epochTimer := some s.cvm.epochPeriod }
    stt := { s.stt with agingTimer := some s.stt.agingPeriod }
    rcn := { s.rcn with periodTimer := some s.rcn.settings.reportPeriod }
    fsq := { s.fsq with buckets := s.fsq.buckets.map (fun x => { x with refill := true }) } }

/-- The cell check of each bound link whose segment is known, at the return to RUNNING (R102). -/
def restartCellChecks (s : State) : State :=
  (List.finRange 24).foldl
    (fun t l =>
      if (t.link l).state ≠ .unbound ∧ (t.link l).segment.isSome = true then cellCheck l t else t)
    s

/-! ## Meanings -/

/-- POWER_ON_RESET (R17, R175). Power is applied: every block takes its power-on values. -/
def execPowerOnReset (s : State) : Outcome := .next (hardValues .inReset s.straps .powerOn s)

/-- PIN_RESET (R18, R175). RESET_N is asserted, which ends any part state; the coverage cells are kept. -/
def execPinReset (s : State) : Outcome := .next (hardValues .inReset s.straps s.cvm.pinReset s)

/-- RESET_END (R175). The straps are sampled and the part enters STARTING with its hard-reset values. Outside a
hard reset there is no reset to end. -/
def execResetEnd (msel : Bool) (addr : Fin 16) (s : State) : Outcome :=
  .next <|
    if s.part = .inReset then hardValues .starting { msel := msel, addr := addr } s.cvm.pinReset s else s

/-- INITIALIZATION_END (R175). The part enters RUNNING: the block timers start and the owners present their
conditions. -/
def execInitializationEnd (s : State) : Outcome :=
  .next <|
    if s.part = .starting then presentAll (startTimers { s with part := .running }) else s

/-- RESTART_INITIALIZATION_END (R174). The part returns to RUNNING: the block timers start, the CLS runs its cell
checks (R102), and the owners present their conditions. -/
def execRestartInitializationEnd (s : State) : Outcome :=
  .next <|
    if s.part = .restarting then presentAll (restartCellChecks (startTimers { s with part := .running })) else s

/-- SECONDS_COUNTER_TICK (R175). The counter advances by one in every part state; past its 32-bit maximum the
spec gives no value (free value, log 10). -/
def execSecondsCounterTick (s : State) : Outcome :=
  .next <|
    if s.part = .inReset then s
    else if s.seconds < Config.max32 then { s with seconds := s.seconds + 1 }
    else
      { s with seconds := Config.secondsAfterMax s.freeUse % (Config.max32 + 1), freeUse := s.freeUse + 1 }

end Sys2Proof.Machine
end

