-- ==== Sys2Proof/Machine/Queues.lean ====
section
/-! DEFINITION. The Frame Store and Queues (chapter 8): admission, selection, transmission, discards and refills,
with the meanings of its events and of the holdoff expiry of a notice source. -/

namespace Sys2Proof.Machine

/-- A class queue of a port (R140). -/
def PortQueues.get (x : PortQueues) : QClass → Queue
  | .c => x.queueC
  | .u => x.queueU
  | .b => x.queueB
  | .d => x.queueD

/-- The queues of a port with one replaced. -/
def PortQueues.set (x : PortQueues) (cls : QClass) (q : Queue) : PortQueues :=
  match cls with
  | .c => { x with queueC := q }
  | .u => { x with queueU := q }
  | .b => { x with queueB := q }
  | .d => { x with queueD := q }

/-- The pool cells an entry counts (R140): a batch entry counts 0. -/
def Entry.cells : Entry → Nat
  | .frame _ n _ => n
  | .batch _ => 0

/-- The frame length of an entry, for scheduling and shaping (R143, R146). -/
def Entry.length : Entry → Nat
  | .frame _ _ n => n
  | .batch bytes => bytes.length

/-- An entry is the batch entry (R143). -/
def Entry.isBatch : Entry → Bool
  | .frame _ _ _ => false
  | .batch _ => true

/-- The cell count of a queue (R140). -/
def Queue.cellCount (q : Queue) : Nat := (q.entries.map Entry.cells).sum

/-! ## Selection (spec 8.3) -/

/-- A queue is eligible at a selection (R145). -/
def eligible (s : State) (p : Port) (cls : QClass) : Bool :=
  !((s.queues p).get cls).entries.isEmpty &&
    ((s.bucket (shaperBucket p cls)).rate == 0 || decide (0 ≤ (s.bucket (shaperBucket p cls)).credit))

/-- The weight of the turn (R145). -/
def PortQueues.weight (x : PortQueues) : Turn → Nat
  | .b => x.weightB
  | .d => x.weightD

/-- The weighted part after it has chosen a queue (R145). -/
def PortQueues.serve (x : PortQueues) (t : Turn) : PortQueues :=
  let n := (if t = x.turn then x.served else 0) + 1
  if x.weight t ≤ n then { x with turn := t.other, served := 0 } else { x with turn := t, served := n }

/-- The queue a selection chooses, with the weighted part after the choice; none when nothing is eligible
(R145). -/
def chooseQueue (s : State) (p : Port) : Option (QClass × PortQueues) :=
  let x := s.queues p
  if eligible s p .c then some (.c, x)
  else if eligible s p .u then some (.u, x)
  else
    match eligible s p .b, eligible s p .d with
    | true, true => some (x.turn.queue, x.serve x.turn)
    | true, false => some (.b, x.serve .b)
    | false, true => some (.d, x.serve .d)
    | false, false => none

/-- The frame length of the head entry of a queue. -/
def headLength (q : Queue) : Nat := (q.entries.head?.map Entry.length).getD 0

/-- A queue's shaper is charged at the start of a transmission from it; an open shaper is not (R153). -/
def chargeShaper (p : Port) (cls : QClass) (length : Nat) (s : State) : State :=
  let x := s.bucket (shaperBucket p cls)
  if x.rate = 0 then s
  else s.setBucket (shaperBucket p cls) { x with credit := x.credit - costOf x length (s.port p).overhead }

/-- An IDLE transmitter of a usable port makes a selection, and starts the transmission it chooses (R144, R145,
R146). -/
def select (p : Port) (s : State) : State :=
  if (s.queues p).sending.isSome || !s.usable p then s
  else
    match chooseQueue s p with
    | none => s
    | some (cls, x) =>
      chargeShaper p cls (headLength (x.get cls)) (s.setQueues p { x with sending := some cls })

/-! ## Stored frames (spec 8.1) -/

/-- An entry that points at a stored frame is removed (R138): the reference count falls, and at 0 the cells are
freed. -/
def releaseEntry (s : State) (e : Entry) : State :=
  match e with
  | .batch _ => s
  | .frame id _ _ =>
    match Table.get s.fsq.store id with
    | none => s
    | some f =>
      if f.refs ≤ 1 then
        s.setFsq { s.fsq with store := Table.erase s.fsq.store id, free := s.fsq.free + f.cells }
      else s.setFsq { s.fsq with store := Table.put s.fsq.store id { f with refs := f.refs - 1 } }

/-- An entry is the reply that carries a RESTART that was taken (R173). -/
def isRestartReply (s : State) (e : Entry) : Bool :=
  match e with
  | .batch _ => false
  | .frame id _ _ =>
    match Table.get s.fsq.store id with
    | none => false
    | some f => f.origin == .reply true

/-- The bytes an entry sends, without the check sequence. -/
def entryBytes (s : State) (e : Entry) : List Byte :=
  match e with
  | .batch bytes => bytes
  | .frame id _ _ =>
    match Table.get s.fsq.store id with
    | none => []
    | some f => f.bytes

/-! ## Admission (spec 8.2) -/

/-- The judgement of a queue at an enqueue (R141). -/
inductive Admission where
  | admitted | portDown | serviceMode | queueFull
  deriving DecidableEq, Repr

/-- A queue is judged for a frame of a kind that holds `n` cells (R141). -/
def judgeQueue (s : State) (kind : Kind) (n : Nat) (d : Port × QClass) : Admission :=
  let q := (s.queues d.1).get d.2
  if !s.usable d.1 then .portDown
  else if (s.port d.1).mode = .craneOnly ∧ kind.craneOnly = false then .serviceMode
  else if q.cellCount + n ≤ q.limit ∧
      (if d.2 = .c then n ≤ s.fsq.free else n + s.fsq.reserve ≤ s.fsq.free) then .admitted
  else .queueFull

/-- The counts of a queue's refusal (R141). -/
def countRefusal (d : Port × QClass) (a : Admission) (s : State) : State :=
  match a with
  | .admitted => s
  | .portDown => portDownDrop d.1 s
  | .serviceMode => addDrop Drop.serviceMode 1 s
  | .queueFull => bump d.1 Ctr.txQueueFull 1 (addDrop Drop.queueFull 1 s)

/-- An entry is added at the tail of a queue (R141). -/
def pushEntry (e : Entry) (s : State) (d : Port × QClass) : State :=
  let x := s.queues d.1
  let q := x.get d.2
  s.setQueues d.1 (x.set d.2 { q with entries := q.entries ++ [e] })

/-- The bytes a request stores (R24, R27): a forwarded frame as it arrived, an originated frame with its
Ethernet addresses as they stand now. -/
def storedBytes (s : State) (r : EnqueueRequest) : List Byte :=
  match r.body with
  | .forwarded bytes => bytes
  | .originated _ bytes | .batch bytes =>
    match r.queues with
    | [] => bytes
    | d :: _ => withAddresses (s.port d.1).neighbour (partAddress s.straps.addr) bytes

/-- The origin of what a request stores. -/
def Body.origin : Body → Origin
  | .forwarded _ | .batch _ => .forwarded
  | .originated o _ => o

/-- What the owner of a frame learns of its admission: the notice statistics (R160), and the end of a reply that
carries a RESTART and is refused (R173). The restart begins after the counts of the refusal (log 39). -/
def admissionEvent (o : Origin) (admitted : Bool) (s : State) : State :=
  match o, admitted with
  | .notice, true => s.setNtu { s.ntu with enqueued := countUp s.ntu.enqueued 1 }
  | .notice, false => s.setNtu { s.ntu with lost := countUp s.ntu.lost 1 }
  | .reply true, false => softRestart s
  | .reply true, true | .reply false, _ | .forwarded, _ | .advisory, _ => s

/-- A frame is stored once and an entry added at the tail of each admitting queue; each such port's IDLE
transmitter makes a selection (R138, R141, R144). -/
def storeFrame (r : EnqueueRequest) (admitting : List (Port × QClass)) (s : State) : State :=
  let bytes := storedBytes s r
  let n := cellsOf r.body.length
  let id := (Table.lowestFree s.fsq.store Config.poolCells).getD Config.poolCells
  let s1 := s.setFsq
    { s.fsq with
      free := s.fsq.free - n
      store := Table.put s.fsq.store id
        { bytes := bytes, cells := n, refs := admitting.length, kind := r.kind, origin := r.body.origin } }
  let s2 := admitting.foldl (pushEntry (.frame id n r.body.length)) s1
  admitting.foldl (fun t d => select d.1 t) (presentPoolLow s2)

/-- The FSQ takes the enqueue of a frame (R141, R142): every named queue is judged at the state found, each refusal
counted, and the frame stored when at least one queue admits it. The refusals are counted in the order in which the
enqueue names its queues (log 45), and before POOL-LOW is presented (log 40). -/
def takeFrame (r : EnqueueRequest) (s : State) : State :=
  let n := cellsOf r.body.length
  let admitting := r.queues.filter (fun d => judgeQueue s r.kind n d == .admitted)
  let s1 := r.queues.foldl (fun t d => countRefusal d (judgeQueue s r.kind n d) t) s
  if admitting = [] then admissionEvent r.body.origin false s1
  else admissionEvent r.body.origin true (storeFrame r admitting s1)

/-- The FSQ takes the enqueue of a batch frame (R143): judged by its port alone, it holds no cells. -/
def takeBatch (r : EnqueueRequest) (s : State) : State :=
  match r.queues with
  | [] => s
  | d :: _ =>
    if s.usable d.1 then select d.1 (pushEntry (.batch (storedBytes s r)) s d)
    else batchDiscarded (portDownDrop d.1 s)

/-- The FSQ takes an enqueue (R141, R143). -/
def takeEnqueue (r : EnqueueRequest) (s : State) : State :=
  match r.body with
  | .batch _ => takeBatch r s
  | .forwarded _ | .originated _ _ => takeFrame r s

/-! ## Transmission and discards (spec 8.3, 8.4) -/

/-- The end of the transmission of the head entry `e` of a queue, the entries after it being `rest` (R146). The frame
that left the part is recorded with its check sequence (log 21). POOL-LOW is presented after step 2 and before the
counts of step 3 (log 40), tx frames is counted before tx bytes (log 45). -/
def endTransmission (p : Port) (cls : QClass) (e : Entry) (rest : List Entry) (s : State) : State :=
  let x := s.queues p
  let restarts := isRestartReply s e
  let s1 := { s with wire := s.wire ++ [(p, entryBytes s e ++ fcsBytes (entryBytes s e))] }
  let s2 := s1.setQueues p { x.set cls { x.get cls with entries := rest } with sending := none }
  let s3 := presentPoolLow (releaseEntry s2 e)
  let s4 := bump p Ctr.txBytes e.length (bump p Ctr.txFrames 1 s3)
  let s5 := if e.isBatch then batchTransmitted s4 else s4
  if restarts then softRestart s5 else select p s5

/-- The work of a link-down announcement at the FSQ (R147): the transmission in progress is aborted and every other
entry discarded, with their counts; then the end events. All the cells are freed, and POOL-LOW is presented once,
before the counts (log 40). R147 gives the two end events of step 3 no order: the batch frame is ended as discarded
before the soft restart begins (log 47). -/
def discardPort (p : Port) (s : State) : State :=
  let x := s.queues p
  let aborted := if x.sending.isSome then 1 else 0
  let others := x.entries.length - aborted
  let s1 := x.entries.foldl releaseEntry (s.setQueues p x.emptied)
  let s2 := presentPoolLow s1
  let s3 := bump p Ctr.txAborted aborted (addDrop Drop.portDown aborted s2)
  let s4 := bump p Ctr.txPortDown others (addDrop Drop.portDown others s3)
  let s5 := if x.entries.any Entry.isBatch then batchDiscarded s4 else s4
  if x.entries.any (isRestartReply s) then softRestart s5 else s5

/-! ## Meanings -/

/-- ENQUEUE (R141 to R143). The FSQ takes one of the enqueues handed to it. -/
def execEnqueue (k : Nat) (s : State) : Outcome :=
  .next <|
    match s.flight.enqueues[k]? with
    | none => s
    | some r => takeEnqueue r (s.setFlight { s.flight with enqueues := s.flight.enqueues.eraseIdx k })

/-- TRANSMISSION_END (R146), where the port's transmitter is SENDING. -/
def execTransmissionEnd (p : Port) (s : State) : Outcome :=
  .next <|
    match (s.queues p).sending with
    | none => s
    | some cls =>
      match ((s.queues p).get cls).entries with
      | [] => s.setQueues p { s.queues p with sending := none }
      | e :: rest => endTransmission p cls e rest s

/-- FSQ_LINK_DOWN (R147), where the announcement is in flight. -/
def execFsqLinkDown (p : Port) (s : State) : Outcome :=
  .next <|
    if p ∈ s.flight.queueDowns then
      discardPort p (s.setFlight { s.flight with queueDowns := s.flight.queueDowns.erase p })
    else s

/-- A bucket after an expiry of its refill timer (R149, R150). -/
def Bucket.refilled (x : Bucket) : Bucket :=
  if x.rate = 0 then x else { x with credit := min (x.credit + refillOf x.rate) x.cmax }

/-- The port of a shaper, none for a policer (R149). -/
def shaperPort (b : BucketNo) : Option Port := if h : 81 ≤ b.val then some ⟨(b.val - 81) / 4, by omega⟩ else none

/-- REFILL_EXPIRY (R150), where the bucket's refill timer runs; a shaper's may prompt a selection (R144). -/
def execRefillExpiry (b : BucketNo) (s : State) : Outcome :=
  .next <|
    if (s.bucket b).refill then
      let s1 := s.setBucket b (s.bucket b).refilled
      match shaperPort b with
      | none => s1
      | some p => select p s1
    else s

/-- HOLDOFF_EXPIRY (R158, R159), where the source's holdoff timer runs: a notice frame is issued and the timer
restarts with the holdoff period read now. -/
def execHoldoffExpiry (k : SourceNo) (s : State) : Outcome :=
  .next <|
    match (s.source k).holdoff with
    | none => s
    | some _ => issue k (s.setSource k { s.source k with holdoff := some s.ntu.dest.holdoff })

end Sys2Proof.Machine
end

