-- ==== Sys2Proof/Machine/Agent.lean ====
section
/-! DEFINITION. The Management Agent (chapter 10): acceptance of command frames, the taking of a frame and of
each of its commands, replies, and RESTART; and the coverage epoch, which completes a COMMIT-MAP. -/

namespace Sys2Proof.Machine

/-! ## Acceptance (R167) -/

/-- A command frame handed to the agent is judged (R167); `sender` is the sender's SID. -/
def acceptCommand (f : Frame) (arrival : Port) (sender : Sid) (s : State) : State :=
  if (s.port arrival).permitted = false then
    raise Src.mgmtForeign (.command arrival sender) (addDrop Drop.managementRefused 1 s)
  else if f.payload.length < 4 then addDrop Drop.managementRefused 1 s
  else if 4 ≤ s.mga.queue.length then
    raise Src.mgmtOverflow (.command arrival sender) (addDrop Drop.managementRefused 1 s)
  else
    s.setMga { s.mga with
      queue := s.mga.queue ++ [{ arrival := arrival, station := f.station, peer := f.peer, payload := f.payload }] }

/-! ## The commands of a frame (R169) -/

/-- The next command of a frame, whole: its code, its argument bytes, and the payload after them; none when the
payload ends inside it (R169). -/
def Execution.whole (e : Execution) : Option (Byte × List Byte × List Byte) :=
  match e.rest with
  | code :: n :: t => if n.toNat ≤ t.length then some (code, t.take n.toNat, t.drop n.toNat) else none
  | [_] | [] => none

/-- What the agent finds next in a frame (R169). -/
inductive Upcoming where
  | skipped | short | badCode
  | command (i : Instr)
  deriving DecidableEq, Repr

/-- The treatment of the next command, by the first case of R169 that applies. -/
def Execution.upcoming (e : Execution) : Upcoming :=
  if e.stopOnError && e.failed then .skipped
  else
    match e.whole with
    | none => .short
    | some (code, args, _) =>
      match Decode.command code args with
      | .badCode => .badCode
      | .short => .short
      | .command i => .command i

/-- The command that a frame's execution has come to, which is taken next at its owner (R170). -/
def Execution.awaited (e : Execution) : Option Instr :=
  if e.count ≤ e.entries.length then none
  else
    match e.upcoming with
    | .command i => some i
    | .skipped | .short | .badCode => none

/-- The code that the entry of the next command carries (R171): the one the payload holds there; where it holds
none, no value is stated (free value, log 11). -/
def Execution.code (e : Execution) : Byte :=
  match e.rest with
  | c :: _ => c
  | [] => Config.unreadCode e.entries.length

/-- The execution after a command entry (R169, R171): the payload goes on after the command, or has run out. -/
def Execution.push (e : Execution) (st : Status) (result : List Byte) : Execution :=
  { e with
    rest := match e.whole with
      | some (_, _, t) => t
      | none => []
    failed := e.failed || st.fails
    entries := e.entries ++ [{ code := e.code, status := st, result := result }]
    room := e.room - result.length }

/-- The commands that no owner takes are answered SKIPPED, SHORT or BAD-CODE, up to the next one that is taken
or the end of the frame (R169); a frame has at most 16 commands. -/
def Execution.settle : Nat → Execution → Execution
  | 0, e => e
  | n + 1, e =>
    if e.count ≤ e.entries.length then e
    else
      match e.upcoming with
      | .skipped => Execution.settle n (e.push .skipped [])
      | .short => Execution.settle n (e.push .short [])
      | .badCode => Execution.settle n (e.push .badCode [])
      | .command _ => e

/-! ## Replies (R171 to R173) -/

/-- A command entry of a reply body (R180). -/
def ReplyEntry.bytes (x : ReplyEntry) : List Byte :=
  [x.code] ++ be1 x.status.code ++ be2 x.result.length ++ x.result

/-- A reply body (R171, R180). -/
def replyPayload (tag : Nat) (st : Status) (entries : List ReplyEntry) : List Byte :=
  be2 tag ++ be1 st.code ++ be1 entries.length ++ entries.flatMap ReplyEntry.bytes

/-- A frame is answered (R172, R173): its reply is handed to the U queue of the port of arrival, or lost where that
port is not usable. The reply of a RESTART that was taken orders the soft restart, which begins at once when the reply
is lost (R174). The restart begins after the counts of the loss (log 39). -/
def answer (restart : Bool) (arrival : Port) (station peer : Sid) (payload : List Byte) (s : State) : State :=
  let s1 := s.setMga { s.mga with phase := if restart then .restartOrdered else .idle }
  if s1.usable arrival then
    handOff
      { queues := [(arrival, .u)], kind := .managementReply
        body := .originated (.reply restart)
          (originatedBytes .managementReply (Port.isQuay arrival) station peer payload) } s1
  else
    let s2 := portDownDrop arrival s1
    if restart then softRestart s2 else s2

/-- The frame goes on, or is answered when every command of it has its entry (R172). -/
def continueFrame (restart : Bool) (e : Execution) (s : State) : State :=
  if e.count ≤ e.entries.length then
    answer restart e.arrival e.station e.peer (replyPayload e.tag .ok e.entries) s
  else s.setMga { s.mga with phase := .executing e }

/-- The status and the result an entry carries (R171): a failing command gives no result; a result that does not
fit the room is left out and the status is PARTIAL. -/
def fitResult (room : Nat) (st : Status) (result : List Byte) : Status × List Byte :=
  if st.fails then (st, [])
  else if result.length ≤ room then (st, result)
  else (.partialFit, [])

/-- The execution after a command that was taken has ended with a status and a result (R169, R171). -/
def Execution.afterCommand (e : Execution) (st : Status) (result : List Byte) : Execution :=
  Execution.settle 16 (e.push (fitResult e.room st result).1 (fitResult e.room st result).2)

/-- A command that was taken ends with a status and a result (R169 to R173). -/
def completeCommand (restart : Bool) (e : Execution) (st : Status) (result : List Byte) (s : State) : State :=
  continueFrame restart (e.afterCommand st result) s

/-- The execution whose next command is the one given, when the agent has come to it. -/
def executionAt (i : Instr) (s : State) : Option Execution :=
  match s.mga.phase with
  | .executing e => if e.awaited = some i then some e else none
  | .idle | .held _ | .restartOrdered => none

/-- A management command is taken at its owner, as one event, when the agent's frame has come to it (R170, log
8); `run` is its effect, given the room that remains in the reply. -/
def takeCommand (i : Instr) (run : Nat → State → Taken) (s : State) : State :=
  match executionAt i s with
  | none => s
  | some e => completeCommand false e (run e.room s).status (run e.room s).result (run e.room s).state

/-! ## Taking a frame (R168, R169) -/

/-- The count of a command frame's envelope (R180). -/
def CommandFrame.count (f : CommandFrame) : Nat := (byteAt f.payload 3).toNat

/-- The tag of a command frame's envelope (R180). -/
def CommandFrame.tag (f : CommandFrame) : Nat := u16At f.payload 1

/-- The execution of a frame at its beginning: the room for the fixed part of the reply is set aside (R171). -/
def CommandFrame.begin (f : CommandFrame) : Execution :=
  { arrival := f.arrival, station := f.station, peer := f.peer
    stopOnError := (byteAt f.payload 0).getLsbD 0
    tag := f.tag, count := f.count, rest := f.payload.drop 4, failed := false, entries := []
    room := Config.replyBytes - 4 - 4 * f.count }

/-- The agent begins a frame it has taken from the queue (R169). -/
def beginFrame (f : CommandFrame) (s : State) : State :=
  if f.count = 0 ∨ 16 < f.count then
    answer false f.arrival f.station f.peer (replyPayload f.tag .badArgument []) s
  else continueFrame false (Execution.settle 16 f.begin) s

/-- COMMAND_FRAME_TAKE (R168), where the agent is free and a frame waits. -/
def execCommandFrameTake (s : State) : Outcome :=
  .next <|
    match s.mga.phase, s.mga.queue with
    | .idle, f :: r => beginFrame f (s.setMga { s.mga with queue := r })
    | _, _ => s

/-! ## RESTART and COMMIT-MAP -/

/-- RESTART (R174): taken as the last command its frame carries by count, refused otherwise. -/
def execRestart (s : State) : Outcome :=
  .next <|
    match executionAt .restart s with
    | none => s
    | some e =>
      if e.entries.length + 1 = e.count then completeCommand true e .ok [] s
      else completeCommand false e .badArgument [] s

/-- COMMIT-MAP (R12): a swap is marked pending and the command stays in progress until the swap. -/
def execCommitMap (s : State) : Outcome :=
  .next <|
    match executionAt .commitMap s with
    | none => s
    | some e =>
      (s.setCvm { s.cvm with swapPending := true }).setMga { s.mga with phase := .held e }

/-- The map after a swap (R13 steps 1 to 4). -/
def Cvm.swapped (c : Cvm) : Cvm :=
  { c with activeIsOne := !c.activeIsOne, valid := true, swapPending := false, writeCursor := none
           readCursor := none }

/-- "Map swapped" is sent to the CLS: a re-evaluation is due at each bound link that holds a last position (R13,
R98). -/
def sendMapSwapped (s : State) : State :=
  s.setFlight { s.flight with
    reevaluations := s.flight.reevaluations ++
      (List.finRange 24).filter (fun l => (s.link l).state != .unbound && (s.link l).position.isSome) }

/-- The COMMIT-MAP in progress completes with the number of the bank that became active (R12). -/
def completeCommit (s : State) : State :=
  match s.mga.phase with
  | .held e => completeCommand false e .ok (be1 (if s.cvm.activeIsOne then 1 else 0)) s
  | .idle | .executing _ | .restartOrdered => s

/-- The swap (R13). R13 gives no order between the end of MAP-INVALID and the raising of MAP-COMMITTED: the model raises
MAP-COMMITTED first, so its frame's pending set still shows MAP-INVALID (log 35). -/
def swapMap (s : State) : State :=
  let s1 := s.setCvm s.cvm.swapped
  completeCommit (sendMapSwapped (presentMapInvalid
    (raise Src.mapCommitted (.bank s1.cvm.activeIsOne) s1)))

/-- COVERAGE_EPOCH_EXPIRY (R11, R13), where the coverage epoch timer runs. -/
def execCoverageEpochExpiry (s : State) : Outcome :=
  .next <|
    match s.cvm.epochTimer with
    | none => s
    | some _ =>
      let s1 := s.setCvm { s.cvm with epochTimer := some s.cvm.epochPeriod }
      if s.cvm.swapPending then swapMap s1 else s1

/-! ## Span events (R16) -/

/-- A segment lies in the shadow span of another (R16). -/
def inSpan (centre g : Nat) : Bool := decide (centre ≤ g + 1 ∧ g ≤ centre + 1)

/-- The overlay after an add span (R16). -/
def addSpan (g : Nat) (o : Vector Nat 256) : Vector Nat 256 :=
  Vector.ofFn (fun i => if inSpan g i.val then o.get i + 1 else o.get i)

/-- The overlay after a remove span (R16). -/
def removeSpan (g : Nat) (o : Vector Nat 256) : Vector Nat 256 :=
  Vector.ofFn (fun i => if inSpan g i.val then o.get i - 1 else o.get i)

/-- The part without the oldest span event in flight, when it is the one given (log 6). -/
def takeSpan (e : SpanEvent) (s : State) : Option State :=
  if s.flight.spans.head? = some e then
    some (s.setFlight { s.flight with spans := s.flight.spans.tail })
  else none

/-- ADD_SPAN (R16), where it is the next span event the CLS has issued. -/
def execAddSpan (g : Nat) (s : State) : Outcome :=
  .next <|
    match takeSpan (.add g) s with
    | none => s
    | some s1 => s1.setCvm { s1.cvm with overlay := addSpan g s1.cvm.overlay }

/-- REMOVE_SPAN (R16), where it is the next span event the CLS has issued. -/
def execRemoveSpan (g : Nat) (s : State) : Outcome :=
  .next <|
    match takeSpan (.remove g) s with
    | none => s
    | some s1 => s1.setCvm { s1.cvm with overlay := removeSpan g s1.cvm.overlay }

end Sys2Proof.Machine
end

