-- ==== Sys2Proof/Machine/Ports.lean ====
section
/-! DEFINITION. The port blocks and the dispatch of received frames (chapter 2): changes of a port's usability,
the reception checks, ingress policing and dispatch, with the meanings of the events at a port. -/

namespace Sys2Proof.Machine

/-! ## Usability (R21) -/

/-- The record of a port changes; while the part is RUNNING, a change of its usability is announced with its
cause (R21). -/
def changePort (p : Port) (r : PortRec) (cause : Cause) (s : State) : State :=
  let s1 := s.setPort p r
  if s.part = .running then
    match s.usable p, s1.usable p with
    | true, false => announceDown p cause s1
    | false, true => announceUp p cause s1
    | true, true | false, false => s1
  else s1

/-! ## Drops at reception -/

/-- A received frame is dropped: a counter of its port and a drop reason each increase by 1. -/
def dropAt (p : Port) (c : Fin 12) (r : Fin 20) (s : State) : State := bump p c 1 (addDrop r 1 s)

/-- A frame's SID matches no class (R33). -/
def dropUnclassified (f : Frame) (s : State) : State :=
  raise Src.unclassified (.sid f.station) (addDrop Drop.unclassified 1 s)

/-! ## Uplink (R39, R40) -/

/-- The kind group of a frame's ingress policer (R39). -/
def kindGroup : Kind → Fin 4
  | .craneControl => 0
  | .positionReport => 1
  | .reeferReport => 2
  | .data | .managementCommand | .managementReply | .notice | .linkAdvisory | .reeferBatch => 3

/-- A frame is forwarded as data: handed to the FSQ for its domain's data queue on its trunk port (R40). -/
def forwardAsData (f : Frame) (d : Domain) (s : State) : State :=
  handOff { queues := [(d.trunk.port, d.queue.queue)], kind := f.kind, body := .forwarded f.bytes } s

/-- A frame is first offered to learning and then forwarded as data (R40). -/
def forwardLearning (f : Frame) (q : QPort) (d : Domain) (s : State) : State :=
  forwardAsData f d (learn f.station q f.grade s)

/-- A command frame addressed to the part is counted and handed to the agent (R40, R41). The count comes first (log
45). -/
def receiveCommand (f : Frame) (arrival : Port) (sender : Sid) (s : State) : State :=
  acceptCommand f arrival sender (bump arrival Ctr.rxManagement 1 s)

/-- The dispatch of an uplink frame of a class that has passed its ingress policer (R40). -/
def dispatchUplink (f : Frame) (q : QPort) (c : IdClass) (s : State) : State :=
  let d := s.domain c.domain
  match f.kind with
  | .craneControl =>
    match boundLink s f.station with
    | some l => uplinkControl l f q d.trunk.port s
    | none => forwardLearning f q d s
  | .positionReport =>
    match boundLink s f.station with
    | some l => positionReport l f (QPort.port q) s
    | none => learn f.station q f.grade s
  | .reeferReport =>
    if c.options.reefer then takeReport f (QPort.port q) d.trunk.port s else forwardLearning f q d s
  | .data => forwardLearning f q d s
  | .managementCommand | .managementReply | .notice | .linkAdvisory | .reeferBatch => forwardAsData f d s

/-- An uplink frame is offered to the ingress policer of its port for its kind group (R39). -/
def policed (f : Frame) (q : QPort) (next : State → State) (s : State) : State :=
  let o := offer (ingressBucket q (kindGroup f.kind)) f.length (QPort.port q) s
  if o.1 then next o.2 else dropAt (QPort.port q) Ctr.rxPolicer Drop.policer o.2

/-- A frame is a command frame addressed to the part on uplink (R40). -/
def uplinkToPart (s : State) (f : Frame) : Bool := f.kind == .managementCommand && f.peer == s.sid

/-- A frame is a command frame addressed to the part on downlink (R41). -/
def downlinkToPart (s : State) (f : Frame) : Bool := f.kind == .managementCommand && f.station == s.sid

/-- An uplink frame that passed the reception checks of its quay port (R38, R39, R40). -/
def receiveUplink (f : Frame) (q : QPort) (s : State) : State :=
  if uplinkToPart s f then policed f q (receiveCommand f (QPort.port q) f.station) s
  else
    match classify s.idc f.station with
    | none => dropUnclassified f s
    | some c =>
      if (s.domain c.domain).enabled = false then addDrop Drop.domainDisabled 1 s
      else policed f q (dispatchUplink f q c) s

/-! ## Downlink (R41) -/

/-- The dispatch of a downlink frame of a class that passed classification (R41). -/
def dispatchDownlink (f : Frame) (arrival : Port) (c : IdClass) (s : State) : State :=
  match f.kind with
  | .craneControl =>
    match boundLink s f.station with
    | some l => downlinkControl l f arrival s
    | none => steer f c.domain arrival s
  | .data | .positionReport | .reeferReport | .managementCommand | .managementReply | .notice
  | .linkAdvisory | .reeferBatch => steer f c.domain arrival s

/-- A downlink frame that passed the reception checks of its trunk port (R34, R38, R41). -/
def receiveDownlink (f : Frame) (arrival : Port) (s : State) : State :=
  if downlinkToPart s f then receiveCommand f arrival f.peer s
  else
    match classify s.idc f.station with
    | none => dropUnclassified f s
    | some c =>
      if (s.domain c.domain).enabled = false then addDrop Drop.domainDisabled 1 s
      else if c.options.uplinkOnly then
        raise Src.directionViolation (.sid f.station) (addDrop Drop.directionViolation 1 s)
      else dispatchDownlink f arrival c s

/-! ## Reception checks (spec 2.2) -/

/-- A service mode passes a kind (R31). -/
def Mode.passes : Mode → Kind → Bool
  | .full, _ => true
  | .craneOnly, k => k.craneOnly
  | .disabled, _ => false

/-- A frame of the part's form is checked for its payload length, direction and service mode, and handed to the
IDC (R29, R30, R31). -/
def receiveForm (p : Port) (bytes : List Byte) (kind : Kind) (s : State) : State :=
  let f := readFrame bytes kind
  if payloadLengthFits bytes = false then dropAt p Ctr.rxCheckErrors Drop.frameCheck s
  else if f.down = Port.isQuay p then dropAt p Ctr.rxForeign Drop.wrongDirection s
  else if (s.port p).mode.passes kind = false then dropAt p Ctr.rxServiceMode Drop.serviceMode s
  else
    match Port.quay p with
    | some q => receiveUplink f q s
    | none => receiveDownlink f p s

/-- A frame that passed the frame check and the length check is counted, and its source address becomes the neighbour
address (R24, R27). Rx bytes is counted before rx frames, as R27 names them (log 45). -/
def countReceived (p : Port) (bytes : List Byte) (s : State) : State :=
  let s1 := bump p Ctr.rxFrames 1 (bump p Ctr.rxBytes bytes.length s)
  s1.setPort p { s1.port p with neighbour := sourceMac bytes }

/-- The frame check and the length check (R27). -/
def passesFrameCheck (raw : List Byte) : Bool :=
  fcsMatches raw && decide (64 ≤ (frameBody raw).length) && decide ((frameBody raw).length ≤ 2048)

/-- A frame is taken into the checks of a RUNNING part (R27 to R31). -/
def receiveFrame (p : Port) (raw : List Byte) (s : State) : State :=
  if passesFrameCheck raw = false then dropAt p Ctr.rxCheckErrors Drop.frameCheck s
  else
    match formOf (frameBody raw) with
    | none => dropAt p Ctr.rxForeign Drop.foreign (countReceived p (frameBody raw) s)
    | some kind => receiveForm p (frameBody raw) kind (countReceived p (frameBody raw) s)

/-! ## Meanings -/

/-- PHY_LOSS_OF_LINK (R20, R21). The link state follows the PHY in every part state. -/
def execPhyLossOfLink (p : Port) (s : State) : Outcome :=
  .next (changePort p { s.port p with link := .down } .link s)

/-- PHY_LINK_REPORT (R20, R21). The link state follows the PHY in every part state. -/
def execPhyLinkReport (p : Port) (s : State) : Outcome :=
  .next (changePort p { s.port p with link := .up } .link s)

/-- FRAME_RECEIVED (R26 to R41). A whole frame presented on a port whose link is DOWN is received as on any other: the
checks read the service mode alone (log 36). -/
def execFrameReceived (p : Port) (raw : List Byte) (s : State) : Outcome :=
  .next <|
    match s.part with
    | .inReset | .starting => s
    | .restarting => addDrop Drop.restartDiscard 1 s
    | .running => receiveFrame p raw s

end Sys2Proof.Machine
end

