-- ==== Sys2Proof/Machine/IdentityCommands.lean ====
section
/-! DEFINITION. The management commands taken at the agent, the port blocks and the Identity Classifier: IDENT,
SET-IDENT, SET-PORT, SET-GROUP, SET-CLASS, READ-CLASS, SET-DOMAIN and READ-DOMAIN. A command is taken when the
agent has come to it (`takeCommand`); each definition named `take…` is its effect at its owner. -/

namespace Sys2Proof.Machine

/-! ## IDENT and SET-IDENT -/

/-- The result of IDENT (R176). -/
def identBytes (s : State) : List Byte :=
  be1 0x42 ++ sidBytes s.sid ++ macBytes (partAddress s.straps.addr) ++ flagByte s.straps.msel ++
    be1 s.straps.addr.val ++ be4 s.seconds ++ be2 s.restarts

/-- The effect of IDENT (R176). -/
def takeIdent (s : State) : Taken := taken false (identBytes s) s

/-- IDENT (R176). -/
def execIdent (s : State) : Outcome := .next (takeCommand .ident (fun _ => takeIdent) s)

/-- The effect of SET-IDENT (R25). -/
def takeSetIdent (sid : Sid) (s : State) : Taken :=
  if sid = 0 then refuse .badArgument s else taken false (sidBytes sid) { s with sid := sid }

/-- SET-IDENT (R25). -/
def execSetIdent (sid : Sid) (s : State) : Outcome :=
  .next (takeCommand (.setIdent sid) (fun _ => takeSetIdent sid) s)

/-! ## SET-PORT -/

/-- The service mode after a service-mode code: 0, 1, 2, or 255 to keep; any other names none (R23). -/
def modeOfCode (n : Nat) (present : Mode) : Option Mode :=
  if n = 0 then some .full
  else if n = 1 then some .craneOnly
  else if n = 2 then some .disabled
  else if n = 255 then some present
  else none

/-- The flag after a code 0, 1, or 255 to keep; any other names none (R23, R106, R161). -/
def flagOfCode (n : Nat) (present : Bool) : Option Bool :=
  if n = 0 then some false else if n = 1 then some true else if n = 255 then some present else none

/-- The effect of SET-PORT (R23). -/
def takeSetPort (port mode permission overhead : Nat) (s : State) : Taken :=
  match portOfCode port with
  | none => refuse .badArgument s
  | some p =>
    let r := s.port p
    match modeOfCode mode r.mode, flagOfCode permission r.permitted with
    | some m, some q =>
      if mode = 1 ∧ Port.isQuay p = false then refuse .badArgument s
      else
        let s1 := changePort p
          { r with mode := m, permitted := q, overhead := keepOr 255 0 63 r.overhead overhead } .serviceMode s
        taken (clampsUnless 255 0 63 overhead) (portBytes (s1.port p)) s1
    | _, _ => refuse .badArgument s

/-- SET-PORT (R21, R23). -/
def execSetPort (port mode permission overhead : Nat) (s : State) : Outcome :=
  .next (takeCommand (.setPort port mode permission overhead)
    (fun _ => takeSetPort port mode permission overhead) s)

/-! ## SET-GROUP, SET-CLASS and READ-CLASS -/

/-- The class number of group g and class c (R32). -/
def classIndex (g c : Nat) (hg : g < 4) (hc : c < 4) : Fin 16 := ⟨g * 4 + c, by omega⟩

/-- The effect of SET-GROUP (R35; a group number above 3: log 17). -/
def takeSetGroup (group : Nat) (base mask : Half) (valid : Nat) (s : State) : Taken :=
  if h : group < 4 then
    let r : Group := { base := base, mask := mask, valid := flagSet valid }
    taken false (groupBytes r) (s.setIdc { s.idc with groups := vset s.idc.groups ⟨group, h⟩ r })
  else refuse .badArgument s

/-- SET-GROUP (R35). -/
def execSetGroup (group : Nat) (base mask : Half) (valid : Nat) (s : State) : Outcome :=
  .next (takeCommand (.setGroup group base mask valid) (fun _ => takeSetGroup group base mask valid) s)

/-- The options of an options byte, with its unnamed parts removed (R35). -/
def optionsOfCode (n : Nat) : Options :=
  { uplinkOnly := n.testBit 0, reefer := n.testBit 1, crane := n.testBit 2 }

/-- The effect of SET-CLASS (R35). -/
def takeSetClass (group cls : Nat) (base mask : Half) (valid domain options : Nat) (s : State) : Taken :=
  if h : group < 4 ∧ cls < 4 ∧ domain < 8 then
    let r : IdClass :=
      { base := base, mask := mask, valid := flagSet valid, domain := ⟨domain, h.2.2⟩
        options := optionsOfCode options }
    taken (decide (7 < options)) (classBytes r)
      (s.setIdc { s.idc with classes := vset s.idc.classes (classIndex group cls h.1 h.2.1) r })
  else refuse .badArgument s

/-- SET-CLASS (R35). -/
def execSetClass (group cls : Nat) (base mask : Half) (valid domain options : Nat) (s : State) : Outcome :=
  .next (takeCommand (.setClass group cls base mask valid domain options)
    (fun _ => takeSetClass group cls base mask valid domain options) s)

/-- The effect of READ-CLASS (R35). -/
def takeReadClass (group cls : Nat) (s : State) : Taken :=
  if h : group < 4 ∧ cls < 4 then
    taken false
      (groupBytes (s.idc.groups.get ⟨group, h.1⟩) ++
        classBytes (s.idc.classes.get (classIndex group cls h.1 h.2))) s
  else refuse .badArgument s

/-- READ-CLASS (R35). -/
def execReadClass (group cls : Nat) (s : State) : Outcome :=
  .next (takeCommand (.readClass group cls) (fun _ => takeReadClass group cls) s)

/-! ## SET-DOMAIN and READ-DOMAIN -/

/-- The effect of SET-DOMAIN (R37). -/
def takeSetDomain (domain enabled trunk : Nat) (flood : Half) (queue : Nat) (s : State) : Taken :=
  if h : domain < 8 then
    if 1 < trunk ∨ 1 < queue then refuse .badArgument s
    else
      let r : Domain :=
        { enabled := flagSet enabled, trunk := trunkOfCode trunk, flood := flood.setWidth 12
          queue := if queue = 0 then .d else .b }
      taken (decide (4096 ≤ flood.toNat)) (domainBytes r)
        (s.setIdc { s.idc with domains := vset s.idc.domains ⟨domain, h⟩ r })
  else refuse .badArgument s

/-- SET-DOMAIN (R37). -/
def execSetDomain (domain enabled trunk : Nat) (flood : Half) (queue : Nat) (s : State) : Outcome :=
  .next (takeCommand (.setDomain domain enabled trunk flood queue)
    (fun _ => takeSetDomain domain enabled trunk flood queue) s)

/-- The effect of READ-DOMAIN (R37). -/
def takeReadDomain (domain : Nat) (s : State) : Taken :=
  if h : domain < 8 then
    let b := s.bucket (floodBucket ⟨domain, h⟩)
    taken false (domainBytes (s.domain ⟨domain, h⟩) ++ be1 b.rate ++ be2 b.burst ++ creditBytes b) s
  else refuse .badArgument s

/-- READ-DOMAIN (R37). -/
def execReadDomain (domain : Nat) (s : State) : Outcome :=
  .next (takeCommand (.readDomain domain) (fun _ => takeReadDomain domain) s)

end Sys2Proof.Machine
end

