-- ==== Sys2Proof/Machine/StationCommands.lean ====
section
/-! DEFINITION. The management commands taken at the Station Table: SET-STATION, CLEAR-STATION, READ-STATION,
LIST-STATIONS and SET-LEARNING. -/

namespace Sys2Proof.Machine

/-- A static record is written for a SID at a place, and any dynamic record for it removed (R44). -/
def writeStatic (sid : Sid) (q : QPort) (k : Nat) (s : State) : Taken :=
  taken false (be2 k ++ be1 q.val ++ flagByte (findDynamic s sid).isSome)
    (removeDynamicOf sid
      (s.setStt { s.stt with statics := Table.put s.stt.statics k { sid := sid, binding := .static q } }))

/-- The effect of SET-STATION (R44). -/
def takeSetStation (sid : Sid) (port : Nat) (s : State) : Taken :=
  match quayOfCode port with
  | none => refuse .badArgument s
  | some q =>
    match findStatic s sid with
    | some (_, { binding := .crane _, .. }) => refuse .conflict s
    | some (k, { binding := .static _, .. }) => writeStatic sid q k s
    | none =>
      match Table.lowestFree s.stt.statics Config.staticPlaces with
      | none => refuse .tableFull s
      | some k => writeStatic sid q k s

/-- SET-STATION (R44). -/
def execSetStation (sid : Sid) (port : Nat) (s : State) : Outcome :=
  .next (takeCommand (.setStation sid port) (fun _ => takeSetStation sid port) s)

/-- The effect of CLEAR-STATION (R45). -/
def takeClearStation (sid : Sid) (s : State) : Taken :=
  match findStatic s sid with
  | some (_, { binding := .crane _, .. }) => refuse .conflict s
  | some (k, { binding := .static _, .. }) =>
    taken false (be1 0 ++ be2 k) (s.setStt { s.stt with statics := Table.erase s.stt.statics k })
  | none =>
    match findDynamic s sid with
    | none => refuse .notFound s
    | some (k, _) => taken false (be1 2 ++ be2 k) (removeDynamic k s)

/-- CLEAR-STATION (R45). -/
def execClearStation (sid : Sid) (s : State) : Outcome :=
  .next (takeCommand (.clearStation sid) (fun _ => takeClearStation sid) s)

/-- The effect of READ-STATION (R46). -/
def takeReadStation (sid : Sid) (s : State) : Taken :=
  match findStatic s sid with
  | some (k, r) => taken false (staticBytes s k r) s
  | none =>
    match findDynamic s sid with
    | some (k, r) => taken false (dynamicBytes k r) s
    | none => refuse .notFound s

/-- READ-STATION (R46). -/
def execReadStation (sid : Sid) (s : State) : Outcome :=
  .next (takeCommand (.readStation sid) (fun _ => takeReadStation sid) s)

/-- The result of a list of records with their places (R46, R119; its layout: log 13): as many whole records as
fit in the room, the number returned and the resume place. PARTIAL when not every record fits; nothing is returned
when the fixed part does not fit. -/
def listResult (records : List (Nat × List Byte)) (start size room : Nat) (s : State) : Taken :=
  if room < 6 then { status := .partialFit, result := [], state := s }
  else
    let n := fitCount (room - 6) (records.map Prod.snd)
    let got := records.take n
    if n = records.length then
      taken false (listBytes (got.map Prod.snd) ++ be2 n ++ be2 size) s
    else
      { status := .partialFit
        result := listBytes (got.map Prod.snd) ++ be2 n ++
          be2 (match got.getLast? with
            | none => start
            | some e => e.1 + 1)
        state := s }

/-- The effect of LIST-STATIONS (R46), with the room that remains in the reply. -/
def takeListStations (collection start room : Nat) (s : State) : Taken :=
  if collection = 0 then
    if Config.staticPlaces ≤ start then refuse .badArgument s
    else
      listResult ((s.stt.statics.filter (fun e => decide (start ≤ e.1))).map (fun e => (e.1, staticBytes s e.1 e.2)))
        start Config.staticPlaces room s
  else if collection = 1 then
    if Config.dynamicPlaces ≤ start then refuse .badArgument s
    else
      listResult ((s.stt.dynamics.filter (fun e => decide (start ≤ e.1))).map (fun e => (e.1, dynamicBytes e.1 e.2)))
        start Config.dynamicPlaces room s
  else refuse .badArgument s

/-- LIST-STATIONS (R46). -/
def execListStations (collection start : Nat) (s : State) : Outcome :=
  .next (takeCommand (.listStations collection start) (takeListStations collection start) s)

/-- The result of SET-LEARNING (R51). -/
def learningBytes (t : Stt) : List Byte :=
  be1 t.margin ++ be2 t.agingPeriod ++ be2 t.statics.length ++ be2 t.dynamics.length ++ t.stats.bytes

/-- The effect of SET-LEARNING (R51): the result is read before any clearing. -/
def takeSetLearning (margin period clear : Nat) (s : State) : Taken :=
  let t := { s.stt with
    margin := keepOr 255 0 7 s.stt.margin margin, agingPeriod := keepOr 0 10 3600 s.stt.agingPeriod period }
  taken (clampsUnless 255 0 7 margin || clampsUnless 0 10 3600 period) (learningBytes t)
    (s.setStt (if flagSet clear then { t with stats := .zero } else t))

/-- SET-LEARNING (R51). -/
def execSetLearning (margin period clear : Nat) (s : State) : Outcome :=
  .next (takeCommand (.setLearning margin period clear) (fun _ => takeSetLearning margin period clear) s)

end Sys2Proof.Machine
end

