-- ==== Sys2Proof/Machine/CraneCommands.lean ====
section
/-! DEFINITION. The management commands taken at the Crane Link Supervisor: SET-CRANE, CLEAR-CRANE and
READ-CRANE; and the reprogramming of a bucket, which SET-CRANE shares with SET-RATE. -/

namespace Sys2Proof.Machine

/-- The rate code a bucket stores (R154, R155). -/
def storedRate (n : Nat) : Nat := min 240 n

/-- The burst a bucket stores (R155). -/
def storedBurst (n : Nat) : Nat := max 64 n

/-- A bucket after its three values are written (R154): a credit above the new largest credit is lowered to it. -/
def Bucket.reprogram (x : Bucket) (rate burst : Nat) (overhead : Bool) : Bucket :=
  let y := { x with rate := storedRate rate, burst := storedBurst burst, overhead := overhead }
  { y with credit := min x.credit y.cmax }

/-! ## SET-CRANE -/

/-- The configuration SET-CRANE stores (R63 step 4). -/
def craneConfig (sid : Sid) (peer : Option Sid) (home : QPort) (period late lapse hold : Nat) : LinkConfig :=
  let k := clampTo 1 8 late
  { sid := sid, peer := peer, home := home, period := min 250 period, late := k
    lapse := clampTo (k + 1) 16 lapse, hold := clampTo 1 32 hold }

/-- Whether step 4 of R63 changes a value. -/
def craneClamped (c : LinkConfig) (period late lapse hold rate burst : Nat) : Bool :=
  c.period != period || c.late != late || c.lapse != lapse || c.hold != hold || storedRate rate != rate ||
    storedBurst burst != burst

/-- A link after its binding (R64). -/
def Link.bound (c : LinkConfig) : Link :=
  { state := .waiting, config := c, missed := 0, cycle := none, position := none, segment := none
    primary := c.home, context := none, reverted := none, slot := none, counts := .zero, timer := none }

/-- What SET-CRANE answers when it is accepted: the configuration as stored, with the link's state after the
command (R63). -/
def craneTaken (l : LinkNo) (clamped : Bool) (s : State) : Taken :=
  taken clamped (linkConfigBytes (s.link l).config (s.bucket (linkBucket l)) ++ be1 (s.link l).state.code) s

/-- An accepted SET-CRANE binds an UNBOUND link (R64). CRANE-UNCOVERED is presented after the STATION-FULL of the bind
(log 44). -/
def bindLink (l : LinkNo) (c : LinkConfig) (rate burst overhead : Nat) (s : State) : State :=
  let b := (s.bucket (linkBucket l)).reprogram rate burst (flagSet overhead)
  presentUncovered ((s.setLink l (Link.bound c)).setBucket (linkBucket l) { b with credit := b.cmax })

/-- An accepted SET-CRANE updates a bound link (R65). CRANE-UNCOVERED is worked out again when the home port
changes (R100). -/
def updateLink (l : LinkNo) (c : LinkConfig) (rate burst overhead : Nat) (s : State) : State :=
  let x := s.link l
  let s1 := (s.setLink l { x with config := c }).setBucket (linkBucket l)
    ((s.bucket (linkBucket l)).reprogram rate burst (flagSet overhead))
  if c.home = x.config.home then s1 else presentUncovered s1

/-- SET-CRANE on an UNBOUND link, after its argument checks (R63 steps 3 to 5). -/
def takeBinding (l : LinkNo) (c : LinkConfig) (clamped : Bool) (rate burst overhead : Nat) (s : State) : Taken :=
  match classify s.idc c.sid with
  | none => refuse .conflict s
  | some k =>
    if k.options.crane = false then refuse .conflict s
    else
      match bindStation c.sid l s with
      | .otherLink => refuse .conflict s
      | .full => refuse .tableFull s
      | .bound s1 => craneTaken l clamped (bindLink l c rate burst overhead s1)

/-- The effect of SET-CRANE (R63, R64, R65). -/
def takeSetCrane (link : Nat) (sid : Sid) (peerFlag : Nat) (peer : Sid)
    (home period late lapse hold rate burst overhead : Nat) (s : State) : Taken :=
  if h : link < 24 then
    match quayOfCode home with
    | none => refuse .badArgument s
    | some q =>
      if period = 0 ∨ 1 < peerFlag ∨ sid = 0 ∨ (peerFlag = 1 ∧ peer = 0) then refuse .badArgument s
      else
        let l : LinkNo := ⟨link, h⟩
        let c := craneConfig sid (if peerFlag = 1 then some peer else none) q period late lapse hold
        let clamped := craneClamped c period late lapse hold rate burst
        if (s.link l).state = .unbound then takeBinding l c clamped rate burst overhead s
        else if (s.link l).config.sid = sid then craneTaken l clamped (updateLink l c rate burst overhead s)
        else refuse .conflict s
  else refuse .badArgument s

/-- SET-CRANE (R63). -/
def execSetCrane (link : Nat) (sid : Sid) (peerFlag : Nat) (peer : Sid)
    (home period late lapse hold rate burst overhead : Nat) (s : State) : Outcome :=
  .next (takeCommand (.setCrane link sid peerFlag peer home period late lapse hold rate burst overhead)
    (fun _ => takeSetCrane link sid peerFlag peer home period late lapse hold rate burst overhead) s)

/-! ## CLEAR-CRANE -/

/-- A link after its unbinding, with its counts kept (R66). -/
def Link.unbound (x : Link) : Link := { Link.hard with counts := x.counts }

/-- A bound link is unbound (R66): its span, if one is counted, is removed, and the STT unbinds its SID. The events in
flight to the link stay in flight (log 37). -/
def unbindLink (l : LinkNo) (s : State) : State :=
  let x := s.link l
  let s1 := if x.state.spans then sendSpanFor .remove x.segment s else s
  presentUncovered ((unbindStation x.config.sid s1).setLink l x.unbound)

/-- The effect of CLEAR-CRANE (R66). -/
def takeClearCrane (link : Nat) (s : State) : Taken :=
  if h : link < 24 then
    if (s.link ⟨link, h⟩).state = .unbound then refuse .notFound s
    else taken false [] (unbindLink ⟨link, h⟩ s)
  else refuse .badArgument s

/-- CLEAR-CRANE (R66). -/
def execClearCrane (link : Nat) (s : State) : Outcome :=
  .next (takeCommand (.clearCrane link) (fun _ => takeClearCrane link) s)

/-! ## READ-CRANE -/

/-- The time a hold timer still has to run, in ms: not determined by the model, and at most the period the timer
began with (free value, log 9; R67, R91). -/
def holdRemaining (s : State) (h : Handover) : Nat := Config.holdRemaining s.freeUse % (h.timer + 1)

/-- A handover context as a result carries it (R67). -/
def contextBytes (s : State) (h : Handover) : List Byte := be1 h.old.val ++ be1 h.new.val ++ be2 (holdRemaining s h)

/-- The record of a bound link as READ-CRANE gives it (R67). Missed takes one byte (log 48). -/
def boundLinkBytes (s : State) (l : LinkNo) : List Byte :=
  let x := s.link l
  be1 x.state.code ++ linkConfigBytes x.config (s.bucket (linkBucket l)) ++ be1 x.missed ++
    optBytes 1 be1 x.cycle ++ optBytes 2 be2 x.position ++ optBytes 1 be1 x.segment ++
    optBytes 1 (fun q => be1 q.val) x.reverted ++ be1 x.primary.val ++ optBytes 4 (contextBytes s) x.context ++
    optBytes 2 (fun f => be2 f.length) x.slot ++ x.counts.bytes ++ creditBytes (s.bucket (linkBucket l))

/-- An UNBOUND link as READ-CRANE gives it (R67; every field but the state and the counts at its full width as 0:
log 12). -/
def unboundLinkBytes (x : Link) : List Byte :=
  be1 x.state.code ++ List.replicate 38 0 ++ x.counts.bytes ++ List.replicate 4 0

/-- The effect of READ-CRANE (R67). A read of a hold timer uses a free value up. -/
def takeReadCrane (link clear : Nat) (s : State) : Taken :=
  if h : link < 24 then
    let l : LinkNo := ⟨link, h⟩
    let s1 := if flagSet clear then s.linkCounts l (fun _ => .zero) else s
    if (s.link l).state = .unbound then taken false (unboundLinkBytes (s.link l)) s1
    else
      taken false (boundLinkBytes s l)
        (if (s.link l).context.isSome then { s1 with freeUse := s1.freeUse + 1 } else s1)
  else refuse .badArgument s

/-- READ-CRANE (R67). -/
def execReadCrane (link clear : Nat) (s : State) : Outcome :=
  .next (takeCommand (.readCrane link clear) (fun _ => takeReadCrane link clear) s)

end Sys2Proof.Machine
end

