-- ==== Sys2Proof/Machine/MapCommands.lean ====
section
/-! DEFINITION. The management commands taken at the Coverage Map, but for COMMIT-MAP: SET-GEOMETRY, SET-WINDOW,
STREAM-CELLS, READ-CELLS, COPY-ACTIVE and SET-EPOCH. -/

namespace Sys2Proof.Machine

/-! ## SET-GEOMETRY and SET-WINDOW -/

/-- The geometry SET-GEOMETRY stores (R9). -/
def storedGeometry (origin length hysteresis : Nat) : Geometry :=
  { origin := origin, length := clampTo 50 1000 length, hysteresis := min 255 hysteresis }

/-- The effect of SET-GEOMETRY (R9). -/
def takeSetGeometry (origin length hysteresis : Nat) (s : State) : Taken :=
  let g := storedGeometry origin length hysteresis
  taken (g.length != length || g.hysteresis != hysteresis) (geometryBytes g)
    (s.setCvm (s.cvm.setShadow { s.cvm.shadow with geometry := g }))

/-- SET-GEOMETRY (R9). -/
def execSetGeometry (origin length hysteresis : Nat) (s : State) : Outcome :=
  .next (takeCommand (.setGeometry origin length hysteresis)
    (fun _ => takeSetGeometry origin length hysteresis) s)

/-- The effect of SET-WINDOW (R5). -/
def takeSetWindow (segStart segEnd laneStart laneEnd order direction : Nat) (s : State) : Taken :=
  if 1 < order ∨ 1 < direction then refuse .badArgument s
  else if min 255 segEnd < segStart ∨ min 7 laneEnd < laneStart then refuse .windowInvalid s
  else
    let w : Window :=
      { segStart := segStart, segEnd := min 255 segEnd, laneStart := laneStart, laneEnd := min 7 laneEnd
        order := if order = 0 then .laneFirst else .segmentFirst
        direction := if direction = 0 then .ascending else .descending }
    taken (w.segEnd != segEnd || w.laneEnd != laneEnd) (windowBytes w)
      (s.setCvm { s.cvm with window := w, writeCursor := none, readCursor := none })

/-- SET-WINDOW (R5). -/
def execSetWindow (segStart segEnd laneStart laneEnd order direction : Nat) (s : State) : Outcome :=
  .next (takeCommand (.setWindow segStart segEnd laneStart laneEnd order direction)
    (fun _ => takeSetWindow segStart segEnd laneStart laneEnd order direction) s)

/-! ## STREAM-CELLS -/

/-- A walk through the window under way: the bank written, the position reached and the wraps counted (R7). -/
structure Streaming where
  bank     : Bank
  position : Nat × Nat
  wraps    : Nat
  deriving DecidableEq, Repr

/-- One value is stored at the current position, which then advances (R7 step 2). -/
def Streaming.store (w : Window) (x : Streaming) (v : CellValue) : Streaming :=
  let a := w.advance x.position
  { bank := x.bank.writeCell x.position.1 x.position.2 (storedCell v), position := a.1
    wraps := x.wraps + (if a.2 then 1 else 0) }

/-- The values of a command are stored in the order carried (R7). -/
def streamValues (w : Window) (bank : Bank) (start : Nat × Nat) (values : List CellValue) : Streaming :=
  values.foldl (Streaming.store w) { bank := bank, position := start, wraps := 0 }

/-- A cursor's position as a result carries it: its segment and its lane, a byte each (R7). -/
def positionBytes (p : Nat × Nat) : List Byte := be1 p.1 ++ be1 p.2

/-- The effect of STREAM-CELLS (R7). -/
def takeStreamCells (cont count : Nat) (values : List CellValue) (s : State) : Taken :=
  if count = 0 ∨ 64 < count then refuse .badArgument s
  else
    let c := s.cvm
    let x := streamValues c.window c.shadow (startingCell c.window cont c.writeCursor) values
    taken (values.any cellClamped) (be2 count ++ be2 x.wraps ++ positionBytes x.position)
      (s.setCvm { c.setShadow x.bank with writeCursor := some x.position })

/-- STREAM-CELLS (R7). -/
def execStreamCells (cont count : Nat) (values : List CellValue) (s : State) : Outcome :=
  .next (takeCommand (.streamCells cont count values) (fun _ => takeStreamCells cont count values) s)

/-! ## READ-CELLS -/

/-- What a walk of reads has found: the cells in the order read, the position reached and the wraps counted
(R8). -/
structure Reading where
  cells    : List Cell
  position : Nat × Nat
  wraps    : Nat
  deriving DecidableEq, Repr

/-- `n` cells of a bank are read in window order from a position (R8). -/
def readWindow (w : Window) (bank : Bank) : Nat → Nat × Nat → Reading
  | 0, p => { cells := [], position := p, wraps := 0 }
  | n + 1, p =>
    let a := w.advance p
    let r := readWindow w bank n a.1
    { r with cells := bank.cell p.1 p.2 :: r.cells, wraps := r.wraps + (if a.2 then 1 else 0) }

/-- The bank of a bank selector: 0 for ACTIVE, 1 for SHADOW (R180). -/
def selectedBank (c : Cvm) (selector : Nat) : Bank := if selector = 0 then c.active else c.shadow

/-- The number of the bank of a bank selector (R8). -/
def selectedNumber (c : Cvm) (selector : Nat) : Nat :=
  if selector = 0 then (if c.activeIsOne then 1 else 0) else (if c.activeIsOne then 0 else 1)

/-- The result of READ-CELLS (R8, R180). -/
def readCellsBytes (c : Cvm) (selector : Nat) (r : Reading) : List Byte :=
  be1 (selectedNumber c selector) ++ flagByte c.valid ++ geometryBytes (selectedBank c selector).geometry ++
    be2 r.cells.length ++ be2 r.wraps ++ r.cells.flatMap cellBytes

/-- The effect of READ-CELLS (R8), with the room that remains in the reply: as many whole cells as fit. -/
def takeReadCells (selector cont count room : Nat) (s : State) : Taken :=
  if 1 < selector ∨ count = 0 ∨ 256 < count then refuse .badArgument s
  else if room < 12 then { status := .partialFit, result := [], state := s }
  else
    let c := s.cvm
    let n := min count ((room - 12) / 2)
    let r := readWindow c.window (selectedBank c selector) n (startingCell c.window cont c.readCursor)
    { status := if n = count then .ok else .partialFit
      result := readCellsBytes c selector r
      state := if n = 0 then s else s.setCvm { c with readCursor := some r.position } }

/-- READ-CELLS (R8). -/
def execReadCells (selector cont count : Nat) (s : State) : Outcome :=
  .next (takeCommand (.readCells selector cont count) (takeReadCells selector cont count) s)

/-! ## COPY-ACTIVE and SET-EPOCH -/

/-- The effect of COPY-ACTIVE (R10). -/
def takeCopyActive (s : State) : Taken := taken false [] (s.setCvm (s.cvm.setShadow s.cvm.active))

/-- COPY-ACTIVE (R10). -/
def execCopyActive (s : State) : Outcome := .next (takeCommand .copyActive (fun _ => takeCopyActive) s)

/-- The effect of SET-EPOCH (R11): the interval in progress is left as it is. -/
def takeSetEpoch (period : Nat) (s : State) : Taken :=
  let e := clampTo 10 1000 period
  taken (e != period) (be2 e) (s.setCvm { s.cvm with epochPeriod := e })

/-- SET-EPOCH (R11). -/
def execSetEpoch (period : Nat) (s : State) : Outcome :=
  .next (takeCommand (.setEpoch period) (fun _ => takeSetEpoch period) s)

end Sys2Proof.Machine
end

