-- ==== Sys2Proof/Machine/ReeferCommands.lean ====
section
/-! DEFINITION. The management commands taken at the Reefer Consolidator: SET-REEFER, READ-REEFER, LIST-REEFERS
and FORGET-REEFER. -/

namespace Sys2Proof.Machine

/-! ## SET-REEFER -/

/-- The batch domain after a code 0..7, or 255 to keep; any other names none (R106). -/
def domainOfCode (n : Nat) (present : Fin 8) : Option (Fin 8) :=
  if h : n < 8 then some ⟨n, h⟩ else if n = 255 then some present else none

/-- Whether SET-REEFER brings a numeric value into its range (R106 step 2). -/
def reeferClamped (threshold base margin batch report : Nat) : Bool :=
  clampsUnless 0 1 50 threshold || clampsUnless 0 1 8 base || clampsUnless 0 1 8 margin ||
    clampsUnless 0 1 60 batch || clampsUnless 0 10 600 report

/-- The result of SET-REEFER (R106). -/
def reeferSettingsBytes (r : Rcn) : List Byte := r.settings.bytes ++ be2 r.reefers.length ++ r.stats.bytes

/-- The effect of SET-REEFER (R106): the result is read before any clearing. -/
def takeSetReefer (threshold base margin batch report retire domain clear : Nat) (s : State) : Taken :=
  let x := s.rcn.settings
  match flagOfCode retire x.retire, domainOfCode domain x.domain with
  | some t, some d =>
    let r := { s.rcn with settings :=
      { threshold := keepOr 0 1 50 x.threshold threshold
        allowance := keepOr 0 1 8 x.allowance base
        silentMargin := keepOr 0 1 8 x.silentMargin margin
        reportPeriod := keepOr 0 10 600 x.reportPeriod report
        batchPeriod := keepOr 0 1 60 x.batchPeriod batch
        retire := t, domain := d } }
    taken (reeferClamped threshold base margin batch report) (reeferSettingsBytes r)
      (s.setRcn (if flagSet clear then { r with stats := .zero } else r))
  | _, _ => refuse .badArgument s

/-- SET-REEFER (R106; the order of its arguments: log 16). -/
def execSetReefer (threshold base margin batch report retire domain clear : Nat) (s : State) : Outcome :=
  .next (takeCommand (.setReefer threshold base margin batch report retire domain clear)
    (fun _ => takeSetReefer threshold base margin batch report retire domain clear) s)

/-! ## READ-REEFER and LIST-REEFERS -/

/-- The record of a reefer as READ-REEFER gives it (R118). Missed takes one byte (log 48). -/
def reeferBytes (s : State) (k : Nat) (r : Reefer) : List Byte :=
  let x := r.readings
  be2 k ++ be1 r.state.code ++ be1 x.unit.code ++ optBytes 1 be1 x.segment ++ optBytes 1 be1 x.lane ++
    optBytes 2 signed2 x.setpoint ++ optBytes 2 signed2 x.supply ++ optBytes 2 signed2 x.ret ++
    listBytes (x.alarms.map (fun c => [c])) ++ be2 x.counter ++ be1 r.missed ++ flagByte r.heard ++
    be2 (secondsSince s r.stamp) ++ r.place.bytes ++ be1 (allowance s x) ++ be1 (silentThreshold s x)

/-- The effect of READ-REEFER (R118). -/
def takeReadReefer (sid : Sid) (s : State) : Taken :=
  match findReefer s sid with
  | none => refuse .notFound s
  | some (k, r) => taken false (reeferBytes s k r) s

/-- READ-REEFER (R118). -/
def execReadReefer (sid : Sid) (s : State) : Outcome :=
  .next (takeCommand (.readReefer sid) (fun _ => takeReadReefer sid) s)

/-- A state filter admits a record (R119). -/
def filterAdmits (code : Nat) (r : Reefer) : Bool :=
  match code with
  | 0 => true
  | 1 => r.state == .reporting
  | 2 => r.state == .overdue
  | 3 => r.state == .silent
  | 4 => r.state == .overdue || r.state == .silent
  | 5 => !r.readings.alarms.isEmpty
  | _ => false

/-- The first code of an alarm list, when there is one (R119; log 14). -/
def firstAlarmBytes : List Byte → List Byte
  | [] => []
  | c :: _ => [c]

/-- The short form of a reefer's record (R119). Missed takes one byte (log 48). -/
def reeferShortBytes (s : State) (k : Nat) (r : Reefer) : List Byte :=
  let x := r.readings
  be2 k ++ sidBytes r.sid ++ be1 r.state.code ++ be1 x.unit.code ++ optBytes 1 be1 x.segment ++
    optBytes 1 be1 x.lane ++ be2 x.alarms.length ++ firstAlarmBytes x.alarms ++ be1 r.missed ++
    be2 (secondsSince s r.stamp)

/-- The effect of LIST-REEFERS (R119), with the room that remains in the reply. -/
def takeListReefers (start filter room : Nat) (s : State) : Taken :=
  if Config.reeferPlaces ≤ start ∨ 5 < filter then refuse .badArgument s
  else
    listResult
      ((s.rcn.reefers.filter (fun e => decide (start ≤ e.1) && filterAdmits filter e.2)).map
        (fun e => (e.1, reeferShortBytes s e.1 e.2)))
      start Config.reeferPlaces room s

/-- LIST-REEFERS (R119). -/
def execListReefers (start filter : Nat) (s : State) : Outcome :=
  .next (takeCommand (.listReefers start filter) (takeListReefers start filter) s)

/-! ## FORGET-REEFER -/

/-- The entry at an index takes the entry state RETIRED (R120 step 1). -/
def retireEntry (i : Nat) (b : Buffer) : Buffer :=
  { b with entries := b.entries.modify i (fun e => { e with state := .retired }) }

/-- The consolidator after a record's entry in the FILLING buffer, if it has one, is marked (R120 steps 1 and
2). -/
def Rcn.markForgotten (r : Rcn) (place : BatchPlace) : Rcn :=
  match place with
  | .inFilling i => r.setFilling (retireEntry i r.filling)
  | .none | .unsent => r

/-- The effect of FORGET-REEFER (R120). -/
def takeForgetReefer (sid : Sid) (s : State) : Taken :=
  match findReefer s sid with
  | none => refuse .notFound s
  | some (k, r) =>
    taken false (be2 k ++ r.place.bytes)
      (removeReefer k ((s.setRcn (s.rcn.markForgotten r.place)).rcnStats
        (fun x => { x with forgets := countUp x.forgets 1 })))

/-- FORGET-REEFER (R120). -/
def execForgetReefer (sid : Sid) (s : State) : Outcome :=
  .next (takeCommand (.forgetReefer sid) (fun _ => takeForgetReefer sid) s)

end Sys2Proof.Machine
end

