-- ==== Sys2Proof/Machine/QueueCommands.lean ====
section
/-! DEFINITION. The management commands taken at the Frame Store and Queues: SET-RATE, SET-QUEUE, SET-SCHED and
SET-RESERVE. -/

namespace Sys2Proof.Machine

/-! ## SET-RATE -/

/-- The bucket of a kind code and an index (R149). -/
def bucketOfCode (kind index : Nat) : Option BucketNo :=
  if h : kind = 0 ∧ index < 48 then some ⟨index, by omega⟩
  else if h : kind = 1 ∧ index < 24 then some ⟨48 + index, by omega⟩
  else if h : kind = 2 ∧ index < 8 then some ⟨72 + index, by omega⟩
  else if kind = 3 ∧ index = 0 then some 80
  else if h : kind = 4 ∧ index < 56 then some ⟨81 + index, by omega⟩
  else none

/-- The result of SET-RATE (R155). -/
def rateBytes (kind index : Nat) (x : Bucket) : List Byte :=
  be1 kind ++ be1 index ++ be1 x.rate ++ be2 x.burst ++ flagByte x.overhead ++ creditBytes x

/-- A bucket is written (R154); a write of a shaper prompts a selection at its port (R144). -/
def writeRate (b : BucketNo) (rate burst overhead : Nat) (s : State) : State :=
  let s1 := s.setBucket b ((s.bucket b).reprogram rate burst (flagSet overhead))
  match shaperPort b with
  | none => s1
  | some p => select p s1

/-- The effect of SET-RATE (R155). -/
def takeSetRate (kind index write rate burst overhead : Nat) (s : State) : Taken :=
  match bucketOfCode kind index with
  | none => refuse .badArgument s
  | some b =>
    if write = 0 then taken false (rateBytes kind index (s.bucket b)) s
    else if 1 < write ∨ 1 < overhead then refuse .badArgument s
    else
      let s1 := writeRate b rate burst overhead s
      taken (storedRate rate != rate || storedBurst burst != burst) (rateBytes kind index (s1.bucket b)) s1

/-- SET-RATE (R144, R154, R155). -/
def execSetRate (kind index write rate burst overhead : Nat) (s : State) : Outcome :=
  .next (takeCommand (.setRate kind index write rate burst overhead)
    (fun _ => takeSetRate kind index write rate burst overhead) s)

/-! ## SET-QUEUE and SET-SCHED -/

/-- The result of SET-QUEUE (R140). -/
def queueBytes (q : Queue) (sending : Option QClass) : List Byte :=
  be2 q.limit ++ be2 q.cellCount ++ be2 q.entries.length ++ be1 (if sending.isSome then 1 else 0)

/-- The effect of SET-QUEUE (R140). -/
def takeSetQueue (port queue limit : Nat) (s : State) : Taken :=
  match portOfCode port, queueOfCode queue with
  | some p, some cls =>
    let x := s.queues p
    let q : Queue := { x.get cls with limit := keepOr 65535 0 4096 (x.get cls).limit limit }
    taken (clampsUnless 65535 0 4096 limit) (queueBytes q x.sending) (s.setQueues p (x.set cls q))
  | _, _ => refuse .badArgument s

/-- SET-QUEUE (R140). -/
def execSetQueue (port queue limit : Nat) (s : State) : Outcome :=
  .next (takeCommand (.setQueue port queue limit) (fun _ => takeSetQueue port queue limit) s)

/-- The result of SET-SCHED (R145). The codes of the turn are those of log 18, and the served count takes one byte
(log 48). -/
def schedBytes (x : PortQueues) : List Byte :=
  be1 x.weightB ++ be1 x.weightD ++ be1 (if x.turn = .b then 0 else 1) ++ be1 x.served

/-- The effect of SET-SCHED (R145): the turn and the served count are left as they stand. -/
def takeSetSched (port weightB weightD : Nat) (s : State) : Taken :=
  match portOfCode port with
  | none => refuse .badArgument s
  | some p =>
    let x := s.queues p
    let y := { x with
      weightB := keepOr 0 1 15 x.weightB weightB, weightD := keepOr 0 1 15 x.weightD weightD }
    taken (clampsUnless 0 1 15 weightB || clampsUnless 0 1 15 weightD) (schedBytes y) (s.setQueues p y)

/-- SET-SCHED (R145). -/
def execSetSched (port weightB weightD : Nat) (s : State) : Outcome :=
  .next (takeCommand (.setSched port weightB weightD) (fun _ => takeSetSched port weightB weightD) s)

/-! ## SET-RESERVE -/

/-- The result of SET-RESERVE (R139). -/
def reserveBytes (s : State) : List Byte :=
  be2 s.fsq.reserve ++ be2 s.fsq.free ++ be2 s.fsq.store.length ++ flagByte (poolLow s) ++ be4 s.fsq.overBurst

/-- The effect of SET-RESERVE (R139): POOL-LOW is worked out again, and the result is read before any
clearing. -/
def takeSetReserve (reserve clear : Nat) (s : State) : Taken :=
  let s1 := s.setFsq { s.fsq with reserve := min 1024 reserve }
  taken (min 1024 reserve != reserve) (reserveBytes s1)
    (presentPoolLow (if flagSet clear then s1.setFsq { s1.fsq with overBurst := 0 } else s1))

/-- SET-RESERVE (R139). -/
def execSetReserve (reserve clear : Nat) (s : State) : Outcome :=
  .next (takeCommand (.setReserve reserve clear) (fun _ => takeSetReserve reserve clear) s)

end Sys2Proof.Machine
end

