-- ==== Sys2Proof/Machine/NoticeCommands.lean ====
section
/-! DEFINITION. The management commands taken at the Counter Block and the Notice Unit: READ-COUNTERS, SET-NOTICE,
SET-NOTICE-DEST, READ-NOTICE and CLEAR-NOTICE. -/

namespace Sys2Proof.Machine

/-! ## READ-COUNTERS -/

/-- A group of counters (R166). -/
inductive CounterGroup where
  | port (p : Port)
  | drops
  deriving DecidableEq, Repr

/-- The groups of a selector, in order; none for a selector above 16 (R166). -/
def groupsOfSelector (n : Nat) : Option (List CounterGroup) :=
  if h : n < 14 then some [.port ⟨n, h⟩]
  else if n = 14 then some ((List.finRange 14).map .port)
  else if n = 15 then some [.drops]
  else if n = 16 then some ((List.finRange 14).map .port ++ [.drops])
  else none

/-- The set of the counters of a port whose wrap flags are set; bit k is counter k (R166, R180). -/
def wrappedSet (x : Vector Counter 12) : Nat :=
  (List.finRange 12).foldl (fun n k => if (x.get k).wrapped then n + 2 ^ k.val else n) 0

/-- A group as a result carries it (R166). -/
def CounterGroup.bytes (c : Ctb) : CounterGroup → List Byte
  | .port p => be1 p.val ++ (c.ports.get p).toList.flatMap (fun x => be4 x.value) ++ be2 (wrappedSet (c.ports.get p))
  | .drops => c.drops.toList.flatMap be4

/-- The counters with a group set to 0 (R166). -/
def clearGroup (c : Ctb) : CounterGroup → Ctb
  | .port p => { c with ports := vset c.ports p (Vector.replicate 12 ⟨0, false⟩) }
  | .drops => { c with drops := Vector.replicate 20 0 }

/-- The effect of READ-COUNTERS (R166), with the room that remains in the reply: as many whole groups as fit, and
only those are cleared. -/
def takeReadCounters (selector clear room : Nat) (s : State) : Taken :=
  match groupsOfSelector selector with
  | none => refuse .badArgument s
  | some groups =>
    if 1 < clear then refuse .badArgument s
    else if room < 2 then { status := .partialFit, result := [], state := s }
    else
      let n := fitCount (room - 2) (groups.map (CounterGroup.bytes s.ctb))
      let got := groups.take n
      { status := if n = groups.length then .ok else .partialFit
        result := listBytes (got.map (CounterGroup.bytes s.ctb))
        state := if clear = 1 then s.setCtb (got.foldl clearGroup s.ctb) else s }

/-- READ-COUNTERS (R166). -/
def execReadCounters (selector clear : Nat) (s : State) : Outcome :=
  .next (takeCommand (.readCounters selector clear) (takeReadCounters selector clear) s)

/-! ## The sources a command names -/

/-- The sources of a source number: 0..23, or 255 for every source, in ascending order; any other names none
(R161, R162, R163). -/
def sourcesOfCode (n : Nat) : Option (List SourceNo) :=
  if h : n < 24 then some [⟨n, h⟩] else if n = 255 then some (List.finRange 24) else none

/-! ## SET-NOTICE -/

/-- A source's mask and level are written (R161): an unmasking that sets the status issues a notice frame and, at
a level source, starts the holdoff timer; a masking stops it. -/
def writeNotice (masked : Option Bool) (level : Nat) (k : SourceNo) (s : State) : State :=
  let x := s.source k
  let y := { x with masked := masked.getD x.masked, level := keepOr 0 1 7 x.level level }
  if x.status = false ∧ y.status = true then
    issue k (s.setSource k (if isLevelSource k then { y with holdoff := some s.ntu.dest.holdoff } else y))
  else if x.status = true ∧ y.status = false then s.setSource k { y with holdoff := none }
  else s.setSource k y

/-- The mask a mask code writes: 0 unmask, 1 mask, 255 keep; any other is no mask code (R161). -/
def maskOfCode (n : Nat) : Option (Option Bool) :=
  if n = 0 then some (some false) else if n = 1 then some (some true) else if n = 255 then some none else none

/-- The effect of SET-NOTICE (R161). -/
def takeSetNotice (source mask level : Nat) (s : State) : Taken :=
  match sourcesOfCode source, maskOfCode mask with
  | some ks, some m =>
    let s1 := ks.foldl (fun t k => writeNotice m level k t) s
    taken (decide (7 < level)) (listBytes (ks.map (fun k => sourceBytes k (s1.source k)))) s1
  | _, _ => refuse .badArgument s

/-- SET-NOTICE (R159, R161). -/
def execSetNotice (source mask level : Nat) (s : State) : Outcome :=
  .next (takeCommand (.setNotice source mask level) (fun _ => takeSetNotice source mask level) s)

/-! ## SET-NOTICE-DEST -/

/-- The destination becomes present: a notice frame for each source whose status is set (R159 occasion 3). -/
def issueAll (s : State) : State :=
  ((List.finRange 24).filter (fun k => (s.source k).status)).foldl (fun t k => issue k t) s

/-- The effect of SET-NOTICE-DEST (R162). -/
def takeSetNoticeDest (present : Nat) (sid : Sid) (trunk codeBase holdoff : Nat) (s : State) : Taken :=
  if 1 < present ∨ 1 < trunk ∨ (present = 1 ∧ sid = 0) then refuse .badArgument s
  else
    let d : NoticeDest :=
      { sid := if present = 1 then some sid else none, trunk := trunkOfCode trunk, codeBase := codeBase
        holdoff := clampTo 1 60 holdoff }
    let s1 := s.setNtu { s.ntu with dest := d }
    taken (d.holdoff != holdoff) (destBytes d)
      (if s.ntu.dest.sid.isNone && d.sid.isSome then issueAll s1 else s1)

/-- SET-NOTICE-DEST (R159, R162). -/
def execSetNoticeDest (present : Nat) (sid : Sid) (trunk codeBase holdoff : Nat) (s : State) : Outcome :=
  .next (takeCommand (.setNoticeDest present sid trunk codeBase holdoff)
    (fun _ => takeSetNoticeDest present sid trunk codeBase holdoff) s)

/-! ## READ-NOTICE and CLEAR-NOTICE -/

/-- The result of READ-NOTICE (R162). -/
def noticeBytes (ks : List SourceNo) (s : State) : List Byte :=
  listBytes (ks.map (fun k => sourceBytes k (s.source k))) ++ destBytes s.ntu.dest ++ be4 s.ntu.enqueued ++
    be4 s.ntu.lost

/-- The effect of READ-NOTICE (R162). -/
def takeReadNotice (source clear : Nat) (s : State) : Taken :=
  match sourcesOfCode source with
  | none => refuse .badArgument s
  | some ks =>
    if 1 < clear then refuse .badArgument s
    else
      taken false (noticeBytes ks s)
        (if clear = 1 then s.setNtu { s.ntu with enqueued := 0, lost := 0 } else s)

/-- READ-NOTICE (R162). -/
def execReadNotice (source clear : Nat) (s : State) : Outcome :=
  .next (takeCommand (.readNotice source clear) (fun _ => takeReadNotice source clear) s)

/-- A source is cleared when it is an edge source (R163). -/
def clearSource (k : SourceNo) (s : State) : State :=
  if isLevelSource k then s
  else s.setSource k { s.source k with pending := false, count := 0, detail := none }

/-- The effect of CLEAR-NOTICE (R163): the result gives what each edge source named held before. An event count takes
one byte (log 48). -/
def takeClearNotice (source : Nat) (s : State) : Taken :=
  match sourcesOfCode source with
  | none => refuse .badArgument s
  | some ks =>
    taken false
      (listBytes ((ks.filter (fun k => !isLevelSource k)).map
        (fun k => be1 (s.source k).count ++ detailBytes (s.source k).detail)))
      (ks.foldl (fun t k => clearSource k t) s)

/-- CLEAR-NOTICE (R163). -/
def execClearNotice (source : Nat) (s : State) : Outcome :=
  .next (takeCommand (.clearNotice source) (fun _ => takeClearNotice source) s)

end Sys2Proof.Machine
end

