-- ==== Sys2Proof/Machine/Dispatch.lean ====
section
/-! DEFINITION. The meaning of every command: one arm for each constructor of `Instr`, in the order of the table. -/

namespace Sys2Proof.Machine

def exec (i : Instr) (s : State) : Host.Outcome State Fault Refusal :=
  match i with
  | .powerOnReset => Sys2Proof.Machine.execPowerOnReset s
  | .pinReset => Sys2Proof.Machine.execPinReset s
  | .resetEnd msel addr => Sys2Proof.Machine.execResetEnd msel addr s
  | .initializationEnd => Sys2Proof.Machine.execInitializationEnd s
  | .restartInitializationEnd => Sys2Proof.Machine.execRestartInitializationEnd s
  | .phyLossOfLink port => Sys2Proof.Machine.execPhyLossOfLink port s
  | .phyLinkReport port => Sys2Proof.Machine.execPhyLinkReport port s
  | .sttLinkDown port => Sys2Proof.Machine.execSttLinkDown port s
  | .clsLinkDown link port => Sys2Proof.Machine.execClsLinkDown link port s
  | .clsLinkUp link port => Sys2Proof.Machine.execClsLinkUp link port s
  | .fsqLinkDown port => Sys2Proof.Machine.execFsqLinkDown port s
  | .frameReceived port bytes => Sys2Proof.Machine.execFrameReceived port bytes s
  | .addSpan segment => Sys2Proof.Machine.execAddSpan segment s
  | .removeSpan segment => Sys2Proof.Machine.execRemoveSpan segment s
  | .coverageEpochExpiry => Sys2Proof.Machine.execCoverageEpochExpiry s
  | .mapSwappedReevaluation link => Sys2Proof.Machine.execMapSwappedReevaluation link s
  | .supervisionExpiry link => Sys2Proof.Machine.execSupervisionExpiry link s
  | .holdExpiry link => Sys2Proof.Machine.execHoldExpiry link s
  | .agingTimerExpiry => Sys2Proof.Machine.execAgingTimerExpiry s
  | .agingSweepVisit => Sys2Proof.Machine.execAgingSweepVisit s
  | .purgeWalkVisit => Sys2Proof.Machine.execPurgeWalkVisit s
  | .reportPeriodExpiry => Sys2Proof.Machine.execReportPeriodExpiry s
  | .supervisionSweepVisit => Sys2Proof.Machine.execSupervisionSweepVisit s
  | .batchTimerExpiry => Sys2Proof.Machine.execBatchTimerExpiry s
  | .enqueue index => Sys2Proof.Machine.execEnqueue index s
  | .transmissionEnd port => Sys2Proof.Machine.execTransmissionEnd port s
  | .refillExpiry bucket => Sys2Proof.Machine.execRefillExpiry bucket s
  | .holdoffExpiry source => Sys2Proof.Machine.execHoldoffExpiry source s
  | .commandFrameTake => Sys2Proof.Machine.execCommandFrameTake s
  | .ident => Sys2Proof.Machine.execIdent s
  | .setIdent sid => Sys2Proof.Machine.execSetIdent sid s
  | .setPort port mode permission overhead => Sys2Proof.Machine.execSetPort port mode permission overhead s
  | .setGroup group base mask valid => Sys2Proof.Machine.execSetGroup group base mask valid s
  | .setClass group cls base mask valid domain options => Sys2Proof.Machine.execSetClass group cls base mask valid domain options s
  | .readClass group cls => Sys2Proof.Machine.execReadClass group cls s
  | .setDomain domain enabled trunk flood queue => Sys2Proof.Machine.execSetDomain domain enabled trunk flood queue s
  | .readDomain domain => Sys2Proof.Machine.execReadDomain domain s
  | .setStation sid port => Sys2Proof.Machine.execSetStation sid port s
  | .clearStation sid => Sys2Proof.Machine.execClearStation sid s
  | .readStation sid => Sys2Proof.Machine.execReadStation sid s
  | .listStations collection start => Sys2Proof.Machine.execListStations collection start s
  | .setLearning margin period clear => Sys2Proof.Machine.execSetLearning margin period clear s
  | .setCrane link sid peerFlag peer home period late lapse hold rate burst overhead => Sys2Proof.Machine.execSetCrane link sid peerFlag peer home period late lapse hold rate burst overhead s
  | .clearCrane link => Sys2Proof.Machine.execClearCrane link s
  | .readCrane link clear => Sys2Proof.Machine.execReadCrane link clear s
  | .setGeometry origin length hysteresis => Sys2Proof.Machine.execSetGeometry origin length hysteresis s
  | .setWindow segStart segEnd laneStart laneEnd order direction => Sys2Proof.Machine.execSetWindow segStart segEnd laneStart laneEnd order direction s
  | .streamCells cont count values => Sys2Proof.Machine.execStreamCells cont count values s
  | .readCells bank cont count => Sys2Proof.Machine.execReadCells bank cont count s
  | .copyActive => Sys2Proof.Machine.execCopyActive s
  | .commitMap => Sys2Proof.Machine.execCommitMap s
  | .setEpoch period => Sys2Proof.Machine.execSetEpoch period s
  | .setReefer threshold base margin batch report retire domain clear => Sys2Proof.Machine.execSetReefer threshold base margin batch report retire domain clear s
  | .readReefer sid => Sys2Proof.Machine.execReadReefer sid s
  | .listReefers start filter => Sys2Proof.Machine.execListReefers start filter s
  | .forgetReefer sid => Sys2Proof.Machine.execForgetReefer sid s
  | .setRate kind index write rate burst overhead => Sys2Proof.Machine.execSetRate kind index write rate burst overhead s
  | .setQueue port queue limit => Sys2Proof.Machine.execSetQueue port queue limit s
  | .setSched port weightB weightD => Sys2Proof.Machine.execSetSched port weightB weightD s
  | .setReserve reserve clear => Sys2Proof.Machine.execSetReserve reserve clear s
  | .readCounters selector clear => Sys2Proof.Machine.execReadCounters selector clear s
  | .setNotice source mask level => Sys2Proof.Machine.execSetNotice source mask level s
  | .setNoticeDest present sid trunk codeBase holdoff => Sys2Proof.Machine.execSetNoticeDest present sid trunk codeBase holdoff s
  | .readNotice source clear => Sys2Proof.Machine.execReadNotice source clear s
  | .clearNotice source => Sys2Proof.Machine.execClearNotice source s
  | .restart => Sys2Proof.Machine.execRestart s
  | .secondsCounterTick => Sys2Proof.Machine.execSecondsCounterTick s

end Sys2Proof.Machine
end

