-- ==== Sys2Proof/Safety.lean ====
section
/-! DEFINITION. The terms in which claims about the part are stated: the laws that the spec gives each block's
state, and what two states before and after a command have in common. -/

namespace Sys2Proof.Machine

/-! ## What a command finds and leaves -/

/-- The agent is executing a frame and has come to a command, which is taken next at its owner (R170). -/
def Awaits (s : State) (e : Execution) (i : Instr) : Prop :=
  s.mga.phase = .executing e ∧ e.awaited = some i

/-- The second state is the first but for the notice unit, the counters and the enqueues in flight: what counting
drops and raising or presenting notice sources may change. -/
def ReportsOnly (s t : State) : Prop :=
  t = { s with ntu := t.ntu, ctb := t.ctb, flight := { s.flight with enqueues := t.flight.enqueues } }

/-- A per-port counter has risen modulo 2³² (R164). -/
def CounterRises (p : Port) (c : Fin 12) (n : Nat) (s t : State) : Prop :=
  (t.counter p c).value = ((s.counter p c).value + n) % 4294967296

/-- A drop-reason counter has risen, stopping at its maximum (R165). -/
def DropRises (r : Fin 20) (n : Nat) (s t : State) : Prop :=
  t.ctb.drops.get r = min 4294967295 (s.ctb.drops.get r + n)

/-- A drop-reason counter has risen by a number of drops, and is as it was when there is none (R165). -/
def DropRisesBy (r : Fin 20) (n : Nat) (s t : State) : Prop :=
  (n = 0 → t.ctb.drops.get r = s.ctb.drops.get r) ∧ (n ≠ 0 → DropRises r n s t)

/-- A per-port counter has risen by a number of counts, and is as it was when there is none (R164). -/
def CounterRisesBy (p : Port) (c : Fin 12) (n : Nat) (s t : State) : Prop :=
  (n = 0 → t.counter p c = s.counter p c) ∧ (n ≠ 0 → CounterRises p c n s t)

/-- An edge source has taken an event with a detail (R157): the first event since a clear sets pending, the detail
and a count of 1, and a later one raises the count up to 255. -/
def TookEvent (k : SourceNo) (d : Detail) (s t : State) : Prop :=
  t.source k =
    if (s.source k).pending then { s.source k with count := min 255 ((s.source k).count + 1) }
    else { s.source k with pending := true, detail := some d, count := 1 }

/-- No notice frame issued in a state is lost at its port (R159, R160): the destination is absent, or
its trunk port is usable. -/
def NoticesGoOut (s : State) : Prop := s.ntu.dest.sid = none ∨ s.usable s.ntu.dest.trunk.port = true

/-- What the second state has handed on beyond the first is notice frames alone. -/
def HandsOnNotices (s t : State) : Prop :=
  ∃ more, t.flight.enqueues = s.flight.enqueues ++ more ∧ ∀ r ∈ more, r.kind = .notice ∧ r.body.origin = .notice

/-- An edge source has taken an event, and nothing else has changed but what its notice frame changes (R157, R159). -/
structure EventRaised (k : SourceNo) (d : Detail) (s t : State) : Prop where
  event    : TookEvent k d s t
  sources  : ∀ j, j ≠ k → j ≠ 22 → t.source j = s.source j
  counters : ∀ q c, c ≠ 10 → t.counter q c = s.counter q c
  drops    : ∀ r, r ≠ 9 → t.ctb.drops.get r = s.ctb.drops.get r
  handed   : HandsOnNotices s t
  frame    : ReportsOnly s t

/-- A drop has been counted by 1 under its reason and, where one is given, under a counter of its port; nothing else
has changed but what a counter that wraps reports (R164, R165). -/
structure CountsDrop (p : Port) (c : Option (Fin 12)) (r : Fin 20) (s t : State) : Prop where
  port     : ∀ k, c = some k → CounterRises p k 1 s t
  reason   : DropRises r 1 s t
  counters : ∀ q k, k ≠ 10 → (q = p → c ≠ some k) → t.counter q k = s.counter q k
  drops    : ∀ k, k ≠ r → k ≠ 9 → t.ctb.drops.get k = s.ctb.drops.get k
  sources  : ∀ k, k ≠ 22 → t.source k = s.source k
  handed   : HandsOnNotices s t
  frame    : ReportsOnly s t

/-- A frame has been dropped as port down at a port (R58, R69, R78, R81, R113, R117): the drop reason port down and
the port's tx port-down discards have each risen by 1, and no other port's, but for a counter that wraps and whose
notice frame is lost in turn; nothing else has changed but what such a notice changes. -/
structure DroppedPortDown (p : Port) (s t : State) : Prop where
  counts   : NoticesGoOut s ∨ (s.counter p 10).value < 4294967295 →
    CounterRises p 10 1 s t ∧ DropRises 9 1 s t ∧ ∀ q, q ≠ p → t.counter q 10 = s.counter q 10
  counters : ∀ q k, k ≠ 10 → t.counter q k = s.counter q k
  drops    : ∀ r, r ≠ 9 → t.ctb.drops.get r = s.ctb.drops.get r
  sources  : ∀ k, k ≠ 22 → t.source k = s.source k
  dest     : t.ntu.dest = s.ntu.dest
  handed   : HandsOnNotices s t
  frame    : ReportsOnly s t

/-- A frame has been dropped as port down at each of some ports, in their order (R78). -/
def DroppedAtPorts : List Port → State → State → Prop
  | [], s, t => t = s
  | p :: rest, s, t => ∃ u, DroppedPortDown p s u ∧ DroppedAtPorts rest u t

/-- A frame that arrives at a port passes every reception check of spec 2.2, as a frame of a kind (R27 to R31):
its check sequence matches and its length is 64..2048, it is of the part's form, its stated payload length fits, it
came from the right side, and the port's service mode carries its kind. -/
structure Received (p : Port) (raw : List Byte) (kind : Kind) (s : State) : Prop where
  check     : fcsMatches raw = true
  length    : 64 ≤ (frameBody raw).length ∧ (frameBody raw).length ≤ 2048
  form      : etherTypeOf (frameBody raw) = 0x8A5C ∧ versionOf (frameBody raw) = 1 ∧
    kindCodeOf (frameBody raw) = kind.code
  payload   : (frameBody raw).length = max 64 (28 + payloadLengthOf (frameBody raw))
  direction : (readFrame (frameBody raw) kind).down = !Port.isQuay p
  mode      : (s.port p).mode = .full ∨ ((s.port p).mode = .craneOnly ∧ kind.craneOnly = true)

/-- A received frame has been counted at its port (R27), but for a counter that wraps. -/
def CountedIn (p : Port) (raw : List Byte) (s t : State) : Prop :=
  CounterRises p 0 1 s t ∧ CounterRises p 1 (frameBody raw).length s t

/-- The second state's port records are the first's, but for the neighbour address that a received frame has set
(R24). -/
def LearnsNeighbour (p : Port) (raw : List Byte) (s t : State) : Prop :=
  t.ports = vset s.ports p { s.port p with neighbour := sourceMac (frameBody raw) }

/-- The second state is the first after a received frame has been counted at its port and has set the neighbour
address (R24, R27); nothing else has changed but what a counter that wraps reports. -/
structure CountedOnly (p : Port) (raw : List Byte) (s t : State) : Prop where
  counted   : CountedIn p raw s t
  neighbour : LearnsNeighbour p raw s t
  counters  : ∀ q k, k ≠ 10 → (q = p → k ≠ 0 ∧ k ≠ 1) → t.counter q k = s.counter q k
  drops     : ∀ r, r ≠ 9 → t.ctb.drops.get r = s.ctb.drops.get r
  sources   : ∀ k, k ≠ 22 → t.source k = s.source k
  handed    : HandsOnNotices s t
  frame     : t = { s with
    ports := t.ports, ntu := t.ntu, ctb := t.ctb, flight := { s.flight with enqueues := t.flight.enqueues } }

/-- A received frame has been counted and then dropped with one reason: no frame but a notice has been handed on, no
other drop reason has risen but port down for a lost notice, and no state but the port's record, the notices and the
counters has changed. -/
structure DroppedAtReception (p : Port) (raw : List Byte) (r : Fin 20) (s t : State) : Prop where
  counted   : CountedIn p raw s t
  neighbour : LearnsNeighbour p raw s t
  reason    : DropRises r 1 s t
  counters  : ∀ q k, k ≠ 10 → (q = p → k ≠ 0 ∧ k ≠ 1) → t.counter q k = s.counter q k
  drops     : ∀ k, k ≠ r → k ≠ 9 → t.ctb.drops.get k = s.ctb.drops.get k
  handed    : HandsOnNotices s t
  frame     : t = { s with
    ports := t.ports, ntu := t.ntu, ctb := t.ctb, flight := { s.flight with enqueues := t.flight.enqueues } }

/-! ## Policers -/

/-- The cost of a frame at a bucket, with the overhead of a port where the bucket counts it (R151). -/
def frameCost (b : BucketNo) (length : Nat) (p : Port) (s : State) : Int :=
  (length + (if (s.bucket b).overhead then (s.port p).overhead else 0)) * 16

/-- A frame conforms at a policer: the policer is open, or its credit is at or above the cost (R149, R152). -/
def Conforms (b : BucketNo) (length : Nat) (p : Port) (s : State) : Prop :=
  (s.bucket b).rate = 0 ∨ frameCost b length p s ≤ (s.bucket b).credit

/-- The part after a frame that conforms has been charged; an open policer is not charged (R149, R152). -/
def charged (b : BucketNo) (length : Nat) (p : Port) (s : State) : State :=
  if (s.bucket b).rate = 0 then s
  else s.setBucket b { s.bucket b with credit := (s.bucket b).credit - frameCost b length p s }

/-- The part after a frame that does not conform: the credit is as it was, and a cost above Cmax counts one over-burst
drop (R152). -/
def heldBack (b : BucketNo) (length : Nat) (p : Port) (s : State) : State :=
  if (s.bucket b).burst * 16 < frameCost b length p s then
    { s with fsq := { s.fsq with overBurst := min 4294967295 (s.fsq.overBurst + 1) } }
  else s

/-! ## Ports, timers and conditions -/

/-- The bound links, in ascending order (R61). -/
def boundLinks (s : State) : List LinkNo := (List.finRange 24).filter (fun l => (s.link l).state != .unbound)

/-- The announcement of a change of a port's usability between two states (R21): a RUNNING part whose port stopped
being usable announces link down to the STT, the FSQ and every bound link and raises PORT-DOWN, one whose port
became usable announces link up to every bound link and raises PORT-UP, and otherwise nothing is announced. -/
def UsabilityAnnounced (p : Port) (cause : Cause) (s t : State) : Prop :=
  if s.part = .running ∧ s.usable p = true ∧ t.usable p = false then
    TookEvent 16 (.port p cause) s t ∧ t.flight.stationDowns = s.flight.stationDowns ++ [p] ∧
      t.flight.queueDowns = s.flight.queueDowns ++ [p] ∧
      t.flight.linkEvents = s.flight.linkEvents ++ (boundLinks s).map (fun l => ⟨false, l, p⟩)
  else if s.part = .running ∧ s.usable p = false ∧ t.usable p = true then
    TookEvent 17 (.port p cause) s t ∧ t.flight.stationDowns = s.flight.stationDowns ∧
      t.flight.queueDowns = s.flight.queueDowns ∧
      t.flight.linkEvents = s.flight.linkEvents ++ (boundLinks s).map (fun l => ⟨true, l, p⟩)
  else t.flight = s.flight ∧ t.ntu = s.ntu ∧ t.ctb = s.ctb

/-- A change of a port's record touches the port records, the notices and counters, and the announcements in
flight. -/
def PortFrame (s t : State) : Prop :=
  t = { s with
    ports := t.ports, ntu := t.ntu, ctb := t.ctb
    flight := { s.flight with
      enqueues := t.flight.enqueues, stationDowns := t.flight.stationDowns
      queueDowns := t.flight.queueDowns, linkEvents := t.flight.linkEvents } }

/-- The block timers run with full periods: the coverage epoch timer, the aging timer, the report period timer and
every refill timer (R11, R52, R121, R150); nothing else of their blocks has changed. -/
def TimersStarted (s t : State) : Prop :=
  t.cvm = { s.cvm with epochTimer := some s.cvm.epochPeriod } ∧
    t.stt = { s.stt with agingTimer := some s.stt.agingPeriod } ∧
    t.rcn = { s.rcn with periodTimer := some s.rcn.settings.reportPeriod } ∧
    t.fsq = { s.fsq with buckets := s.fsq.buckets.map (fun x => { x with refill := true }) }

/-- Every level source is pending exactly as its condition stands (R158, spec 9.2). -/
def LevelsPresented (t : State) : Prop :=
  (t.source 5).pending = craneUncovered t ∧ (t.source 6).pending = stationFull t ∧
    (t.source 11).pending = reeferFull t ∧ (t.source 12).pending = batchOverflow t ∧
    (t.source 15).pending = mapInvalid t ∧ (t.source 20).pending = poolLow t

/-- An event at a crane link touches that link, the notices and counters, and the frames and span events in
flight. -/
def LinkFrame (l : LinkNo) (s t : State) : Prop :=
  (∀ m, m ≠ l → t.link m = s.link m) ∧
    t = { s with
      links := t.links, ntu := t.ntu, ctb := t.ctb
      flight := { s.flight with enqueues := t.flight.enqueues, spans := t.flight.spans } }

/-- The CRANE-UNCOVERED source is pending exactly as the condition stands (R100). -/
def UncoveredPresented (t : State) : Prop := (t.source 5).pending = craneUncovered t

/-- The STATION-FULL source is pending exactly as the condition stands (R49). -/
def StationFullPresented (t : State) : Prop := (t.source 6).pending = stationFull t

/-- The span events for a segment, when it is known (R16). -/
def spansFor (mk : Nat → SpanEvent) : Option Nat → List SpanEvent
  | none => []
  | some g => [mk g]

/-- A link advisory has been sent by the second state (R80, R81): where the trunk port of the crane SID's class, T0
without one, is usable, the advisory has been handed to the FSQ for its U queue; where it is not, no advisory has been
handed on, and, with the frames that the same event drops as port down at the ports `also`, it has been counted under
the drop reason port down and the port's tx port-down discards. -/
def AdvisorySent (l : LinkNo) (code : Nat) (also : List Port) (s t : State) : Prop :=
  let c := (s.link l).config
  let p : Port := match classify s.idc c.sid with
    | some k => if (s.domain k.domain).trunk = .t0 then 12 else 13
    | none => 12
  (s.usable p = true →
    t.flight.enqueues[s.flight.enqueues.length]? = some
      { queues := [(p, .u)], kind := .linkAdvisory
        body := .originated .advisory (originatedBytes .linkAdvisory false c.sid (c.peer.getD 0)
          (sidBytes c.sid ++ be1 l.val ++ be1 code)) }) ∧
  (s.usable p = false →
    (∀ r ∈ t.flight.enqueues.drop s.flight.enqueues.length, r.body.origin ≠ .advisory) ∧
    (NoticesGoOut s → DropRises 9 (1 + also.length) s t ∧ CounterRises p 10 (1 + also.count p) s t))

/-- The alarm path has been taken by a report with some new alarm codes, and by one without has not (R117): a report
that conforms at the alarm policer is charged, counted, raises REEFER-ALARM, and is then handed on for the U queue of
its trunk port, or dropped as port down (log 44); one that does not is held back, counted under the drop reason alarm
rate (log 38), and raises ALARM-RATE. -/
def AlarmPathTaken (f : Frame) (arrival trunk : Port) (fresh : List Byte) (s t : State) : Prop :=
  let n := f.bytes.length
  let x := s.rcn.stats
  (fresh = [] → t = s) ∧
  (fresh ≠ [] → Conforms alarmBucket n arrival s →
    ∃ u, EventRaised 8 (.sid f.station) (charged alarmBucket n arrival { s with rcn := { s.rcn with stats :=
        { x with alarmsForwarded := min 4294967295 (x.alarmsForwarded + 1) } } }) u ∧
      (s.usable trunk = true → t = { u with flight := { u.flight with enqueues := u.flight.enqueues ++
        [{ queues := [(trunk, .u)], kind := f.kind, body := .forwarded f.bytes }] } }) ∧
      (s.usable trunk = false → DroppedPortDown trunk u t)) ∧
  (fresh ≠ [] → ¬Conforms alarmBucket n arrival s →
    ∃ u, CountsDrop arrival none 17 (heldBack alarmBucket n arrival { s with rcn := { s.rcn with stats :=
        { x with alarmHolds := min 4294967295 (x.alarmHolds + 1) } } }) u ∧
      EventRaised 21 (.sid f.station) u t)

/-! ## The batch buffers -/

/-- A swap of the batch buffers has been carried out (R132, R134): the FILLING buffer is empty, the batch timer stopped
and send due clear, and BATCH-OVERFLOW, presented first (log 44), is not pending. Where the batch domain's trunk port is
usable, the entries are SENDING, their batch frame has been handed on for the port's B queue, no notice or counter has
changed, and IN-FILLING records have the place NONE. Where it is not, the batch frame has been dropped as port down,
with no frame handed on but notices, and its buffer ended as discarded: it is IDLE, and the records of its entries are
UNSENT (R136). -/
def SwapCarriedOut (s t : State) : Prop :=
  let entries := s.rcn.filling.entries
  let trunk : Port := if (s.domain s.rcn.settings.domain).trunk = .t0 then 12 else 13
  t.rcn.filling = ⟨.filling, []⟩ ∧ t.rcn.batchTimer = none ∧ t.rcn.sendDue = false ∧ (t.source 12).pending = false ∧
  ∃ u, u = { s with rcn := t.rcn, ntu := { s.ntu with sources := u.ntu.sources } } ∧
    (∀ k, k ≠ 12 → u.source k = s.source k) ∧
    (s.usable trunk = true →
      t = { u with flight := { s.flight with enqueues := s.flight.enqueues ++
        [{ queues := [(trunk, .b)], kind := .reeferBatch
           body := .batch (originatedBytes .reeferBatch false s.sid 0
             (be1 entries.length ++ entries.flatMap batchEntryBytes)) }] } } ∧
      t.rcn.other = ⟨.sending, entries⟩ ∧ t.rcn.stats = s.rcn.stats ∧
      ∀ k, Table.get t.rcn.reefers k = (Table.get s.rcn.reefers k).map (fun r => { r with place :=
        match r.place with
          | .inFilling _ => .none
          | .none => .none
          | .unsent => .unsent })) ∧
    (s.usable trunk = false →
      DroppedPortDown trunk u t ∧ t.rcn.other = ⟨.idle, []⟩ ∧
      t.rcn.stats = { s.rcn.stats with batchesDiscarded := min 4294967295 (s.rcn.stats.batchesDiscarded + 1) } ∧
      ∀ k, Table.get t.rcn.reefers k = (Table.get s.rcn.reefers k).map (fun r => { r with
        place := if r.place = .unsent ∨ r.sid ∈ entries.map (·.sid) then .unsent else .none }))

/-! ## Walks through the loading window -/

/-- The position `n` advances after one in window order (R4). -/
def Window.after (w : Window) (p : Nat × Nat) : Nat → Nat × Nat
  | 0 => p
  | n + 1 => (w.advance (Window.after w p n)).1

/-- The wraps among the first `n` advances (R4). -/
def Window.wraps (w : Window) (p : Nat × Nat) (n : Nat) : Nat :=
  (List.range n).countP (fun j => (w.advance (w.after p j)).2)

/-! ## Admission to a class queue -/

/-- A queue admits a frame of a kind that holds `n` cells (R141): its port is usable and does not refuse the kind
by its service mode, the queue's cells stay within its limit, and the free cells suffice, for every queue but C
with the reserve left over. -/
def Admits (s : State) (kind : Kind) (n : Nat) (d : Port × QClass) : Prop :=
  s.usable d.1 = true ∧ ((s.port d.1).mode = .craneOnly → kind.craneOnly = true) ∧
    ((s.queues d.1).get d.2).cellCount + n ≤ ((s.queues d.1).get d.2).limit ∧
    (if d.2 = .c then n ≤ s.fsq.free else n + s.fsq.reserve ≤ s.fsq.free)

/-! ## Hard reset -/

/-- Every block holds its hard-reset values, but for the coverage cells, the link states, and what the straps
decide: the part SID and the management permissions (R17, R18, R20, R32, R36, R43, R62, R105, R106, R137 to R140,
R144, R145, R149, R156, R164, R165, R168, R176). -/
structure AtHardReset (t : State) : Prop where
  ports    : ∀ p, (t.port p).mode = .full ∧ (t.port p).overhead = 20 ∧ (t.port p).neighbour = 0xFFFFFFFFFFFF
  geometry : t.cvm.bank0.geometry = ⟨0, 300, 20⟩ ∧ t.cvm.bank1.geometry = ⟨0, 300, 20⟩
  roles    : t.cvm.activeIsOne = false ∧ t.cvm.valid = false ∧ t.cvm.swapPending = false
  window   : t.cvm.window = ⟨0, 255, 0, 7, .laneFirst, .ascending⟩
  cursors  : t.cvm.writeCursor = none ∧ t.cvm.readCursor = none
  epoch    : t.cvm.epochPeriod = 100 ∧ t.cvm.epochTimer = none
  overlay  : ∀ g : Fin 256, t.cvm.overlay.get g = 0
  groups   : ∀ g : Fin 4, t.idc.groups.get g = if g = 0 then ⟨0, 0xFFFF, true⟩ else ⟨0, 0, false⟩
  classes  : ∀ c : Fin 16, t.idc.classes.get c =
    if c = 0 then ⟨0, 0xFFFF, true, 0, ⟨false, false, false⟩⟩ else ⟨0, 0, false, 0, ⟨false, false, false⟩⟩
  domains  : ∀ d : Fin 8, t.domain d = if d = 0 then ⟨true, .t0, 0xFFF, .d⟩ else ⟨false, .t0, 0, .d⟩
  stations : t.stt.statics = [] ∧ t.stt.dynamics = [] ∧ t.stt.margin = 2 ∧ t.stt.agingPeriod = 300 ∧
    t.stt.stats = ⟨0, 0, 0, 0, 0, 0, 0, 0⟩
  walks    : t.stt.agingTimer = none ∧ t.stt.sweep = none ∧ t.stt.remembered = false ∧ t.stt.walk = none ∧
    t.stt.waiting = 0
  links    : ∀ l, (t.link l).state = .unbound ∧ (t.link l).missed = 0 ∧ (t.link l).cycle = none ∧
    (t.link l).position = none ∧ (t.link l).segment = none ∧ (t.link l).context = none ∧
    (t.link l).reverted = none ∧ (t.link l).slot = none ∧ (t.link l).timer = none ∧
    (t.link l).counts = ⟨0, 0, 0, 0, 0, 0, 0, 0, 0, 0, 0⟩
  reefers  : t.rcn.reefers = [] ∧ t.rcn.settings = ⟨5, 3, 3, 120, 10, true, 0⟩ ∧
    t.rcn.stats = ⟨0, 0, 0, 0, 0, 0, 0, 0, 0, 0, 0, 0, 0, 0, 0, 0⟩
  sweeps   : t.rcn.periodTimer = none ∧ t.rcn.sweep = none ∧ t.rcn.remembered = false
  buffers  : t.rcn.bufferA = ⟨.filling, []⟩ ∧ t.rcn.bufferB = ⟨.idle, []⟩ ∧ t.rcn.sendDue = false ∧
    t.rcn.batchTimer = none
  pool     : t.fsq.free = 4096 ∧ t.fsq.store = [] ∧ t.fsq.reserve = 256 ∧ t.fsq.overBurst = 0
  queues   : ∀ p, t.queues p =
    ⟨⟨512, []⟩, ⟨256, []⟩, ⟨1024, []⟩, ⟨1024, []⟩, none, .b, 0, 1, 4⟩
  buckets  : ∀ b, t.bucket b = ⟨0, 4096, false, 65536, false⟩
  sources  : ∀ k, t.source k = ⟨true, 4, false, 0, none, none⟩
  notices  : t.ntu.dest = ⟨none, .t0, 0, 10⟩ ∧ t.ntu.enqueued = 0 ∧ t.ntu.lost = 0
  counters : (∀ p c, t.counter p c = ⟨0, false⟩) ∧ ∀ r : Fin 20, t.ctb.drops.get r = 0
  agent    : t.mga.queue = [] ∧ t.mga.phase = .idle
  part     : t.seconds = 0 ∧ t.restarts = 0

/-! ## The laws of the coverage map -/

/-- The law of a coverage cell (R2): where the primary names a quay port, the secondary does not name it. -/
def Cell.lawful (c : Cell) : Prop := ∀ q, c.primary = some q → c.secondary ≠ some q

/-- A bank's cells are in their one form and lawful, and its geometry is in range (R2, R3). -/
def Bank.lawful (b : Bank) : Prop :=
  Memory.wf b.cells ∧ (∀ e ∈ b.cells, e.2.lawful) ∧ 50 ≤ b.geometry.length ∧ b.geometry.length ≤ 1000 ∧
    b.geometry.hysteresis ≤ 255

/-- A position lies in a window. -/
def Window.holds (w : Window) (p : Nat × Nat) : Prop :=
  w.segStart ≤ p.1 ∧ p.1 ≤ w.segEnd ∧ w.laneStart ≤ p.2 ∧ p.2 ≤ w.laneEnd

/-- The laws of the map: lawful banks (R2, R3), a window of the map (R4), cursors that are fresh or hold a cell of
the window (R6), and an epoch period in its range (R11). -/
structure MapLaw (s : State) : Prop where
  bank0  : s.cvm.bank0.lawful
  bank1  : s.cvm.bank1.lawful
  window : s.cvm.window.segStart ≤ s.cvm.window.segEnd ∧ s.cvm.window.segEnd ≤ 255 ∧
    s.cvm.window.laneStart ≤ s.cvm.window.laneEnd ∧ s.cvm.window.laneEnd ≤ 7
  write  : ∀ p, s.cvm.writeCursor = some p → s.cvm.window.holds p
  read   : ∀ p, s.cvm.readCursor = some p → s.cvm.window.holds p
  epoch  : 10 ≤ s.cvm.epochPeriod ∧ s.cvm.epochPeriod ≤ 1000

/-! ## The laws of the station table -/

/-- The law of the station table (R42): the collections hold their places in ascending order and within their
sizes, a SID appears in at most one record, and a dynamic record's grade and age are in range. -/
structure StationLaw (s : State) : Prop where
  statics  : Table.wf Config.staticPlaces s.stt.statics
  dynamics : Table.wf Config.dynamicPlaces s.stt.dynamics
  unique   : (s.stt.statics.map (fun e => e.2.sid) ++ s.stt.dynamics.map (fun e => e.2.sid)).Nodup
  ranges   : ∀ e ∈ s.stt.dynamics, e.2.grade ≤ 15 ∧ 1 ≤ e.2.age ∧ e.2.age ≤ 3

/-! ## The laws of the crane links -/

/-- The laws of a crane link: its configuration is in range while it is bound (R61, R63), its supervision timer
runs exactly while it is LIVE or LATE (R72), it then holds a cycle and has missed fewer beats than it may (R68,
R73), and a handover context stands only then, between its primary port and another (R74, R88, R89). -/
structure Link.lawful (x : Link) : Prop where
  config  : x.state ≠ .unbound →
    1 ≤ x.config.period ∧ x.config.period ≤ 250 ∧ 1 ≤ x.config.late ∧ x.config.late ≤ 8 ∧
      x.config.late < x.config.lapse ∧ x.config.lapse ≤ 16 ∧ 1 ≤ x.config.hold ∧ x.config.hold ≤ 32
  timer   : x.timer.isSome = x.state.spans
  cycle   : x.state.spans = true → x.cycle.isSome = true
  missed  : x.missed ≤ 16 ∧ (x.state.spans = true → x.missed ≤ 15)
  context : ∀ h, x.context = some h → x.state.spans = true ∧ h.old = x.primary ∧ h.new ≠ h.old

/-- Every crane link is lawful. -/
def LinkLaw (s : State) : Prop := ∀ l, (s.link l).lawful

/-! ## The law of the crane overlay -/

/-- How many links in LIVE or LATE with a known segment cast a shadow span that includes a segment (R16). -/
def shadowCount (s : State) (g : Nat) : Nat :=
  (List.finRange 24).countP (fun l =>
    (s.link l).state.spans && (match (s.link l).segment with
      | some c => inSpan c g
      | none => false))

/-- What one span event adds to the count of a segment (R16). -/
def SpanEvent.change (g : Nat) : SpanEvent → Int
  | .add c => if inSpan c g then 1 else 0
  | .remove c => if inSpan c g then -1 else 0

/-- What a list of span events adds to the count of a segment. -/
def spanChange (g : Nat) (events : List SpanEvent) : Int := (events.map (SpanEvent.change g)).sum

/-- The law of the crane overlay (R16), with the span events that have been issued and not yet taken: taking them
all brings each count to the number of links whose span includes its segment, and no count falls below 0 on the
way. With no event in flight each count is that number. -/
structure OverlayLaw (s : State) : Prop where
  counts : ∀ g : Fin 256,
    (s.cvm.overlay.get g : Int) + spanChange g.val s.flight.spans = shadowCount s g.val
  prefixes : ∀ g : Fin 256, ∀ n, 0 ≤ (s.cvm.overlay.get g : Int) + spanChange g.val (s.flight.spans.take n)

/-! ## The laws of the reefer table and the batch buffers -/

/-- The law of a reefer record (R103, R111). -/
structure Reefer.lawful (r : Reefer) : Prop where
  missed  : r.missed ≤ 15
  heard   : r.heard = true → r.missed = 0
  alarms  : r.readings.alarms.length ≤ 4 ∧ r.readings.alarms.Nodup ∧ 0 ∉ r.readings.alarms ∧
    255 ∉ r.readings.alarms
  segment : ∀ g, r.readings.segment = some g → g ≤ 255
  lane    : ∀ l, r.readings.lane = some l → l ≤ 7

/-- The laws of the reefer table (R103, R104): the places in ascending order and below 4,096, a SID in at most one
record, every record lawful. -/
structure ReeferLaw (s : State) : Prop where
  places  : Table.wf Config.reeferPlaces s.rcn.reefers
  unique  : (s.rcn.reefers.map (fun e => e.2.sid)).Nodup
  records : ∀ e ∈ s.rcn.reefers, e.2.lawful

/-- The laws of the batch buffers (R128, R130): exactly one buffer is FILLING, no buffer holds more than 48
entries, no SID appears twice in one buffer, a record is IN-FILLING at an index exactly where the entry there is
its own, and an entry of the FILLING buffer whose SID a record holds stands at that record's index. -/
structure BatchLaw (s : State) : Prop where
  filling : s.rcn.bufferA.state = .filling ↔ s.rcn.bufferB.state ≠ .filling
  bounded : s.rcn.bufferA.entries.length ≤ 48 ∧ s.rcn.bufferB.entries.length ≤ 48
  unique  : (s.rcn.bufferA.entries.map (·.sid)).Nodup ∧ (s.rcn.bufferB.entries.map (·.sid)).Nodup
  placed  : ∀ e ∈ s.rcn.reefers, ∀ i, e.2.place = .inFilling i ↔
    (s.rcn.filling.entries.map (·.sid))[i]? = some e.2.sid

/-! ## The laws of the buckets -/

/-- The laws of the buckets (R149, R151): the rate code and the burst are in range, no credit exceeds Cmax, and a
policer's credit is never below 0. -/
def CreditLaw (s : State) : Prop :=
  ∀ b, (s.bucket b).rate ≤ 240 ∧ 64 ≤ (s.bucket b).burst ∧ (s.bucket b).credit ≤ (s.bucket b).burst * 16 ∧
    (b.val < 81 → 0 ≤ (s.bucket b).credit)

/-- The law of the credits below 0 (R151, R153): no credit is below −33,776, the cost of 2,048 bytes with an overhead
of 63. It rests on no overhead above 63 (R20), no frame above 2,048 bytes in a queue, on its way to one or in a repeat
slot (R27), no batch buffer above 48 entries (R128), and replies within their 1,900 bytes (R171). -/
structure CreditFloor (s : State) : Prop where
  credits  : ∀ b, -33776 ≤ (s.bucket b).credit
  overhead : ∀ p, (s.port p).overhead ≤ 63
  entries  : ∀ p cls, ∀ e ∈ ((s.queues p).get cls).entries, e.length ≤ 2048
  flight   : ∀ r ∈ s.flight.enqueues, r.body.length ≤ 2048
  slots    : ∀ l bytes, (s.link l).slot = some bytes → bytes.length ≤ 2048
  buffers  : s.rcn.bufferA.entries.length ≤ 48 ∧ s.rcn.bufferB.entries.length ≤ 48
  replies  : ∀ e, s.mga.phase = .executing e ∨ s.mga.phase = .held e →
    e.entries.length < e.count ∧ e.count ≤ 16 ∧
      4 + 4 * e.count + (e.entries.map (·.result.length)).sum + e.room ≤ 1900

/-! ## The laws of the frame store -/

/-- The entries of every queue of every port. -/
def allEntries (s : State) : List Entry := (List.finRange 14).flatMap (fun p => (s.queues p).entries)

/-- An entry points at a stored frame. -/
def Entry.pointsAt (id : Nat) : Entry → Bool
  | .frame k _ _ => k == id
  | .batch _ => false

/-- What is handed to the FSQ holds at least one pool cell. -/
def Body.holdsCells : Body → Prop
  | .forwarded bytes => bytes ≠ []
  | .originated _ _ | .batch _ => True

/-- The laws of the pool (R138, R144): the free cells and the cells held by stored frames total 4,096; every
stored frame holds a cell, has an entry, and counts exactly the entries that point at it; every entry points at a
stored frame and counts its cells; a port that is SENDING sends the head entry of a queue that has one; and no
frame on its way to the FSQ, in flight or in a repeat slot, is empty. -/
structure PoolLaw (s : State) : Prop where
  places  : Table.wf Config.poolCells s.fsq.store
  total   : s.fsq.free + (s.fsq.store.map (fun e => e.2.cells)).sum = 4096
  counted : ∀ e ∈ s.fsq.store, 1 ≤ e.2.cells ∧ 1 ≤ e.2.refs ∧
    e.2.refs = (allEntries s).countP (Entry.pointsAt e.1)
  entries : ∀ id n len, Entry.frame id n len ∈ allEntries s → ∃ f, Table.get s.fsq.store id = some f ∧ f.cells = n
  sending : ∀ p cls, (s.queues p).sending = some cls → ((s.queues p).get cls).entries ≠ []
  flight  : ∀ r ∈ s.flight.enqueues, r.body.holdsCells
  slots   : ∀ l bytes, (s.link l).slot = some bytes → bytes ≠ []

/-! ## The laws of the notice sources -/

/-- The laws of a notice source (R156 to R158): level 1..7 and count 0..255; a level source carries no detail, and
its holdoff timer runs exactly while its status is set; an edge source has no holdoff timer, and holds a detail
and a count of at least 1 exactly while it is pending. -/
structure Source.lawful (k : SourceNo) (x : Source) : Prop where
  ranges  : 1 ≤ x.level ∧ x.level ≤ 7 ∧ x.count ≤ 255
  level   : isLevelSource k = true → x.detail = none ∧ x.holdoff.isSome = x.status
  edge    : isLevelSource k = false → x.holdoff = none ∧ x.detail.isSome = x.pending ∧
    (x.pending = true ↔ 1 ≤ x.count)

/-- Every notice source is lawful. -/
def NoticeLaw (s : State) : Prop := ∀ k, (s.source k).lawful k

/-! ## The laws of the agent -/

/-- The laws of the agent (R168, R169, R12): at most four frames wait; a frame being executed carries at most 16
commands and has come to one that an owner takes; and a frame is held only by a COMMIT-MAP whose swap is
pending. -/
structure AgentLaw (s : State) : Prop where
  room      : s.mga.queue.length ≤ 4
  executing : ∀ e, s.mga.phase = .executing e → e.count ≤ 16 ∧ e.awaited.isSome = true
  held      : ∀ e, s.mga.phase = .held e →
    e.count ≤ 16 ∧ e.awaited = some .commitMap ∧ s.cvm.swapPending = true

end Sys2Proof.Machine
end

