-- ==== Sys2Proof/Certificates/Slice0/Obligations.lean ====
section
/-! DEFINITION. The statements for the provers. A management command's statements have the form: where the agent
has come to the command (`Awaits`), `exec` answers the state in which the command has ended (`completeCommand`)
with the status and the result that its rule gives, at the part as its owner leaves it. What ending a command does
is `CommandEndsWithItsEntry`. -/

open Sys2Proof Sys2Proof.Machine

/-! ## The step and the queue of commands -/

/-- One step runs the command at the front of the queue on the part with the rest of the queue; on an empty queue
the block idles (the idling is the model's choice, log 4). -/
def Obligations.StepRunsFrontCommand : Prop :=
  (∀ (c : Instr) (s : State), step { s with pending := c :: s.pending } = exec c s) ∧
    ∀ s : State, s.pending = [] → step s = .next s

/-- No command changes the queue of commands; the straps' values change at the end of a hard reset alone (R175),
the part SID at a hard reset and at SET-IDENT alone (R25), the identity and domain records at a hard reset and at
their three writing commands alone (R32, R35 to R37). -/
def Obligations.IdentityChangesOnlyAtItsCommands : Prop :=
  ∀ (i : Instr) (s t : State), exec i s = .next t →
    t.pending = s.pending ∧
    (t.straps ≠ s.straps → ∃ m a, i = .resetEnd m a) ∧
    (t.sid ≠ s.sid → i = .powerOnReset ∨ i = .pinReset ∨ (∃ m a, i = .resetEnd m a) ∨ ∃ x, i = .setIdent x) ∧
    (t.idc ≠ s.idc → i = .powerOnReset ∨ i = .pinReset ∨ (∃ m a, i = .resetEnd m a) ∨
      (∃ g b m v, i = .setGroup g b m v) ∨ (∃ g c b m v d o, i = .setClass g c b m v d o) ∨
      ∃ d e r f q, i = .setDomain d e r f q)

/-- The bank that is active, its cells and its geometry, and the valid flag change at a swap and at a hard reset
alone: SET-GEOMETRY, STREAM-CELLS and COPY-ACTIVE write the shadow bank (R1, R7, R9, R10, R13, R14), and a soft
restart keeps the map (R19). -/
def Obligations.ActiveMapChangesOnlyAtSwapOrHardReset : Prop :=
  ∀ (i : Instr) (s t : State), exec i s = .next t →
    i ≠ .powerOnReset → i ≠ .pinReset → (∀ m a, i ≠ .resetEnd m a) →
    (i ≠ .coverageEpochExpiry ∨ s.cvm.swapPending = false ∨ s.cvm.epochTimer = none) →
    t.cvm.active = s.cvm.active ∧ t.cvm.activeIsOne = s.cvm.activeIsOne ∧ t.cvm.valid = s.cvm.valid

/-! ## The bytes of a command -/

/-- The bytes that spell a well-formed management command, with any bytes after its arguments, spell that command
and no other (R169, R180). -/
def Obligations.EncodedCommandsDecode : Prop :=
  ∀ (i : Instr) (code : Byte) (args more : List Byte), i.wf = true → Encode.command i = some (code, args) →
    Decode.command code (args ++ more) = .command i

/-- A command code of the table with fewer argument bytes than its command needs is SHORT, and a code outside
0x01..0x25 names no command (R169, R180). That a SET-RATE which only reads needs all of its argument bytes (log 28),
and that STREAM-CELLS with fewer cell values than its count is SHORT whatever the count, as for a count of 65..126
(log 15), is the model's reading. -/
def Obligations.ShortAndUnknownCommands : Prop :=
  (∀ (i : Instr) (code : Byte) (args : List Byte) (n : Nat), i.wf = true →
    Encode.command i = some (code, args) → n < args.length → Decode.command code (args.take n) = .short) ∧
  ∀ (code : Byte) (args : List Byte), code = 0 ∨ 0x25 < code.toNat → Decode.command code args = .badCode

/-! ## Resets and the part state -/

/-- The state right after a power-on reset holds the hard-reset values: the part STARTING at FFFF.FF00 with T0
alone permitted (the straps sampled low and every link DOWN are the model's choices, logs 1 and 2). -/
def Obligations.ResetStateHoldsHardResetValues : Prop :=
  AtHardReset State.reset ∧ State.reset.part = .starting ∧ State.reset.sid = 0xFFFFFF00 ∧
    State.reset.cvm.bank0.cells = [] ∧ State.reset.cvm.bank1.cells = [] ∧
    ∀ p, (State.reset.port p).permitted = decide (p = 12)

/-- A power-on reset and a pin reset, in any state, put every block at its hard-reset values; a power-on reset empties
the coverage cells and a pin reset keeps them; no reset moves a link state, which follows the PHY (log 2; R17, R18,
R20, R175). At the end of a hard reset the straps are sampled and the part enters STARTING at its hard-reset values:
MSEL decides the permission of T1, and ADDR the low digit of the part SID (R20, R25, R175). The cells are kept here,
since a power-on reset has emptied them already. That the links keep their state (log 2), and that between the
beginning and the end of a hard reset the part is in a state of its own, with the seconds counter at 0 (log 25), is
the model's choice. -/
def Obligations.HardResetsSetEveryBlock : Prop :=
  (∀ s : State,
    (∃ t, exec .powerOnReset s = .next t ∧ AtHardReset t ∧ t.part = .inReset ∧ t.cvm.bank0.cells = [] ∧
      t.cvm.bank1.cells = [] ∧ ∀ p, (t.port p).link = (s.port p).link) ∧
    ∃ t, exec .pinReset s = .next t ∧ AtHardReset t ∧ t.part = .inReset ∧
      t.cvm.bank0.cells = s.cvm.bank0.cells ∧ t.cvm.bank1.cells = s.cvm.bank1.cells ∧
      ∀ p, (t.port p).link = (s.port p).link) ∧
  ∀ (msel : Bool) (addr : Fin 16) (s : State), s.part = .inReset →
    ∃ t, exec (.resetEnd msel addr) s = .next t ∧ AtHardReset t ∧ t.part = .starting ∧
      t.straps = { msel := msel, addr := addr } ∧ t.sid.toNat = 0xFFFFFF00 + addr.val ∧
      (∀ p : Port, (t.port p).permitted = (decide (p = 12) || (decide (p = 13) && msel))) ∧
      (∀ p, (t.port p).link = (s.port p).link) ∧
      t.cvm.bank0.cells = s.cvm.bank0.cells ∧ t.cvm.bank1.cells = s.cvm.bank1.cells

/-- When initialization ends, the part enters RUNNING: the block timers start with full periods, and every owner
presents its level condition as it stands (R11, R52, R121, R150, R158, R175). At the return to RUNNING after a
soft restart the block timers start, each bound link whose segment is known runs the cell check and every other
link is left alone, and every owner presents its condition (R102, R174). -/
def Obligations.EntryToRunningStartsTheBlocks : Prop :=
  (∀ s : State, s.part = .starting →
    ∃ t, exec .initializationEnd s = .next t ∧ t.part = .running ∧ TimersStarted s t ∧ LevelsPresented t ∧
      t = { s with
        part := t.part, cvm := t.cvm, stt := t.stt, rcn := t.rcn, fsq := t.fsq, ntu := t.ntu, ctb := t.ctb
        flight := { s.flight with enqueues := t.flight.enqueues } }) ∧
  ∀ s : State, s.part = .restarting →
    ∃ t, exec .restartInitializationEnd s = .next t ∧ t.part = .running ∧ TimersStarted s t ∧ LevelsPresented t ∧
      (∀ l, t.link l =
        if (s.link l).state ≠ .unbound ∧ (s.link l).segment.isSome = true then (cellCheck l s).link l
        else s.link l) ∧
      t = { s with
        part := t.part, cvm := t.cvm, stt := t.stt, links := t.links, rcn := t.rcn, fsq := t.fsq, ntu := t.ntu
        ctb := t.ctb, flight := { s.flight with enqueues := t.flight.enqueues } }

/-- RESTART as the last command of its frame is answered OK with no result and ordered: with the port of arrival
usable the reply is handed to its U queue, carrying the restart, and the agent waits for its end; with the port not
usable the soft restart begins at once. Elsewhere in its frame it is refused with BAD-ARGUMENT (R172 to R174). -/
def Obligations.RestartIsOrderedOrRefused : Prop :=
  ∀ (s : State) (e : Execution), Awaits s e .restart →
    (e.entries.length + 1 ≠ e.count → exec .restart s = .next (completeCommand false e .badArgument [] s)) ∧
    (e.entries.length + 1 = e.count → s.usable e.arrival = true →
      exec .restart s = .next { s with
        mga := { s.mga with phase := .restartOrdered }
        flight := { s.flight with enqueues := s.flight.enqueues ++
          [{ queues := [(e.arrival, .u)], kind := .managementReply
             body := .originated (.reply true) (originatedBytes .managementReply (Port.isQuay e.arrival) e.station
               e.peer (replyPayload e.tag .ok (e.entries ++ [⟨0x25, .ok, []⟩]))) }] } }) ∧
    (e.entries.length + 1 = e.count → s.usable e.arrival = false →
      ∃ t, exec .restart s = .next t ∧ t.part = .restarting ∧ t.restarts = min 65535 (s.restarts + 1) ∧
        t.mga = ⟨[], .idle⟩)

/-- What a soft restart leaves, whatever the part held (R19, R43, R62, R105, R137, R148, R149, R156, R168, R174,
R176): the part RESTARTING with one more restart counted and no command frame waiting; the map, the identity records,
the static stations, the settings and the statistics kept, but for one batch discarded where a buffer was SENDING; the
dynamic stations, the entries and stored frames gone, and every event in flight with them (the model's choice, log 7);
bound links WAITING at their home ports; IN-FILLING records UNSENT. Every transmission in progress counts in its
port's tx aborted, and every queue entry and every waiting command frame as a restart discard; no other counter moves
but for a notice of a count that wraps (R148, R164, R168; log 39). -/
def Obligations.SoftRestartKeepsAndClears : Prop :=
  ∀ s : State,
    let t := softRestart s
    t.part = .restarting ∧ t.restarts = min 65535 (s.restarts + 1) ∧ t.mga = ⟨[], .idle⟩ ∧
    t.cvm = { s.cvm with
      writeCursor := none, readCursor := none, epochTimer := none, overlay := Vector.replicate 256 0 } ∧
    t.stt = { s.stt with
      dynamics := [], agingTimer := none, sweep := none, remembered := false, walk := none, waiting := 0 } ∧
    (∀ l, t.link l =
      if (s.link l).state = .unbound then s.link l
      else { s.link l with
        state := .waiting, missed := 0, timer := none, primary := (s.link l).config.home, cycle := none
        context := none, reverted := none, slot := none }) ∧
    (∀ k, Table.get t.rcn.reefers k = (Table.get s.rcn.reefers k).map (fun r =>
      { r with heard := true, missed := 0
               place := match r.place with
                 | .inFilling _ => .unsent
                 | .none => .none
                 | .unsent => .unsent })) ∧
    t.rcn.bufferA = ⟨.filling, []⟩ ∧ t.rcn.bufferB = ⟨.idle, []⟩ ∧ t.rcn.sendDue = false ∧
    t.rcn.batchTimer = none ∧ t.rcn.periodTimer = none ∧ t.rcn.sweep = none ∧ t.rcn.remembered = false ∧
    t.rcn.settings = s.rcn.settings ∧
    t.rcn.stats = (if s.rcn.bufferA.state = .sending ∨ s.rcn.bufferB.state = .sending then
      { s.rcn.stats with batchesDiscarded := min 4294967295 (s.rcn.stats.batchesDiscarded + 1) } else s.rcn.stats) ∧
    DropRises 19 (((List.finRange 14).map (fun p => (s.queues p).entries.length)).sum + s.mga.queue.length) s t ∧
    (∀ r, r ≠ 19 → r ≠ 9 → t.ctb.drops.get r = s.ctb.drops.get r) ∧
    (∀ p, (s.queues p).sending ≠ none → CounterRises p 11 1 s t) ∧
    (∀ p, (s.queues p).sending = none → t.counter p 11 = s.counter p 11) ∧
    (∀ p c, c ≠ 11 → c ≠ 10 → t.counter p c = s.counter p c) ∧
    ((∀ p, (s.queues p).sending ≠ none → (s.counter p 11).value < 4294967295) ∨ NoticesGoOut s →
      (∀ p, t.counter p 10 = s.counter p 10) ∧ t.ctb.drops.get 9 = s.ctb.drops.get 9 ∧ t.ntu.lost = s.ntu.lost) ∧
    t.ntu.enqueued = s.ntu.enqueued ∧
    t.fsq.free = 4096 ∧ t.fsq.store = [] ∧ t.fsq.reserve = s.fsq.reserve ∧ t.fsq.overBurst = s.fsq.overBurst ∧
    (∀ p, t.queues p = { s.queues p with
      queueC := ⟨(s.queues p).queueC.limit, []⟩, queueU := ⟨(s.queues p).queueU.limit, []⟩
      queueB := ⟨(s.queues p).queueB.limit, []⟩, queueD := ⟨(s.queues p).queueD.limit, []⟩
      sending := none, turn := .b, served := 0 }) ∧
    (∀ b, t.bucket b = { s.bucket b with rate := 0, credit := (s.bucket b).burst * 16, refill := false }) ∧
    (∀ k, (t.source k).pending = false ∧ (t.source k).count = 0 ∧ (t.source k).detail = none ∧
      (t.source k).holdoff = none ∧ (t.source k).masked = (s.source k).masked ∧
      (t.source k).level = (s.source k).level) ∧
    t.ntu.dest = s.ntu.dest ∧ t.flight = ⟨[], [], [], [], [], []⟩ ∧ t.ports = s.ports ∧ t.idc = s.idc ∧
    t.sid = s.sid ∧ t.straps = s.straps ∧ t.seconds = s.seconds ∧ t.wire = s.wire ∧ t.freeUse = s.freeUse ∧
    t.pending = s.pending

/-! ## Ports and reception -/

/-- A PHY's report sets its port's link state in every part state; a change of usability is announced while the
part is RUNNING, and a report that leaves the usability as it was is not (R20, R21). That the announcement
stands in flight to the links bound at that moment is the model's form of it (log 6). -/
def Obligations.LinkReportsFollowThePhy : Prop :=
  ∀ (p : Port) (s : State),
    (∃ t, exec (.phyLossOfLink p) s = .next t ∧ t.ports = vset s.ports p { s.port p with link := .down } ∧
      UsabilityAnnounced p .link s t ∧ PortFrame s t) ∧
    ∃ t, exec (.phyLinkReport p) s = .next t ∧ t.ports = vset s.ports p { s.port p with link := .up } ∧
      UsabilityAnnounced p .link s t ∧ PortFrame s t

/-- A frame that arrives while the part is STARTING is dropped without count, and one that arrives while it is
RESTARTING counts one restart discard and nothing else (R26); none is received during a hard reset (R175). The
reception checks of a RUNNING part in their order, each with the counter of the port and the drop reason that
its failure raises (R27 to R31): the check sequence or the length, the part's form, the stated payload length,
the direction, and the service mode. A frame that fails the first is not counted as received and leaves the
neighbour address; one that fails a later check has been counted and has set it (R24). The part state during a hard
reset is the model's (log 25). -/
def Obligations.ReceptionChecksDropInOrder : Prop :=
  (∀ (p : Port) (raw : List Byte) (s : State),
    (s.part = .starting ∨ s.part = .inReset → exec (.frameReceived p raw) s = .next s) ∧
    (s.part = .restarting →
      ∃ t, exec (.frameReceived p raw) s = .next t ∧ DropRises 19 1 s t ∧
        (∀ r, r ≠ 19 → t.ctb.drops.get r = s.ctb.drops.get r) ∧
        t = { s with ctb := { s.ctb with drops := t.ctb.drops } })) ∧
  ∀ (p : Port) (raw : List Byte) (s : State), s.part = .running →
    let body := frameBody raw
    let good := fcsMatches raw = true ∧ 64 ≤ body.length ∧ body.length ≤ 2048
    let form := etherTypeOf body = 0x8A5C ∧ versionOf body = 1 ∧ kindCodeOf body ≤ 8
    let fits := body.length = max 64 (28 + payloadLengthOf body)
    let side := (byteAt body 15).getMsbD 0 = !Port.isQuay p
    let drops := fun (c : Fin 12) (r : Fin 20) => ∃ t, exec (.frameReceived p raw) s = .next t ∧
      CounterRises p c 1 s t ∧ DropRises r 1 s t ∧ CountedIn p raw s t ∧ LearnsNeighbour p raw s t ∧
      t = { s with
        ports := t.ports, ntu := t.ntu, ctb := t.ctb
        flight := { s.flight with enqueues := t.flight.enqueues } }
    (¬good → ∃ t, exec (.frameReceived p raw) s = .next t ∧ CounterRises p 4 1 s t ∧ DropRises 0 1 s t ∧
      ReportsOnly s t) ∧
    (good → ¬form → drops 5 1) ∧
    (good → form → ¬fits → drops 4 0) ∧
    (good → form → fits → ¬side → drops 5 2) ∧
    (good → form → fits → side →
      ((s.port p).mode = .disabled ∨
        ((s.port p).mode = .craneOnly ∧ kindCodeOf body ∉ [1, 2, 4, 5])) → drops 7 6)

/-- What a received frame comes to (R39 to R41). An uplink data frame of an enabled domain, offered to an open ingress
policer, is learnt at the STT and handed to the FSQ, as it arrived, for its domain's data queue on its domain's trunk
port (R48). Every uplink frame of an enabled domain that is no command frame to the part is counted and offered to the
ingress policer of its port and kind group: one that does not conform is dropped with the port's rx policer drops and
the drop reason policer; one that conforms is charged once and goes by its kind to the link that binds its SID (crane
control, position report), to the RCN (a reefer report of a class with the reefer option), to learning alone (a
position report of no bound link), or is forwarded as data, with or without learning. A downlink frame of such a
domain, whose class is not uplink-only, goes to the downlink checks of the link that binds its SID (crane control) or
to steering. -/
def Obligations.UplinkDataIsLearntAndForwarded : Prop :=
  (∀ (q : QPort) (raw : List Byte) (s : State) (c : IdClass), s.part = .running →
    Received (QPort.port q) raw .data s →
    let f := readFrame (frameBody raw) .data
    classify s.idc f.station = some c → (s.domain c.domain).enabled = true →
    (s.bucket (ingressBucket q 3)).rate = 0 →
    ∃ t, exec (.frameReceived (QPort.port q) raw) s = .next t ∧ CountedIn (QPort.port q) raw s t ∧
      LearnsNeighbour (QPort.port q) raw s t ∧ t.stt = (learn f.station q f.grade s).stt ∧
      t.flight.enqueues.getLast? = some
        { queues := [((s.domain c.domain).trunk.port, (s.domain c.domain).queue.queue)], kind := .data
          body := .forwarded (frameBody raw) } ∧
      t = { s with
        ports := t.ports, stt := t.stt, ntu := t.ntu, ctb := t.ctb
        flight := { s.flight with enqueues := t.flight.enqueues } }) ∧
  (∀ (q : QPort) (raw : List Byte) (kind : Kind) (s : State) (c : IdClass), s.part = .running →
    Received (QPort.port q) raw kind s →
    let f := readFrame (frameBody raw) kind
    ¬(kind = .managementCommand ∧ f.peer = s.sid) →
    classify s.idc f.station = some c → (s.domain c.domain).enabled = true →
    let trunk := (s.domain c.domain).trunk.port
    let b := ingressBucket q (match kind with
      | .craneControl => 0
      | .positionReport => 1
      | .reeferReport => 2
      | .data | .managementCommand | .managementReply | .notice | .linkAdvisory | .reeferBatch => 3)
    let n := (frameBody raw).length
    let binds := fun l => (s.link l).state ≠ .unbound ∧ (s.link l).config.sid = f.station
    let bound := fun (l : LinkNo) => binds l ∧ ∀ m, m.val < l.val → ¬binds m
    let forwarded := fun (x : State) => { x with flight := { x.flight with enqueues := x.flight.enqueues ++
      [{ queues := [(trunk, (s.domain c.domain).queue.queue)], kind := kind, body := .forwarded (frameBody raw) }] } }
    ∃ u, CountedOnly (QPort.port q) raw s u ∧
      (¬Conforms b n (QPort.port q) s → ∃ t, exec (.frameReceived (QPort.port q) raw) s = .next t ∧
        CountsDrop (QPort.port q) (some 6) 7 (heldBack b n (QPort.port q) u) t) ∧
      (Conforms b n (QPort.port q) s →
        let v := charged b n (QPort.port q) u
        let goes := fun (x : State) => exec (.frameReceived (QPort.port q) raw) s = .next x
        (∀ l, kind = .craneControl → bound l → goes (uplinkControl l f q trunk v)) ∧
        (∀ l, kind = .positionReport → bound l → goes (positionReport l f (QPort.port q) v)) ∧
        (kind = .positionReport → (∀ l, ¬binds l) → goes (learn f.station q f.grade v)) ∧
        (kind = .reeferReport → c.options.reefer = true → goes (takeReport f (QPort.port q) trunk v)) ∧
        (kind = .data ∨ (kind = .craneControl ∧ ∀ l, ¬binds l) ∨
            (kind = .reeferReport ∧ c.options.reefer = false) →
          goes (forwarded (learn f.station q f.grade v))) ∧
        (kind ∈ [.managementCommand, .managementReply, .notice, .linkAdvisory, .reeferBatch] →
          goes (forwarded v)))) ∧
  ∀ (p : Port) (raw : List Byte) (kind : Kind) (s : State) (c : IdClass), s.part = .running → Port.isQuay p = false →
    Received p raw kind s →
    let f := readFrame (frameBody raw) kind
    ¬(kind = .managementCommand ∧ f.station = s.sid) →
    classify s.idc f.station = some c → (s.domain c.domain).enabled = true → c.options.uplinkOnly = false →
    let binds := fun l => (s.link l).state ≠ .unbound ∧ (s.link l).config.sid = f.station
    ∃ u, CountedOnly p raw s u ∧
      (∀ l, kind = .craneControl → binds l → (∀ m, m.val < l.val → ¬binds m) →
        exec (.frameReceived p raw) s = .next (downlinkControl l f p u)) ∧
      (kind ≠ .craneControl ∨ (∀ l, ¬binds l) → exec (.frameReceived p raw) s = .next (steer f c.domain p u))

/-- A frame whose SID matches no class, whose class's domain is disabled, or, on downlink, whose class is uplink-only,
is dropped with its reason, in that order (R33, R34, R38): it is counted at its port and under that reason,
UNCLASSIFIED or DIRECTION-VIOLATION takes the SID, it is not learnt and not handed on, and nothing else changes. A
command frame to the part is exempt. -/
def Obligations.ClassificationDropsInOrder : Prop :=
  ∀ (p : Port) (raw : List Byte) (kind : Kind) (s : State), s.part = .running → Received p raw kind s →
    let f := readFrame (frameBody raw) kind
    (kind = .managementCommand → (if Port.isQuay p then f.peer else f.station) ≠ s.sid) →
    (classify s.idc f.station = none →
      ∃ t, exec (.frameReceived p raw) s = .next t ∧ DropRises 3 1 s t ∧ TookEvent 7 (.sid f.station) s t ∧
        DroppedAtReception p raw 3 s t ∧ (∀ k, k ≠ 7 → k ≠ 22 → t.source k = s.source k)) ∧
    (∀ c, classify s.idc f.station = some c → (s.domain c.domain).enabled = false →
      ∃ t, exec (.frameReceived p raw) s = .next t ∧ DropRises 4 1 s t ∧ DroppedAtReception p raw 4 s t ∧
        (∀ k, k ≠ 22 → t.source k = s.source k)) ∧
    (∀ c, classify s.idc f.station = some c → (s.domain c.domain).enabled = true → Port.isQuay p = false →
      c.options.uplinkOnly = true →
      ∃ t, exec (.frameReceived p raw) s = .next t ∧ DropRises 5 1 s t ∧ TookEvent 23 (.sid f.station) s t ∧
        DroppedAtReception p raw 5 s t ∧ (∀ k, k ≠ 23 → k ≠ 22 → t.source k = s.source k))

/-- A command frame addressed to the part, from a trunk port, or from a quay port at whose ingress policer for data
and other frames it conforms and is charged once, is counted at its port and judged by permission, envelope and room,
and otherwise joins the tail of the command frame queue (R40, R41, R167). One from a quay port that does not conform
there is dropped with the port's rx policer drops and the drop reason policer, and does not come to the agent (R39).
-/
def Obligations.CommandFramesAreJudged : Prop :=
  (∀ (p : Port) (raw : List Byte) (s : State), s.part = .running → Received p raw .managementCommand s →
    let f := readFrame (frameBody raw) .managementCommand
    let sender := if Port.isQuay p then f.station else f.peer
    let n := (frameBody raw).length
    (if Port.isQuay p then f.peer else f.station) = s.sid →
    (∀ q, Port.quay p = some q → Conforms (ingressBucket q 3) n p s) →
    ∃ t, exec (.frameReceived p raw) s = .next t ∧ CountedIn p raw s t ∧ CounterRises p 8 1 s t ∧
      LearnsNeighbour p raw s t ∧
      (∀ q, Port.quay p = some q → t.fsq = (charged (ingressBucket q 3) n p s).fsq) ∧
      (Port.quay p = none → t.fsq = s.fsq) ∧
      ((s.port p).permitted = false → DropRises 18 1 s t ∧ TookEvent 18 (.command p sender) s t ∧ t.mga = s.mga) ∧
      ((s.port p).permitted = true → f.payload.length < 4 → DropRises 18 1 s t ∧ t.mga = s.mga) ∧
      ((s.port p).permitted = true → 4 ≤ f.payload.length → 4 ≤ s.mga.queue.length →
        DropRises 18 1 s t ∧ TookEvent 19 (.command p sender) s t ∧ t.mga = s.mga) ∧
      ((s.port p).permitted = true → 4 ≤ f.payload.length → s.mga.queue.length < 4 →
        t.mga = { s.mga with queue := s.mga.queue ++ [⟨p, f.station, f.peer, f.payload⟩] }) ∧
      HandsOnNotices s t ∧
      t = { s with
        ports := t.ports, fsq := t.fsq, ntu := t.ntu, ctb := t.ctb, mga := t.mga
        flight := { s.flight with enqueues := t.flight.enqueues } }) ∧
  ∀ (q : QPort) (raw : List Byte) (s : State), s.part = .running →
    Received (QPort.port q) raw .managementCommand s →
    let n := (frameBody raw).length
    (readFrame (frameBody raw) .managementCommand).peer = s.sid →
    ¬Conforms (ingressBucket q 3) n (QPort.port q) s →
    ∃ u t, exec (.frameReceived (QPort.port q) raw) s = .next t ∧ CountedOnly (QPort.port q) raw s u ∧
      CountsDrop (QPort.port q) (some 6) 7 (heldBack (ingressBucket q 3) n (QPort.port q) u) t

/-- An uplink control frame of a bound link's crane SID is judged by the link's state and its cycle distance (R68).
Accepted (a WAITING or LAPSED link, or a distance of 1..127), it sets the cycle, clears missed, restarts the
supervision timer, brings the link to LIVE, completes a handover whose new port it arrived on (R69, R70, R92), and is
handed to the C queue of its domain's trunk port, or dropped as port down where that is not usable; a LATE or LAPSED
link raises CRANE-RESTORED and sends its advisory, and a WAITING or LAPSED one adds its span. A duplicate or a stale
frame is dropped and changes nothing but its count (R71). What arrives as such a frame is
`UplinkDataIsLearntAndForwarded`. That the advisory is handed on before the notice frames of the event (log 45), and
the accepted frame after them (log 44), is the model's order. -/
def Obligations.CycleFilterJudgesUplinkControl : Prop :=
  ∀ (l : LinkNo) (f : Frame) (q : QPort) (trunk : Port) (s : State), (s.link l).state ≠ .unbound →
    let x := s.link l
    let fresh := x.state = .waiting ∨ x.state = .lapsed
    let d := fun last => (f.cycle + 256 - last) % 256
    let t := uplinkControl l f q trunk s
    ((fresh ∨ ∃ last, x.cycle = some last ∧ 1 ≤ d last ∧ d last ≤ 127) →
      t.link l =
        (match x.context with
          | some h =>
            if h.new = q then
              { x with
                cycle := some f.cycle, missed := 0, timer := some x.config.period, state := .live
                primary := q, context := none
                counts := { x.counts with completed := min 4294967295 (x.counts.completed + 1) } }
            else { x with cycle := some f.cycle, missed := 0, timer := some x.config.period, state := .live }
          | none => { x with cycle := some f.cycle, missed := 0, timer := some x.config.period, state := .live }) ∧
      (x.state = .late ∨ x.state = .lapsed → TookEvent 2 (.link l) s t ∧
        AdvisorySent l 3 (if s.usable trunk then [] else [trunk]) s t) ∧
      t.flight.spans = s.flight.spans ++ (if fresh then spansFor .add x.segment else []) ∧
      (s.usable trunk = true → t.flight.enqueues.getLast? = some
        { queues := [(trunk, .c)], kind := f.kind, body := .forwarded f.bytes }) ∧
      (s.usable trunk = false →
        (∀ r ∈ t.flight.enqueues.drop s.flight.enqueues.length, r.body.origin ≠ .forwarded) ∧
        (NoticesGoOut s → x.state = .waiting ∨ x.state = .live →
          DropRises 9 1 s t ∧ CounterRises trunk 10 1 s t))) ∧
    (∀ last, ¬fresh → x.cycle = some last → d last = 0 →
      t.link l = { x with counts := { x.counts with duplicates := min 4294967295 (x.counts.duplicates + 1) } } ∧
      DropRises 11 1 s t ∧ t = { s with links := t.links, ctb := t.ctb }) ∧
    (∀ last, ¬fresh → x.cycle = some last → 128 ≤ d last →
      t.link l = { x with counts := { x.counts with stale := min 4294967295 (x.counts.stale + 1) } } ∧
      DropRises 12 1 s t ∧ t = { s with links := t.links, ctb := t.ctb }) ∧
    LinkFrame l s t

/-- A downlink control frame of a bound link's crane SID is checked by state, peer and policer in that order, each
failure with its counts (R75 to R77); one that passes fills the repeat slot when its payload has at most 256 bytes
(R79), and is handed to the C queues of the usable ones of the link's primary port and a handover's new port (R78).
Each of these ports that is not usable counts the frame as port down under the drop reason and its own tx port-down
discards, and where none is usable the frame is dropped, with no frame handed on but notices. The policer is charged
once, and only by a frame that passed the first two checks. The primary port comes before the new port (log 45). -/
def Obligations.DownlinkControlIsCheckedAndDelivered : Prop :=
  ∀ (l : LinkNo) (f : Frame) (arrival : Port) (s : State), f.kind = .craneControl →
    let x := s.link l
    let b := s.bucket (linkBucket l)
    let cost : Int := (f.bytes.length + (if b.overhead then (s.port arrival).overhead else 0)) * 16
    let ports := match x.context with
      | some h => if h.new = x.primary then [x.primary] else [x.primary, h.new]
      | none => [x.primary]
    let good := ports.filter (fun q => s.usable (QPort.port q))
    let bad := ports.filter (fun q => !s.usable (QPort.port q))
    let foreign := ∃ own, x.config.peer = some own ∧ own ≠ f.peer
    let t := downlinkControl l f arrival s
    (x.state = .lapsed →
      t.link l =
        { x with counts := { x.counts with lapsedDiscard := min 4294967295 (x.counts.lapsedDiscard + 1) } } ∧
      DropRises 14 1 s t ∧ t = { s with links := t.links, ctb := t.ctb }) ∧
    (x.state ≠ .lapsed → foreign →
      t.link l = { x with counts := { x.counts with foreign := min 4294967295 (x.counts.foreign + 1) } } ∧
      DropRises 13 1 s t ∧ TookEvent 3 (.foreign l f.peer) s t ∧ t.fsq = s.fsq) ∧
    (x.state ≠ .lapsed → ¬foreign → b.rate ≠ 0 → b.credit < cost →
      t.link l = x ∧ DropRises 7 1 s t ∧ CounterRises arrival 6 1 s t ∧ t.fsq.buckets = s.fsq.buckets) ∧
    (x.state ≠ .lapsed → ¬foreign → (b.rate = 0 ∨ cost ≤ b.credit) →
      let y := if f.payload.length ≤ 256 then { x with slot := some f.bytes } else x
      t.link l = y ∧
      t.bucket (linkBucket l) = (if b.rate = 0 then b else { b with credit := b.credit - cost }) ∧
      (∃ v, DroppedAtPorts (bad.map QPort.port) ((charged (linkBucket l) f.bytes.length arrival s).setLink l y) v ∧
        t = if good = [] then v else { v with flight := { v.flight with enqueues := v.flight.enqueues ++
          [{ queues := good.map (fun q => (QPort.port q, .c)), kind := .craneControl
             body := .forwarded f.bytes }] } }) ∧
      (NoticesGoOut s → DropRisesBy 9 bad.length s t ∧ ∀ q ∈ bad, CounterRises (QPort.port q) 10 1 s t) ∧
      (good = [] → HandsOnNotices s t) ∧
      (good ≠ [] → t.flight.enqueues.getLast? = some
        { queues := good.map (fun q => (QPort.port q, .c)), kind := .craneControl
          body := .forwarded f.bytes }) ∧
      (good = ports → t.flight.enqueues.length = s.flight.enqueues.length + 1)) ∧
    (∀ m, m ≠ l → t.link m = s.link m) ∧
    t = { s with
      links := t.links, fsq := t.fsq, ntu := t.ntu, ctb := t.ctb
      flight := { s.flight with enqueues := t.flight.enqueues } }

/-- A position report at a bound link of any state (R83 to R85): a payload below 2 bytes is dropped with a frame
check count and changes no link; otherwise the last position becomes the report's, the segment is worked out with
hysteresis against the geometry of the active bank, and a change of segment clears the reverted target, moves the
span of a LIVE or LATE link and runs the cell check. CRANE-UNCOVERED is presented. -/
def Obligations.PositionReportsMoveTheLink : Prop :=
  ∀ (l : LinkNo) (f : Frame) (p : Port) (s : State), (s.link l).state ≠ .unbound →
    let x := s.link l
    let g := s.cvm.active.geometry
    let pos := u16At f.payload 0
    let rel := pos - g.origin
    let raw := min 255 (rel / g.length)
    let seg := match x.segment with
      | none => raw
      | some c =>
        if c ≠ 255 ∧ rel ≥ (c + 1) * g.length + g.hysteresis then raw
        else if rel + g.hysteresis < c * g.length then raw
        else c
    let t := positionReport l f p s
    (f.payload.length < 2 → CounterRises p 4 1 s t ∧ DropRises 0 1 s t ∧ t.links = s.links) ∧
    (2 ≤ f.payload.length → x.segment = some seg →
      t.link l = { x with position := some pos } ∧ t.flight.spans = s.flight.spans ∧ UncoveredPresented t) ∧
    (2 ≤ f.payload.length → x.segment ≠ some seg →
      t.link l =
        (cellCheck l (s.setLink l
          { x with position := some pos, segment := some seg, reverted := none })).link l ∧
      t.flight.spans = s.flight.spans ++
        (if x.state = .live ∨ x.state = .late then spansFor .remove x.segment ++ [.add seg] else []) ∧
      UncoveredPresented t) ∧
    LinkFrame l s t

/-- The cell check at a bound link (R86 to R88, R94): a context whose old port is not usable is completed and one
whose new port is not usable is abandoned; a standing port that is a usable candidate stays; otherwise the first
usable candidate is the target, but none where it is the reverted target and the primary port is usable; without a
target nothing more is done, a target at a context cancels or redirects it, and without a context a WAITING or
LAPSED link moves to the target, and a LIVE or LATE link starts a handover, or fails over where its primary port is
not usable. -/
def Obligations.CellCheckDecides : Prop :=
  ∀ (l : LinkNo) (s : State), (s.link l).state ≠ .unbound →
    let x := s.link l
    let up := fun (q : QPort) => s.usable (QPort.port q)
    let y := match x.context with
      | none => x
      | some h =>
        if up h.old = false then
          { x with primary := h.new, context := none
                   counts := { x.counts with completed := min 4294967295 (x.counts.completed + 1) } }
        else if up h.new = false then
          { x with context := none
                   counts := { x.counts with abandoned := min 4294967295 (x.counts.abandoned + 1) } }
        else x
    let standing := match y.context with
      | some h => h.new
      | none => y.primary
    let c := match s.cvm.valid, x.segment with
      | true, some g => ((s.cvm.active.cell g 0).primary, (s.cvm.active.cell g 0).secondary)
      | _, _ => (some x.config.home, none)
    let stays := (c.1 = some standing ∨ c.2 = some standing) ∧ up standing = true
    let first := match c.1, c.2 with
      | some a, b => if up a then some a else b.filter up
      | none, b => b.filter up
    let barred := first = y.reverted ∧ up y.primary = true
    let hold := y.config.hold * y.config.period
    let t := cellCheck l s
    (stays ∨ barred ∨ first = none → t.link l = y ∧ t.flight = s.flight) ∧
    (¬stays → ¬barred → ∀ q, first = some q →
      (∀ h, y.context = some h → q = h.old → t.link l = { y with context := none } ∧ t.flight = s.flight) ∧
      (∀ h, y.context = some h → q ≠ h.old →
        t.link l = { y with
          context := some ⟨h.old, q, hold⟩
          counts := { y.counts with redirected := min 4294967295 (y.counts.redirected + 1) } }) ∧
      (y.context = none → y.state = .waiting ∨ y.state = .lapsed →
        t.link l = { y with primary := q } ∧ t.flight = s.flight) ∧
      (y.context = none → y.state = .live ∨ y.state = .late → up y.primary = true →
        t.link l = { y with context := some ⟨y.primary, q, hold⟩ }) ∧
      (y.context = none → y.state = .live ∨ y.state = .late → up y.primary = false →
        t.link l = { y with
          primary := q, counts := { y.counts with failovers := min 4294967295 (y.counts.failovers + 1) } } ∧
        t.flight = s.flight) ∧
      ((t.link l).context ≠ none → t.flight.enqueues = s.flight.enqueues ++
        (match y.slot with
          | some bytes => [{ queues := [(QPort.port q, .c)], kind := .craneControl, body := .forwarded bytes }]
          | none => []))) ∧
    (∀ m, m ≠ l → t.link m = s.link m) ∧
    t = { s with links := t.links, flight := { s.flight with enqueues := t.flight.enqueues } }

/-! ## Reefer reports and steering -/

/-- A reefer report is checked, clamped, filtered by its counter and taken at its record (R108 to R117). The body's
checks and the values after clamping (R109 to R111), with a truncation counted. A body that fails counts a check
failure and touches no record; a duplicate or stale counter is dropped, counted, and touches no record; an accepted
report updates its record, takes the alarm path when it carries a new code (R115, R117), and is appended to the batch
when it is a significant change (R116); a report of an unknown SID is inserted at the lowest free place as a
significant change with every code new (R112), and is passed through, or dropped as port down, at a full table (R113).
That a report held back above the burst counts under alarm rate alone is the model's choice (log 38). So is the
raising of REEFER-ALARM before the report is forwarded or dropped as port down (log 44), and the count of a pass-through
for a report that is dropped as port down at a full table (log 51). -/
def Obligations.ReeferReportsAreTakenAtTheirRecords : Prop :=
  (∀ body : List Byte,
    let n := (byteAt body 12).toNat
    let well := body.length = 15 + n ∧ u16At body (13 + n) = (crc16 (body.take (13 + n))).toNat ∧
      (byteAt body 2).toNat ≤ 4
    let temperature := fun (lo hi : Int) (i : Nat) =>
      if s16At body i = -32768 then none else some (max lo (min hi (s16At body i)))
    (¬well → readReport body = none) ∧
    (well → ∃ rep, readReport body = some rep ∧
      let x := rep.readings
      let codes := (((body.drop 13).take n).filter (fun c => c != 0 && c != 255)).eraseDups
      x.counter = u16At body 0 ∧ x.unit.code = (byteAt body 2).toNat ∧
      x.segment = (if u16At body 3 = 65535 then none else some (min 255 (u16At body 3))) ∧
      x.lane = (if (byteAt body 5).toNat ≤ 7 then some (byteAt body 5).toNat else none) ∧
      x.setpoint = temperature (-400) 300 6 ∧ x.supply = temperature (-500) 800 8 ∧
      x.ret = temperature (-500) 800 10 ∧ x.alarms = codes.take 4 ∧
      rep.truncated = decide (4 < codes.length))) ∧
  ∀ (f : Frame) (arrival trunk : Port) (s : State), ReeferLaw s →
    let t := takeReport f arrival trunk s
    let up := fun (n : Nat) => min 4294967295 (n + 1)
    (readReport f.payload = none →
      DropRises 15 1 s t ∧ (∀ r, r ≠ 15 → t.ctb.drops.get r = s.ctb.drops.get r) ∧
        t = { s with
          ctb := { s.ctb with drops := t.ctb.drops }
          rcn := { s.rcn with stats := { s.rcn.stats with checkFailures := up s.rcn.stats.checkFailures } } }) ∧
    ∀ rep, readReport f.payload = some rep →
      let new := rep.readings
      let stats := if rep.truncated then { s.rcn.stats with truncations := up s.rcn.stats.truncations }
        else s.rcn.stats
      let dropped := fun (x : RcnStats) =>
        DropRises 16 1 s t ∧ (∀ r, r ≠ 16 → t.ctb.drops.get r = s.ctb.drops.get r) ∧
          t = { s with ctb := { s.ctb with drops := t.ctb.drops }, rcn := { s.rcn with stats := x } }
      (∀ k r, findReefer s f.station = some (k, r) →
        let d := (new.counter + 65536 - r.readings.counter) % 65536
        let restarted := r.state = .reporting ∧ new.counter = 0 ∧ r.readings.counter ≠ 0
        let fresh := new.alarms.filter (fun c => !r.readings.alarms.contains c)
        let significant := r.state ≠ .reporting ∨ r.readings.unit ≠ new.unit ∨
          r.readings.setpoint ≠ new.setpoint ∨ r.readings.supply.isSome ≠ new.supply.isSome ∨
          (∃ a b, r.readings.supply = some a ∧ new.supply = some b ∧ (s.rcn.settings.threshold : Int) ≤ |b - a|) ∨
          ¬∀ c, c ∈ r.readings.alarms ↔ c ∈ new.alarms
        let takes := fun (x : RcnStats) =>
          ∃ v, AlarmPathTaken f arrival trunk fresh { s with rcn := { s.rcn with
              reefers := Table.put s.rcn.reefers k { r with
                readings := new, state := .reporting, missed := 0, heard := true, stamp := s.seconds }
              stats := { x with accepted := up x.accepted } } } v ∧
            (significant → t = batchAppend k .reporting v) ∧ (¬significant → t = v)
        (r.state = .reporting → ¬restarted → d = 0 → dropped { stats with duplicates := up stats.duplicates }) ∧
        (r.state = .reporting → ¬restarted → 32768 ≤ d → dropped { stats with stale := up stats.stale }) ∧
        (restarted → takes { stats with restarts := up stats.restarts }) ∧
        (r.state ≠ .reporting ∨ (¬restarted ∧ 1 ≤ d ∧ d ≤ 32767) → takes stats) ∧
        ((r.state ≠ .reporting ∨ restarted ∨ (1 ≤ d ∧ d ≤ 32767)) →
          (∃ r', findReefer t f.station = some (k, r') ∧
            { r' with place := r.place } =
              { r with
                readings := new, state := .reporting, missed := 0, heard := true, stamp := s.seconds }) ∧
          t.rcn.stats.accepted = up s.rcn.stats.accepted)) ∧
      (∀ k, findReefer s f.station = none → Table.lowestFree s.rcn.reefers 4096 = some k →
        let r : Reefer :=
          { sid := f.station, state := .reporting, readings := new, missed := 0, heard := true
            stamp := s.seconds
            place := match s.rcn.filling.entries.findIdx? (fun v => v.sid == f.station) with
              | none => .none
              | some i => .inFilling i }
        let inserted := { s with rcn := { s.rcn with
          reefers := Table.put s.rcn.reefers k r, stats := { stats with inserts := up stats.inserts } } }
        (∃ u v, (u.source 11).pending = reeferFull inserted ∧ ReportsOnly inserted u ∧
          HandsOnNotices inserted u ∧
          AlarmPathTaken f arrival trunk new.alarms { u with rcn := { u.rcn with stats :=
            { u.rcn.stats with accepted := up u.rcn.stats.accepted } } } v ∧
          t = batchAppend k .reporting v) ∧
        (∃ r', Table.get t.rcn.reefers k = some r' ∧ { r' with place := .none } = { r with place := .none }) ∧
        t.rcn.stats.inserts = up s.rcn.stats.inserts ∧ t.rcn.stats.accepted = up s.rcn.stats.accepted) ∧
      (findReefer s f.station = none → Table.lowestFree s.rcn.reefers 4096 = none →
        let passed := { s with rcn := { s.rcn with stats := { stats with passThroughs := up stats.passThroughs } } }
        (s.usable trunk = true → t = { passed with flight := { s.flight with enqueues := s.flight.enqueues ++
          [{ queues := [(trunk, .d)], kind := f.kind, body := .forwarded f.bytes }] } }) ∧
        (s.usable trunk = false → DroppedPortDown trunk passed t))

/-- Downlink steering of a frame of any kind (R56 to R60): a crane-bound record steers to its link's primary port, a
static and a dynamic record to its port, where that port is usable, and the frame is dropped as port down where it is
not; a SID without a record is delivered to the usable ports of its reefer record's coverage cell while the map is in
use and such a port exists, and otherwise flooded to the usable ports of the flood set. A flood without such a port is
dropped as port down; one that does not conform at the flood policer is dropped with the arrival port's rx policer
drops and the drop reason policer; one that conforms is charged once. Delivery (R57) removes each CRANE-ONLY port that
does not carry the kind, with one service-mode count, and hands the frame on for the domain's data queue on the ports
left, if any. That a located delivery is counted also where those removals leave no port (log 43), and that a set is
taken primary port first, and a flood in ascending order (log 45), is the model's reading. -/
def Obligations.SteeringFollowsTheRecords : Prop :=
  ∀ (f : Frame) (n : Fin 8) (arrival : Port) (s : State),
    let d := s.domain n
    let t := steer f n arrival s
    let up := fun (q : QPort) => s.usable (QPort.port q)
    let carries := fun (q : QPort) => (s.port (QPort.port q)).mode != .craneOnly ||
      [Kind.craneControl, .positionReport, .managementCommand, .managementReply].contains f.kind
    let delivers := fun (u : State) (ports : List QPort) =>
      DropRises 6 (ports.filter (fun q => !carries q)).length u t ∧
      (∀ r, r ≠ 6 → t.ctb.drops.get r = u.ctb.drops.get r) ∧
      t = { u with
        ctb := { u.ctb with drops := t.ctb.drops }
        flight := { u.flight with enqueues := u.flight.enqueues ++
          (if ports.filter carries = [] then []
            else [{ queues := (ports.filter carries).map (fun q => (QPort.port q, d.queue.queue)), kind := f.kind
                    body := .forwarded f.bytes }]) } }
    let toPort := fun (q : QPort) =>
      (up q = true → delivers s [q]) ∧ (up q = false → DroppedPortDown (QPort.port q) s t)
    let cellPorts := fun (g a : Nat) =>
      ((s.cvm.active.cell g a).primary.toList ++ (s.cvm.active.cell g a).secondary.toList).filter up
    let placed := fun (g a : Nat) => s.cvm.valid = true ∧ ∃ k r, findReefer s f.station = some (k, r) ∧
      r.readings.segment = some g ∧ r.readings.lane = some a
    let ports := (List.finRange 12).filter (fun q => d.flood.getLsbD q.val && up q)
    let b := floodBucket n
    (∀ k sid q, findStatic s f.station = some (k, ⟨sid, .static q⟩) → toPort q) ∧
    (∀ k sid l, findStatic s f.station = some (k, ⟨sid, .crane l⟩) → toPort (s.link l).primary) ∧
    (∀ k r, findStatic s f.station = none → findDynamic s f.station = some (k, r) → toPort r.port) ∧
    (findStatic s f.station = none → findDynamic s f.station = none →
      (∀ g a, placed g a → cellPorts g a ≠ [] →
        delivers { s with stt := { s.stt with stats := { s.stt.stats with
          located := min 4294967295 (s.stt.stats.located + 1) } } } (cellPorts g a)) ∧
      ((∀ g a, placed g a → cellPorts g a = []) →
        (ports = [] → DropRises 9 1 s t ∧ (∀ r, r ≠ 9 → t.ctb.drops.get r = s.ctb.drops.get r) ∧
          t = { s with ctb := { s.ctb with drops := t.ctb.drops } }) ∧
        (ports ≠ [] → Conforms b f.bytes.length arrival s →
          delivers (charged b f.bytes.length arrival { s with stt := { s.stt with stats := { s.stt.stats with
            floods := min 4294967295 (s.stt.stats.floods + 1) } } }) ports) ∧
        (ports ≠ [] → ¬Conforms b f.bytes.length arrival s →
          CountsDrop arrival (some 6) 7 (heldBack b f.bytes.length arrival s) t))) ∧
    t = { s with
      stt := { s.stt with stats := t.stt.stats }, fsq := t.fsq, ntu := t.ntu, ctb := t.ctb
      flight := { s.flight with enqueues := t.flight.enqueues } }

/-- A frame offered to learning (R48 to R50): a SID of the static collection is not learnt; an unknown SID takes the
lowest free place, or counts a learn fail at a full collection; a known one is refreshed on its own port, moves to
another port whose grade is at least the learning margin better or when its age is at most 1, and is otherwise left
as it was and counted as competing. STATION-FULL is presented as it stands after an insertion; a failed insertion does
not change it, and no learning leaves it other than presented where it was (R49). -/
def Obligations.LearningFollowsTheEvidence : Prop :=
  ∀ (sid : Sid) (q : QPort) (g : Nat) (s : State),
    let t := learn sid q g s
    (findStatic s sid ≠ none → t = s) ∧
    (findStatic s sid = none → findDynamic s sid = none →
      (∀ k, Table.lowestFree s.stt.dynamics 2048 = some k →
        t.stt = { s.stt with
          dynamics := Table.put s.stt.dynamics k ⟨sid, q, g, 3⟩
          stats := { s.stt.stats with inserts := min 4294967295 (s.stt.stats.inserts + 1) } } ∧
        StationFullPresented t) ∧
      (Table.lowestFree s.stt.dynamics 2048 = none → t.stt = s.stt ∧ DropRises 10 1 s t ∧ t.ntu = s.ntu)) ∧
    (∀ k r, findStatic s sid = none → findDynamic s sid = some (k, r) →
      (r.port = q → t.stt = { s.stt with dynamics := Table.put s.stt.dynamics k ⟨r.sid, q, g, 3⟩ }) ∧
      (r.port ≠ q → (r.grade + s.stt.margin ≤ g ∨ r.age ≤ 1) →
        t.stt = { s.stt with
          dynamics := Table.put s.stt.dynamics k ⟨r.sid, q, g, 3⟩
          stats := { s.stt.stats with moves := min 4294967295 (s.stt.stats.moves + 1) } }) ∧
      (r.port ≠ q → g < r.grade + s.stt.margin → 2 ≤ r.age →
        t.stt = { s.stt with
          stats := { s.stt.stats with competing := min 4294967295 (s.stt.stats.competing + 1) } } ∧
        t.ntu = s.ntu)) ∧
    (StationFullPresented s → StationFullPresented t) ∧
    t = { s with
      stt := t.stt, ntu := t.ntu, ctb := t.ctb, flight := { s.flight with enqueues := t.flight.enqueues } }

/-! ## The coverage map -/

/-- A span event, taken in the order the CLS issued it, raises or lowers by 1 the count of the segments of its shadow
span and of no other (R16). COMMIT-MAP marks a swap pending and stays in progress (R12). An expiry of the coverage
epoch timer restarts the timer with the period as it is now and, with no swap pending, changes nothing else (R11);
with a swap pending the banks exchange roles unchanged, the map is valid, both cursors are fresh, MAP-COMMITTED takes
the number of the active bank, a re-evaluation is sent to each bound link that holds a position, and the COMMIT-MAP
ends OK with that number (R13). That a removal at a count of 0 leaves 0 (log 27), and that span events are taken in
the order issued while re-evaluations stand in flight (log 6), is the model's choice. -/
def Obligations.SpanEventsAndTheSwap : Prop :=
  (∀ (g : Nat) (rest : List SpanEvent) (s : State),
    (s.flight.spans = .add g :: rest →
      ∃ t, exec (.addSpan g) s = .next t ∧
        (∀ i : Fin 256, t.cvm.overlay.get i =
          s.cvm.overlay.get i + (if i.val + 1 = g ∨ i.val = g ∨ i.val = g + 1 then 1 else 0)) ∧
        t = { s with
          cvm := { s.cvm with overlay := t.cvm.overlay }, flight := { s.flight with spans := rest } }) ∧
    (s.flight.spans = .remove g :: rest →
      ∃ t, exec (.removeSpan g) s = .next t ∧
        (∀ i : Fin 256, t.cvm.overlay.get i =
          s.cvm.overlay.get i - (if i.val + 1 = g ∨ i.val = g ∨ i.val = g + 1 then 1 else 0)) ∧
        t = { s with
          cvm := { s.cvm with overlay := t.cvm.overlay }, flight := { s.flight with spans := rest } })) ∧
  (∀ (s : State) (e : Execution), Awaits s e .commitMap →
    exec .commitMap s = .next
      { s with cvm := { s.cvm with swapPending := true }, mga := { s.mga with phase := .held e } }) ∧
  (∀ (s : State) (n : Nat), s.cvm.epochTimer = some n → s.cvm.swapPending = false →
    exec .coverageEpochExpiry s =
      .next { s with cvm := { s.cvm with epochTimer := some s.cvm.epochPeriod } }) ∧
  ∀ (s : State) (n : Nat) (e : Execution), s.cvm.epochTimer = some n → s.cvm.swapPending = true →
    s.mga.phase = .held e →
    ∃ u, exec .coverageEpochExpiry s =
        .next (completeCommand false e .ok [if s.cvm.activeIsOne then 0 else 1] u) ∧
      u.cvm = { s.cvm with
        activeIsOne := !s.cvm.activeIsOne, valid := true, swapPending := false, writeCursor := none
        readCursor := none, epochTimer := some s.cvm.epochPeriod } ∧
      TookEvent 14 (.bank (!s.cvm.activeIsOne)) s u ∧ (u.source 15).pending = false ∧
      u.flight.reevaluations = s.flight.reevaluations ++
        (boundLinks s).filter (fun l => (s.link l).position.isSome) ∧
      u = { s with
        cvm := u.cvm, ntu := u.ntu, ctb := u.ctb
        flight := { s.flight with enqueues := u.flight.enqueues, reevaluations := u.flight.reevaluations } }

/-- SET-GEOMETRY writes the shadow bank's geometry in its ranges (R9), COPY-ACTIVE copies the active bank into
the shadow bank (R10), and SET-EPOCH stores its period in its range and leaves the interval in progress (R11).
SET-WINDOW refuses an order or a direction code above 1 with BAD-ARGUMENT, and a start beyond its end as clamped
with WINDOW-INVALID; otherwise it replaces the window and marks both cursors fresh (R5). -/
def Obligations.MapSettingsCommands : Prop :=
  ((∀ (o n h : Nat) (s : State) (e : Execution), Awaits s e (.setGeometry o n h) →
    let g : Geometry := ⟨o, max 50 (min 1000 n), min 255 h⟩
    exec (.setGeometry o n h) s = .next (completeCommand false e
      (if 50 ≤ n ∧ n ≤ 1000 ∧ h ≤ 255 then .ok else .clamped) (be2 g.origin ++ be2 g.length ++ be2 g.hysteresis)
      { s with cvm :=
        if s.cvm.activeIsOne then { s.cvm with bank0 := { s.cvm.bank0 with geometry := g } }
        else { s.cvm with bank1 := { s.cvm.bank1 with geometry := g } } })) ∧
  (∀ (s : State) (e : Execution), Awaits s e .copyActive →
    exec .copyActive s = .next (completeCommand false e .ok []
      { s with cvm :=
        if s.cvm.activeIsOne then { s.cvm with bank0 := s.cvm.bank1 }
        else { s.cvm with bank1 := s.cvm.bank0 } })) ∧
  ∀ (p : Nat) (s : State) (e : Execution), Awaits s e (.setEpoch p) →
    exec (.setEpoch p) s = .next (completeCommand false e (if 10 ≤ p ∧ p ≤ 1000 then .ok else .clamped)
      (be2 (max 10 (min 1000 p))) { s with cvm := { s.cvm with epochPeriod := max 10 (min 1000 p) } })) ∧
  ∀ (a b c d o x : Nat) (s : State) (e : Execution), Awaits s e (.setWindow a b c d o x) →
    (1 < o ∨ 1 < x →
      exec (.setWindow a b c d o x) s = .next (completeCommand false e .badArgument [] s)) ∧
    (o ≤ 1 → x ≤ 1 → (min 255 b < a ∨ min 7 d < c) →
      exec (.setWindow a b c d o x) s = .next (completeCommand false e .windowInvalid [] s)) ∧
    (o ≤ 1 → x ≤ 1 → a ≤ min 255 b → c ≤ min 7 d →
      exec (.setWindow a b c d o x) s = .next (completeCommand false e
        (if b ≤ 255 ∧ d ≤ 7 then .ok else .clamped)
        (be2 a ++ be2 (min 255 b) ++ be1 c ++ be1 (min 7 d) ++ be1 o ++ be1 x)
        { s with cvm := { s.cvm with
          window :=
            { segStart := a, segEnd := min 255 b, laneStart := c, laneEnd := min 7 d
              order := if o = 0 then .laneFirst else .segmentFirst
              direction := if x = 0 then .ascending else .descending }
          writeCursor := none, readCursor := none } }))

/-- STREAM-CELLS stores its values in window order from its starting cell into the shadow bank: each cell ends
with the last value stored at it, as R2 stores it, and a cell that no value reached is as before; the write cursor
holds the position reached, and nothing else changes (R2, R4, R7). A count out of range is refused. READ-CELLS
returns, in window order from its starting cell, the cells of the bank it names, as many as fit in the room that
remains, and moves the read cursor past those returned; no cell changes (R4, R8, R171). The cursor position in the
result is a byte each for segment and lane (log 18). -/
def Obligations.CellCommandsWalkTheWindow : Prop :=
  (∀ (cont n : Nat) (values : List CellValue) (s : State) (e : Execution), MapLaw s →
    Awaits s e (.streamCells cont n values) →
    (n = 0 ∨ 64 < n →
      exec (.streamCells cont n values) s = .next (completeCommand false e .badArgument [] s)) ∧
    (1 ≤ n → n ≤ 64 →
      let w := s.cvm.window
      let start := match s.cvm.writeCursor with
        | some p => if cont = 0 then w.firstCell else p
        | none => w.firstCell
      ∃ u, exec (.streamCells cont n values) s = .next (completeCommand false e
          (if values.any cellClamped then .clamped else .ok)
          (be2 n ++ be2 (w.wraps start n) ++ be1 (w.after start n).1 ++ be1 (w.after start n).2) u) ∧
        values.length = n ∧
        (∀ g a, g ≤ 255 → a ≤ 7 → u.cvm.shadow.cell g a =
          match ((List.range n).filter (fun j => w.after start j == (g, a))).getLast? with
          | some j => (values[j]?.map storedCell).getD .empty
          | none => s.cvm.shadow.cell g a) ∧
        u.cvm.shadow.geometry = s.cvm.shadow.geometry ∧
        u = { s with cvm := { s.cvm.setShadow u.cvm.shadow with writeCursor := some (w.after start n) } })) ∧
  ∀ (k cont count : Nat) (s : State) (e : Execution), Awaits s e (.readCells k cont count) →
    (1 < k ∨ count = 0 ∨ 256 < count →
      exec (.readCells k cont count) s = .next (completeCommand false e .badArgument [] s)) ∧
    (k ≤ 1 → 1 ≤ count → count ≤ 256 → 12 ≤ e.room →
      let w := s.cvm.window
      let start := match s.cvm.readCursor with
        | some p => if cont = 0 then w.firstCell else p
        | none => w.firstCell
      let bank := if (k = 0 ↔ s.cvm.activeIsOne = true) then s.cvm.bank1 else s.cvm.bank0
      let number := if (k = 0 ↔ s.cvm.activeIsOne = true) then 1 else 0
      let n := min count ((e.room - 12) / 2)
      exec (.readCells k cont count) s = .next (completeCommand false e (if n = count then .ok else .partialFit)
        (be1 number ++ flagByte s.cvm.valid ++ geometryBytes bank.geometry ++ be2 n ++ be2 (w.wraps start n) ++
          (List.range n).flatMap (fun j => cellBytes (bank.cell (w.after start j).1 (w.after start j).2)))
        (if n = 0 then s else { s with cvm := { s.cvm with readCursor := some (w.after start n) } })))

/-! ## Crane links -/

/-- A supervision expiry at a link whose timer runs (R73, R74, R80): missed rises by 1; at the lapse limit the link
lapses, dropping its context and its span, with its advisory and CRANE-LAPSE; otherwise a LIVE link at the late limit
goes LATE, with its advisory and CRANE-LATE, and the timer restarts with the period as it is now. An expiry of a hold
timer reverts the handover (R93): the context is removed, the new port becomes the reverted target, and
HANDOVER-REVERTED takes the link and that port. CRANE-UNCOVERED is presented at each of these but an expiry that changes
no state, at which nothing but the link changes (R100). That the advisory is handed on before the notice frames of the
event (log 45), and CRANE-UNCOVERED presented last (log 44), is the model's order. -/
def Obligations.CraneTimersSuperviseAndRevert : Prop :=
  (∀ (l : LinkNo) (n : Nat) (s : State), (s.link l).timer = some n →
    let x := s.link l
    let m := x.missed + 1
    ∃ t, exec (.supervisionExpiry l) s = .next t ∧
      (x.config.lapse ≤ m →
        t.link l = { x with
          state := .lapsed, missed := m, timer := none, context := none
          counts := { x.counts with lapses := min 4294967295 (x.counts.lapses + 1) } } ∧
        t.flight.spans = s.flight.spans ++ spansFor .remove x.segment ∧ AdvisorySent l 2 [] s t ∧
        TookEvent 1 (.link l) s t ∧ UncoveredPresented t) ∧
      (m < x.config.lapse → x.state = .live → x.config.late ≤ m →
        t.link l = { x with
          state := .late, missed := m, timer := some x.config.period
          counts := { x.counts with late := min 4294967295 (x.counts.late + 1) } } ∧
        t.flight.spans = s.flight.spans ∧ AdvisorySent l 1 [] s t ∧ TookEvent 0 (.link l) s t ∧
        UncoveredPresented t) ∧
      (m < x.config.lapse → (x.state ≠ .live ∨ m < x.config.late) →
        t.link l = { x with missed := m, timer := some x.config.period } ∧ t = { s with links := t.links }) ∧
      LinkFrame l s t) ∧
  ∀ (l : LinkNo) (h : Handover) (s : State), (s.link l).context = some h →
    ∃ t, exec (.holdExpiry l) s = .next t ∧
      t.link l = { s.link l with
        context := none, reverted := some h.new
        counts := { (s.link l).counts with reverted := min 4294967295 ((s.link l).counts.reverted + 1) } } ∧
      TookEvent 4 (.reverted l h.new) s t ∧ t.flight.spans = s.flight.spans ∧ UncoveredPresented t ∧
      LinkFrame l s t

/-- A link-down announcement at a bound link, the oldest in flight to it (R96): a handover whose old port went
down completes, one whose new port went down is abandoned and the cell check runs, a link without a context whose
primary port went down runs the cell check, and any other link is left as it was. A link-up announcement of a quay
port runs the cell check, and one of a trunk port acts on no link (R97). CRANE-UNCOVERED is presented (R100). The
re-evaluation of a bound link that holds a position, due after a swap (R98): the raw segment of that position
under the active geometry becomes the segment, without hysteresis; a LIVE or LATE link whose segment changes moves
its span; the reverted target is cleared, and the cell check runs. The events in flight to a link are the model's
form of what R21 and R13 announce (log 6). -/
def Obligations.EventsAtLinksRunTheCellCheck : Prop :=
  (∀ (up : Bool) (l : LinkNo) (p : Port) (s : State), (s.link l).state ≠ .unbound →
    s.flight.linkEvents.find? (fun v => v.link == l) = some ⟨up, l, p⟩ →
    let x := s.link l
    let checked := fun (y : Link) => (cellCheck l (s.setLink l y)).link l
    ∃ t, exec (if up then .clsLinkUp l p else .clsLinkDown l p) s = .next t ∧
      (up = false → ∀ h, x.context = some h →
        t.link l =
          if QPort.port h.old = p then
            { x with primary := h.new, context := none
                     counts := { x.counts with completed := min 4294967295 (x.counts.completed + 1) } }
          else if QPort.port h.new = p then
            checked { x with context := none
                             counts := { x.counts with abandoned := min 4294967295 (x.counts.abandoned + 1) } }
          else x) ∧
      (up = false → x.context = none → t.link l = if QPort.port x.primary = p then checked x else x) ∧
      (up = true → t.link l = if Port.isQuay p then checked x else x) ∧
      t.flight.linkEvents = s.flight.linkEvents.erase ⟨up, l, p⟩ ∧ UncoveredPresented t ∧
      (∀ m, m ≠ l → t.link m = s.link m) ∧
      t = { s with
        links := t.links, ntu := t.ntu, ctb := t.ctb
        flight := { s.flight with enqueues := t.flight.enqueues, linkEvents := t.flight.linkEvents } }) ∧
  ∀ (l : LinkNo) (pos : Nat) (s : State), (s.link l).state ≠ .unbound → (s.link l).position = some pos →
    l ∈ s.flight.reevaluations →
    let x := s.link l
    let g := s.cvm.active.geometry
    let seg := min 255 ((pos - g.origin) / g.length)
    ∃ t, exec (.mapSwappedReevaluation l) s = .next t ∧
      t.link l = (cellCheck l (s.setLink l { x with segment := some seg, reverted := none })).link l ∧
      t.flight.spans = s.flight.spans ++
        (if (x.state = .live ∨ x.state = .late) ∧ x.segment ≠ some seg
          then spansFor .remove x.segment ++ [.add seg] else []) ∧
      t.flight.reevaluations = s.flight.reevaluations.erase l ∧ UncoveredPresented t ∧
      (∀ m, m ≠ l → t.link m = s.link m) ∧
      t = { s with
        links := t.links, ntu := t.ntu, ctb := t.ctb
        flight := { s.flight with
          enqueues := t.flight.enqueues, spans := t.flight.spans, reevaluations := t.flight.reevaluations } }

/-- SET-CRANE (R63 to R65): the argument checks refuse with BAD-ARGUMENT; another SID than a bound link's own, a SID
without the crane option at an UNBOUND link, and a SID that another link binds refuse with CONFLICT; a full static
collection refuses with TABLE-FULL. Accepted, the values are brought into their ranges; an UNBOUND link is bound,
WAITING at its home port with its policer full and its SID crane-bound in the static collection, and a bound link
takes the configuration and its policer the new values, and nothing else of it changes. These are the model's
readings: the count-overhead flag is carried in the result as 1 when set (log 18); CRANE-UNCOVERED is presented at a
binding and at an update that changes the home port, and at no other update (log 33); a SID already crane-bound to
this same UNBOUND link, which no run reaches, is bound with its record left as it is (log 30). A binding presents
STATION-FULL as it stands after the removal of the SID's dynamic record (R47, R49). -/
def Obligations.SetCraneBindsOrUpdates : Prop :=
  ∀ (n : Nat) (sid : Sid) (pf : Nat) (peer : Sid) (home per late lapse hold rate burst ovh : Nat) (s : State)
    (e : Execution),
    let i : Instr := .setCrane n sid pf peer home per late lapse hold rate burst ovh
    Awaits s e i →
    let bad := 23 < n ∨ 11 < home ∨ per = 0 ∨ 1 < pf ∨ sid = 0 ∨ (pf = 1 ∧ peer = 0)
    let late' := max 1 (min 8 late)
    let lapse' := max (late' + 1) (min 16 lapse)
    let ends := fun (st : Status) => exec i s = .next (completeCommand false e st [] s)
    (bad → ends .badArgument) ∧
    ∀ (l : LinkNo) (q : QPort), ¬bad → n = l.val → home = q.val →
      let c : LinkConfig :=
        { sid := sid, peer := if pf = 1 then some peer else none, home := q, period := min 250 per, late := late'
          lapse := lapse', hold := max 1 (min 32 hold) }
      let st := if per ≤ 250 ∧ late' = late ∧ lapse' = lapse ∧ 1 ≤ hold ∧ hold ≤ 32 ∧ rate ≤ 240 ∧ 64 ≤ burst
        then Status.ok else .clamped
      let b := s.bucket (linkBucket l)
      let values := fun (code : Nat) => sidBytes sid ++ optBytes 4 sidBytes c.peer ++ be1 home ++ be2 c.period ++
        be1 c.late ++ be1 c.lapse ++ be1 c.hold ++ be1 (min 240 rate) ++ be2 (max 64 burst) ++
        flagByte (ovh != 0) ++ be1 code
      ((s.link l).state ≠ .unbound → (s.link l).config.sid ≠ sid → ends .conflict) ∧
      ((s.link l).state ≠ .unbound → (s.link l).config.sid = sid →
        ∃ u, exec i s = .next (completeCommand false e st (values (s.link l).state.code) u) ∧
          u.link l = { s.link l with config := c } ∧
          u.bucket (linkBucket l) =
            { b with rate := min 240 rate, burst := max 64 burst, overhead := ovh != 0
                     credit := min b.credit ((max 64 burst : Nat) * 16) } ∧
          (q ≠ (s.link l).config.home → UncoveredPresented u) ∧
          (q = (s.link l).config.home → u.ntu = s.ntu ∧ u.ctb = s.ctb ∧ u.flight = s.flight) ∧
          (∀ m, m ≠ l → u.link m = s.link m) ∧ (∀ k, k ≠ linkBucket l → u.bucket k = s.bucket k) ∧
          u = { s with
            links := u.links, fsq := { s.fsq with buckets := u.fsq.buckets }, ntu := u.ntu, ctb := u.ctb
            flight := { s.flight with enqueues := u.flight.enqueues } }) ∧
      ((s.link l).state = .unbound → (∀ k, classify s.idc sid = some k → k.options.crane = false) →
        ends .conflict) ∧
      ∀ k, (s.link l).state = .unbound → classify s.idc sid = some k → k.options.crane = true →
        (∀ j r m, findStatic s sid = some (j, r) → r.binding = .crane m → m ≠ l → ends .conflict) ∧
        (findStatic s sid = none → Table.lowestFree s.stt.statics 64 = none → ends .tableFull) ∧
        ∀ statics',
          (∃ j, ((findStatic s sid = none ∧ Table.lowestFree s.stt.statics 64 = some j) ∨
              (∃ r q', findStatic s sid = some (j, r) ∧ r.binding = .static q')) ∧
            statics' = Table.put s.stt.statics j ⟨sid, .crane l⟩) ∨
          (∃ j r, findStatic s sid = some (j, r) ∧ r.binding = .crane l ∧ statics' = s.stt.statics) →
          ∃ u, exec i s = .next (completeCommand false e st (values 1) u) ∧
            u.link l =
              { state := .waiting, config := c, missed := 0, cycle := none, position := none, segment := none
                primary := q, context := none, reverted := none, slot := none
                counts := ⟨0, 0, 0, 0, 0, 0, 0, 0, 0, 0, 0⟩, timer := none } ∧
            u.bucket (linkBucket l) =
              { b with rate := min 240 rate, burst := max 64 burst, overhead := ovh != 0
                       credit := (max 64 burst : Nat) * 16 } ∧
            u.stt = { s.stt with
              statics := statics'
              dynamics := match findDynamic s sid with
                | some (d, _) => Table.erase s.stt.dynamics d
                | none => s.stt.dynamics } ∧
            (StationFullPresented s ∨ findDynamic s sid ≠ none → StationFullPresented u) ∧
            UncoveredPresented u ∧ (∀ m, m ≠ l → u.link m = s.link m) ∧
            (∀ k, k ≠ linkBucket l → u.bucket k = s.bucket k) ∧
            u = { s with
              stt := u.stt, links := u.links, fsq := { s.fsq with buckets := u.fsq.buckets }, ntu := u.ntu
              ctb := u.ctb, flight := { s.flight with enqueues := u.flight.enqueues } }

/-- CLEAR-CRANE unbinds a bound link (R66): its span is removed when one is counted, its crane-bound record is
removed, and it becomes UNBOUND with its counts kept; a number above 23 is a BAD-ARGUMENT and an UNBOUND link is
NOT-FOUND. READ-CRANE returns a bound link's record field by field, and with its clear flag sets the link's counts to
0 afterwards; the remaining hold time is left open below the period the timer began with (log 9). An UNBOUND link
gives its state and counts, every other field as 0 bytes (log 12) (R67). Missed takes one byte (log 48), and the codes
of the record, with a set flag as 1, are the model's reading (log 18). -/
def Obligations.ClearAndReadCrane : Prop :=
  (∀ (n : Nat) (s : State) (e : Execution), Awaits s e (.clearCrane n) →
    (23 < n → exec (.clearCrane n) s = .next (completeCommand false e .badArgument [] s)) ∧
    ∀ l : LinkNo, n = l.val →
      ((s.link l).state = .unbound → exec (.clearCrane n) s = .next (completeCommand false e .notFound [] s)) ∧
      ((s.link l).state ≠ .unbound →
        let x := s.link l
        ∃ u, exec (.clearCrane n) s = .next (completeCommand false e .ok [] u) ∧
          (u.link l).state = .unbound ∧ (u.link l).counts = x.counts ∧ (u.link l).context = none ∧
          (u.link l).timer = none ∧ (u.link l).missed = 0 ∧ (u.link l).cycle = none ∧
          (u.link l).position = none ∧ (u.link l).segment = none ∧ (u.link l).reverted = none ∧
          (u.link l).slot = none ∧
          u.flight.spans = s.flight.spans ++
            (if x.state = .live ∨ x.state = .late then spansFor .remove x.segment else []) ∧
          (∀ j r m, findStatic s x.config.sid = some (j, r) → r.binding = .crane m →
            u.stt = { s.stt with statics := Table.erase s.stt.statics j }) ∧
          UncoveredPresented u ∧ (∀ m, m ≠ l → u.link m = s.link m) ∧
          u = { s with
            stt := { s.stt with statics := u.stt.statics }, links := u.links, ntu := u.ntu, ctb := u.ctb
            flight := { s.flight with enqueues := u.flight.enqueues, spans := u.flight.spans } })) ∧
  ∀ (n clear : Nat) (s : State) (e : Execution), Awaits s e (.readCrane n clear) →
    (23 < n → exec (.readCrane n clear) s = .next (completeCommand false e .badArgument [] s)) ∧
    ∀ l : LinkNo, n = l.val →
      let x := s.link l
      let b := s.bucket (linkBucket l)
      let c := x.config
      let cleared := if clear = 0 then s
        else s.setLink l { x with counts := ⟨0, 0, 0, 0, 0, 0, 0, 0, 0, 0, 0⟩ }
      let counts := [x.counts.late, x.counts.lapses, x.counts.duplicates, x.counts.stale, x.counts.foreign,
        x.counts.lapsedDiscard, x.counts.completed, x.counts.reverted, x.counts.redirected, x.counts.abandoned,
        x.counts.failovers].flatMap be4
      (x.state = .unbound →
        exec (.readCrane n clear) s = .next (completeCommand false e .ok
          ([0] ++ List.replicate 38 0 ++ counts ++ List.replicate 4 0) cleared)) ∧
      (x.state ≠ .unbound →
        ∃ left : Handover → Nat, (∀ h, left h ≤ h.timer) ∧
        exec (.readCrane n clear) s = .next (completeCommand false e .ok
          (be1 x.state.code ++
            (sidBytes c.sid ++ optBytes 4 sidBytes c.peer ++ be1 c.home.val ++ be2 c.period ++ be1 c.late ++
              be1 c.lapse ++ be1 c.hold ++ be1 b.rate ++ be2 b.burst ++ flagByte b.overhead) ++
            be1 x.missed ++ optBytes 1 be1 x.cycle ++ optBytes 2 be2 x.position ++ optBytes 1 be1 x.segment ++
            optBytes 1 (fun q => be1 q.val) x.reverted ++ be1 x.primary.val ++
            optBytes 4 (fun h => be1 h.old.val ++ be1 h.new.val ++ be2 (left h)) x.context ++
            optBytes 2 (fun f => be2 f.length) x.slot ++ counts ++ signed4 b.credit)
          (if x.context = none then cleared else { cleared with freeUse := s.freeUse + 1 })))

/-! ## The station table -/

/-- An expiry of the aging timer or of the report period timer restarts that timer with its period as it is now,
and begins a sweep at place 0 when none is in progress, is remembered when one is and none is remembered, and is an
overrun otherwise, counted and raised with the name of the sweep (R52, R121). -/
def Obligations.PeriodTimersBeginSweeps : Prop :=
  (∀ (n : Nat) (s : State), s.stt.agingTimer = some n →
    let u := { s.stt with agingTimer := some s.stt.agingPeriod }
    (s.stt.sweep = none → exec .agingTimerExpiry s = .next { s with stt := { u with sweep := some 0 } }) ∧
    (s.stt.sweep ≠ none → s.stt.remembered = false →
      exec .agingTimerExpiry s = .next { s with stt := { u with remembered := true } }) ∧
    (s.stt.sweep ≠ none → s.stt.remembered = true →
      ∃ t, exec .agingTimerExpiry s = .next t ∧ TookEvent 13 (.sweep .aging) s t ∧
        t.stt = { u with
          stats := { s.stt.stats with agingOverruns := min 4294967295 (s.stt.stats.agingOverruns + 1) } } ∧
        ReportsOnly { s with stt := t.stt } t)) ∧
  ∀ (n : Nat) (s : State), s.rcn.periodTimer = some n →
    let u := { s.rcn with periodTimer := some s.rcn.settings.reportPeriod }
    (s.rcn.sweep = none → exec .reportPeriodExpiry s = .next { s with rcn := { u with sweep := some 0 } }) ∧
    (s.rcn.sweep ≠ none → s.rcn.remembered = false →
      exec .reportPeriodExpiry s = .next { s with rcn := { u with remembered := true } }) ∧
    (s.rcn.sweep ≠ none → s.rcn.remembered = true →
      ∃ t, exec .reportPeriodExpiry s = .next t ∧ TookEvent 13 (.sweep .reefer) s t ∧
        t.rcn = { u with
          stats := { s.rcn.stats with sweepOverruns := min 4294967295 (s.rcn.stats.sweepOverruns + 1) } } ∧
        ReportsOnly { s with rcn := t.rcn } t)

/-- The aging sweep's visit to a place takes 1 from the age of the record there, removing and counting it at age 0;
a purge walk's visit removes and counts a record whose port is in its set; a free place is passed over. A walk goes
on to the next place up to 2047, and at its end the expiry remembered, or the waiting set, begins a new one at
place 0 (R53, R54). -/
def Obligations.StationWalksVisitEachPlace : Prop :=
  (∀ (k : Nat) (s : State), s.stt.sweep = some k →
    let again := decide (2047 ≤ k) && s.stt.remembered
    ∃ t, exec .agingSweepVisit s = .next t ∧
      (Table.get s.stt.dynamics k = none → t.stt.dynamics = s.stt.dynamics ∧ t.stt.stats = s.stt.stats) ∧
      (∀ r, Table.get s.stt.dynamics k = some r → 2 ≤ r.age →
        t.stt.dynamics = Table.put s.stt.dynamics k { r with age := r.age - 1 } ∧ t.stt.stats = s.stt.stats) ∧
      (∀ r, Table.get s.stt.dynamics k = some r → r.age ≤ 1 →
        t.stt.dynamics = Table.erase s.stt.dynamics k ∧ StationFullPresented t ∧
          t.stt.stats =
            { s.stt.stats with agingRemovals := min 4294967295 (s.stt.stats.agingRemovals + 1) }) ∧
      t.stt.sweep = (if k < 2047 then some (k + 1) else if s.stt.remembered then some 0 else none) ∧
      t.stt.remembered = (s.stt.remembered && !again) ∧
      ReportsOnly { s with stt :=
        { s.stt with
          dynamics := t.stt.dynamics, stats := t.stt.stats, sweep := t.stt.sweep
          remembered := t.stt.remembered } } t) ∧
  (∀ (w : Walk) (s : State), s.stt.walk = some w →
    let purged := fun (r : DynRec) => w.ports.getLsbD r.port.val
    ∃ t, exec .purgeWalkVisit s = .next t ∧
      ((∀ r, Table.get s.stt.dynamics w.next = some r → purged r = false) →
        t.stt.dynamics = s.stt.dynamics ∧ t.stt.stats = s.stt.stats) ∧
      (∀ r, Table.get s.stt.dynamics w.next = some r → purged r = true →
        t.stt.dynamics = Table.erase s.stt.dynamics w.next ∧ StationFullPresented t ∧
          t.stt.stats =
            { s.stt.stats with purgeRemovals := min 4294967295 (s.stt.stats.purgeRemovals + 1) }) ∧
      t.stt.walk = (if w.next < 2047 then some ⟨w.next + 1, w.ports⟩
        else if s.stt.waiting = 0 then none else some ⟨0, s.stt.waiting⟩) ∧
      t.stt.waiting = (if w.next < 2047 then s.stt.waiting else 0) ∧
      ReportsOnly { s with stt :=
        { s.stt with
          dynamics := t.stt.dynamics, stats := t.stt.stats, walk := t.stt.walk
          waiting := t.stt.waiting } } t) ∧
  ∀ (p : Port) (s : State), p ∈ s.flight.stationDowns →
    ∃ t, exec (.sttLinkDown p) s = .next t ∧
      (∀ q, Port.quay p = some q → s.stt.walk = none →
        t.stt = { s.stt with walk := some ⟨0, quaySingle q⟩ }) ∧
      (∀ q, Port.quay p = some q → s.stt.walk ≠ none →
        t.stt = { s.stt with waiting := s.stt.waiting ||| quaySingle q }) ∧
      (Port.isQuay p = false → t.stt = s.stt) ∧
      t = { s with
        stt := t.stt, flight := { s.flight with stationDowns := s.flight.stationDowns.erase p } }

/-- SET-STATION, CLEAR-STATION and READ-STATION (R44 to R46): a crane-bound SID conflicts with a write and a removal;
a static record is replaced in its place or inserted at the lowest free one, removing a dynamic record of the SID; a
removal frees the place of the record that holds the SID; a read gives that record; a SID that no record holds is
NOT-FOUND. A removal of a dynamic record presents STATION-FULL as it then stands (R49). The codes of the kind, and a
set flag as 1, are the model's reading (log 18). -/
def Obligations.StationCommandsWriteAndRead : Prop :=
  ∀ (sid : Sid) (s : State) (e : Execution),
    let without := match findDynamic s sid with
      | some (d, _) => Table.erase s.stt.dynamics d
      | none => s.stt.dynamics
    (∀ n, Awaits s e (.setStation sid n) →
      let ends := fun (st : Status) => exec (.setStation sid n) s = .next (completeCommand false e st [] s)
      (11 < n → ends .badArgument) ∧
      ∀ q : QPort, n = q.val →
        (∀ k x l, findStatic s sid = some (k, ⟨x, .crane l⟩) → ends .conflict) ∧
        (findStatic s sid = none → Table.lowestFree s.stt.statics 64 = none → ends .tableFull) ∧
        ∀ k, (findStatic s sid = none ∧ Table.lowestFree s.stt.statics 64 = some k) ∨
            (∃ x q', findStatic s sid = some (k, ⟨x, .static q'⟩)) →
          ∃ u, exec (.setStation sid n) s = .next (completeCommand false e .ok
              (be2 k ++ be1 n ++ flagByte (findDynamic s sid).isSome) u) ∧
            u.stt = { s.stt with statics := Table.put s.stt.statics k ⟨sid, .static q⟩, dynamics := without } ∧
            (StationFullPresented s ∨ findDynamic s sid ≠ none → StationFullPresented u) ∧
            (findDynamic s sid = none → u = { s with stt := u.stt }) ∧ ReportsOnly { s with stt := u.stt } u) ∧
    (Awaits s e (.clearStation sid) →
      let ends := fun (st : Status) => exec (.clearStation sid) s = .next (completeCommand false e st [] s)
      (∀ k x l, findStatic s sid = some (k, ⟨x, .crane l⟩) → ends .conflict) ∧
      (findStatic s sid = none → findDynamic s sid = none → ends .notFound) ∧
      (∀ k x q, findStatic s sid = some (k, ⟨x, .static q⟩) →
        exec (.clearStation sid) s = .next (completeCommand false e .ok (be1 0 ++ be2 k)
          { s with stt := { s.stt with statics := Table.erase s.stt.statics k } })) ∧
      ∀ k r, findStatic s sid = none → findDynamic s sid = some (k, r) →
        ∃ u, exec (.clearStation sid) s = .next (completeCommand false e .ok (be1 2 ++ be2 k) u) ∧
          u.stt = { s.stt with dynamics := without } ∧ StationFullPresented u ∧
          ReportsOnly { s with stt := u.stt } u) ∧
    (Awaits s e (.readStation sid) →
      let gives := fun (result : List Byte) =>
        exec (.readStation sid) s = .next (completeCommand false e .ok result s)
      (∀ k x q, findStatic s sid = some (k, ⟨x, .static q⟩) → gives (be1 0 ++ be2 k ++ be1 q.val)) ∧
      (∀ k x l, findStatic s sid = some (k, ⟨x, .crane l⟩) →
        gives (be1 1 ++ be2 k ++ be1 l.val ++ be1 (s.link l).primary.val)) ∧
      (∀ k r, findStatic s sid = none → findDynamic s sid = some (k, r) →
        gives (be1 2 ++ be2 k ++ be1 r.port.val ++ be1 r.grade ++ be1 r.age)) ∧
      (findStatic s sid = none → findDynamic s sid = none →
        exec (.readStation sid) s = .next (completeCommand false e .notFound [] s)))

/-- LIST-STATIONS and LIST-REEFERS return, in ascending order of place, the records at or above the start place that
they are asked for, as many whole ones as fit in the room left beside the count, the number and the resume place, and
change nothing (R46, R119, R171); the layout of the list is the model's (log 13). So are the kind of a station record
(log 18), the one byte of missed (log 48), and that a record without alarm codes carries no byte for its first one (log
14). -/
def Obligations.ListCommandsReturnWholeRecords : Prop :=
  ∀ (s : State) (e : Execution), 6 ≤ e.room →
    let gives := fun (i : Instr) (items : List (Nat × List Byte)) (start size : Nat) =>
      ∃ n, n ≤ items.length ∧
        (((items.take n).map (fun x => x.2.length)).sum + 6 ≤ e.room) ∧
        (n < items.length → e.room < ((items.take (n + 1)).map (fun x => x.2.length)).sum + 6) ∧
        exec i s = .next (completeCommand false e (if n = items.length then .ok else .partialFit)
          (be2 n ++ (items.take n).flatMap (·.2) ++ be2 n ++
            be2 (if n = items.length then size
              else ((items.take n).getLast?.map (fun x => x.1 + 1)).getD start)) s)
    (∀ start, Awaits s e (.listStations 0 start) →
      (64 ≤ start → exec (.listStations 0 start) s = .next (completeCommand false e .badArgument [] s)) ∧
      (start < 64 → gives (.listStations 0 start)
        ((s.stt.statics.filter (fun x => decide (start ≤ x.1))).map (fun x => (x.1, staticBytes s x.1 x.2)))
        start 64)) ∧
    (∀ start, Awaits s e (.listStations 1 start) →
      (2048 ≤ start → exec (.listStations 1 start) s = .next (completeCommand false e .badArgument [] s)) ∧
      (start < 2048 → gives (.listStations 1 start)
        ((s.stt.dynamics.filter (fun x => decide (start ≤ x.1))).map (fun x => (x.1, dynamicBytes x.1 x.2)))
        start 2048)) ∧
    (∀ c start, 1 < c → Awaits s e (.listStations c start) →
      exec (.listStations c start) s = .next (completeCommand false e .badArgument [] s)) ∧
    ∀ start c, Awaits s e (.listReefers start c) →
      (4096 ≤ start ∨ 5 < c →
        exec (.listReefers start c) s = .next (completeCommand false e .badArgument [] s)) ∧
      (start < 4096 → c ≤ 5 → gives (.listReefers start c)
        ((s.rcn.reefers.filter (fun x => decide (start ≤ x.1) &&
          (c == 0 || (c == 1 && x.2.state == .reporting) || (c == 2 && x.2.state == .overdue) ||
            (c == 3 && x.2.state == .silent) ||
            (c == 4 && (x.2.state == .overdue || x.2.state == .silent)) ||
            (c == 5 && x.2.readings.alarms != [])))).map (fun x => (x.1, reeferShortBytes s x.1 x.2)))
        start 4096)

/-- SET-LEARNING keeps or writes the margin and the aging period in their ranges, and returns them with the
sizes of the collections and the eight statistics as they stand before a clearing (R51). SET-REEFER keeps or
writes each setting in its range, refuses a retire code or a domain outside its codes, and returns the settings,
the number of records and the sixteen statistics as they stand before a clearing (R106); the order of its
arguments and of its result is the model's (log 16), and so is the set retire flag as 1 (log 18). -/
def Obligations.SettingsCommandsWriteTheSettings : Prop :=
  (∀ (m p c : Nat) (s : State) (e : Execution), Awaits s e (.setLearning m p c) →
    let margin := if m = 255 then s.stt.margin else min 7 m
    let period := if p = 0 then s.stt.agingPeriod else max 10 (min 3600 p)
    let x := s.stt.stats
    exec (.setLearning m p c) s = .next (completeCommand false e
      (if (m ≤ 7 ∨ m = 255) ∧ (p = 0 ∨ (10 ≤ p ∧ p ≤ 3600)) then .ok else .clamped)
      (be1 margin ++ be2 period ++ be2 s.stt.statics.length ++ be2 s.stt.dynamics.length ++
        [x.inserts, x.moves, x.competing, x.agingRemovals, x.purgeRemovals, x.agingOverruns, x.located,
          x.floods].flatMap be4)
      { s with stt := { s.stt with
        margin := margin, agingPeriod := period
        stats := if c = 0 then x else ⟨0, 0, 0, 0, 0, 0, 0, 0⟩ } })) ∧
  ∀ (th ab sm bp rp rt dom c : Nat) (s : State) (e : Execution),
    let i : Instr := .setReefer th ab sm bp rp rt dom c
    Awaits s e i →
    let x := s.rcn.settings
    let st := s.rcn.stats
    let keep := fun (n lo hi old : Nat) => if n = 0 then old else max lo (min hi n)
    ((1 < rt ∧ rt ≠ 255) ∨ (7 < dom ∧ dom ≠ 255) →
      exec i s = .next (completeCommand false e .badArgument [] s)) ∧
    ∀ (retire : Bool) (d : Fin 8),
      (rt = 0 ∧ retire = false ∨ rt = 1 ∧ retire = true ∨ rt = 255 ∧ retire = x.retire) →
      (dom = d.val ∨ dom = 255 ∧ d = x.domain) →
      let y : RcnSettings :=
        { threshold := keep th 1 50 x.threshold, allowance := keep ab 1 8 x.allowance
          silentMargin := keep sm 1 8 x.silentMargin, reportPeriod := keep rp 10 600 x.reportPeriod
          batchPeriod := keep bp 1 60 x.batchPeriod, retire := retire, domain := d }
      exec i s = .next (completeCommand false e
        (if th ≤ 50 ∧ ab ≤ 8 ∧ sm ≤ 8 ∧ bp ≤ 60 ∧ (rp = 0 ∨ (10 ≤ rp ∧ rp ≤ 600)) then .ok else .clamped)
        (be1 y.threshold ++ be1 y.allowance ++ be1 y.silentMargin ++ be2 y.reportPeriod ++ be1 y.batchPeriod ++
          flagByte y.retire ++ be1 d.val ++ be2 s.rcn.reefers.length ++
          [st.accepted, st.inserts, st.passThroughs, st.checkFailures, st.duplicates, st.stale, st.restarts,
            st.truncations, st.alarmsForwarded, st.alarmHolds, st.forgets, st.retirements, st.batchOverflows,
            st.batchesSent, st.batchesDiscarded, st.sweepOverruns].flatMap be4)
        { s with rcn := { s.rcn with
          settings := y
          stats := if c = 0 then st else ⟨0, 0, 0, 0, 0, 0, 0, 0, 0, 0, 0, 0, 0, 0, 0, 0⟩ } })

/-! ## Reefers and batches -/

/-- The supervision sweep's visit to a place (R122 to R127), with the allowance and the silent threshold worked out
at the visit (R125): a free place is passed over; a heard record loses its flag; otherwise missed rises by 1 up to
15, and a SILENT record that had missed 15 is retired when retirement is on and its entry can be written, a record
at its silent threshold goes SILENT, a REPORTING one above its allowance goes OVERDUE, each with its notice and its
append, and an UNSENT record is caught up where no append ran. The sweep then goes on, or ends at place 4095, where
a remembered expiry begins a new one. -/
def Obligations.SweepVisitSupervisesTheRecord : Prop :=
  (∀ (s : State) (r : Readings),
    (∀ g a, s.cvm.valid = true → r.segment = some g → r.lane = some a →
      let c := s.cvm.active.cell g a
      allowance s r = min 15 (s.rcn.settings.allowance +
        (match c.grade with
          | .clear => 0
          | .shadowed => 1
          | .marginal => 2
          | .dead => 4) +
        (if s.cvm.overlayAt g = 0 then 0 else 2) +
        (if ∃ q, c.primary = some q ∧ (s.port (QPort.port q)).link = .down then 4 else 0))) ∧
    ((s.cvm.valid = false ∨ r.segment = none ∨ r.lane = none) → allowance s r = s.rcn.settings.allowance) ∧
    silentThreshold s r = min 15 (allowance s r + s.rcn.settings.silentMargin)) ∧
  ∀ (k : Nat) (s : State), s.rcn.sweep = some k →
    let done := fun (u : State) => exec .supervisionSweepVisit s = .next { u with rcn := { u.rcn with
      sweep := if k < 4095 then some (k + 1) else if s.rcn.remembered then some 0 else none
      remembered := s.rcn.remembered && decide (k < 4095) } }
    (Table.get s.rcn.reefers k = none → done s) ∧
    ∀ r, Table.get s.rcn.reefers k = some r →
      let m := min 15 (r.missed + 1)
      let put := fun (x : Reefer) => { s with rcn := { s.rcn with reefers := Table.put s.rcn.reefers k x } }
      let caughtUp := fun (x : Reefer) =>
        if r.place = .unsent then batchAppend k x.state.entry (put x) else put x
      let retires := r.state = .silent ∧ r.missed = 15 ∧ s.rcn.settings.retire = true
      let room := (∃ i, r.place = .inFilling i) ∨ s.rcn.filling.entries.length < 48
      (r.heard = true → done (caughtUp { r with heard := false })) ∧
      (r.heard = false → retires → ¬room → done (batchAppend k .retired (put { r with missed := m }))) ∧
      (r.heard = false → retires → room →
        done
          (let u := removeReefer k (batchAppend k .retired (put { r with missed := m }))
          { u with rcn := { u.rcn with stats :=
            { u.rcn.stats with retirements := min 4294967295 (u.rcn.stats.retirements + 1) } } })) ∧
      (r.heard = false → ¬retires → r.state ≠ .silent → silentThreshold s r.readings ≤ m →
        done (batchAppend k .silent (raise 10 (.sid r.sid) (put { r with missed := m, state := .silent })))) ∧
      (r.heard = false → r.state = .reporting → m < silentThreshold s r.readings → allowance s r.readings < m →
        done (batchAppend k .overdue (raise 9 (.sid r.sid) (put { r with missed := m, state := .overdue })))) ∧
      (r.heard = false → ¬retires → (r.state = .silent ∨ m < silentThreshold s r.readings) →
        (r.state ≠ .reporting ∨ m ≤ allowance s r.readings) → done (caughtUp { r with missed := m }))

/-- The batch append for a record (R129, R130): an IN-FILLING record's entry is overwritten in place; another
record's is added at the end of a FILLING buffer with room, which starts the batch timer at its first entry and
makes a swap due at its 48th, carried out at once or waiting for a SENDING buffer; at a full buffer the record
becomes UNSENT and an overflow is counted. An expiry of the batch timer (R131, R132, R134, R136): it does not restart;
with no entry in the FILLING buffer, or a swap due already, nothing else happens; a SENDING buffer makes the swap wait;
and otherwise the swap is carried out: the FILLING buffer is sent as a batch frame of the part SID to the B queue of
the batch domain's trunk port, and IN-FILLING records take the place NONE, or, where that port is not usable,
the frame is dropped, counted as port down under the drop reason and the port's tx port-down discards, with no frame
handed on but notices, and the records of its entries become UNSENT. BATCH-OVERFLOW is presented before the frame is
handed on or dropped: the model's choice (log 44). -/
def Obligations.BatchBuffersFillAndSwap : Prop :=
  (∀ (k : Nat) (st : EntryState) (r : Reefer) (s : State), Table.get s.rcn.reefers k = some r →
    r.stamp ≤ s.seconds →
    let x := r.readings
    let entry : BatchEntry :=
      { sid := r.sid, state := st, unit := x.unit, setpoint := x.setpoint, supply := x.supply, ret := x.ret
        alarms := x.alarms, missed := r.missed, since := min 65535 (s.seconds - r.stamp), segment := x.segment
        lane := x.lane }
    let before := s.rcn.filling.entries
    let t := batchAppend k st s
    (∀ i, r.place = .inFilling i →
      t.rcn.filling.entries = before.set i entry ∧ t.rcn.reefers = s.rcn.reefers ∧
        t.rcn.batchTimer = s.rcn.batchTimer ∧ t.rcn.stats = s.rcn.stats) ∧
    ((∀ i, r.place ≠ .inFilling i) → before.length < 47 →
      t.rcn.filling.entries = before ++ [entry] ∧
        t.rcn.reefers = Table.put s.rcn.reefers k { r with place := .inFilling before.length } ∧
        t.rcn.batchTimer =
          (if before = [] then some s.rcn.settings.batchPeriod else s.rcn.batchTimer)) ∧
    ((∀ i, r.place ≠ .inFilling i) → before.length = 47 → s.rcn.other.state = .sending →
      t.rcn.filling.entries = before ++ [entry] ∧ t.rcn.sendDue = true ∧ (t.source 12).pending = true ∧
        t.rcn.reefers = Table.put s.rcn.reefers k { r with place := .inFilling 47 }) ∧
    ((∀ i, r.place ≠ .inFilling i) → before.length = 47 → s.rcn.other.state = .idle →
      SwapCarriedOut { s with rcn := { s.rcn.setFilling ⟨s.rcn.filling.state, before ++ [entry]⟩ with
        reefers := Table.put s.rcn.reefers k { r with place := .inFilling 47 } } } t) ∧
    ((∀ i, r.place ≠ .inFilling i) → 48 ≤ before.length →
      t = { s with rcn := { s.rcn with
        reefers := Table.put s.rcn.reefers k { r with place := .unsent }
        stats := { s.rcn.stats with batchOverflows := min 4294967295 (s.rcn.stats.batchOverflows + 1) } } }) ∧
    t = { s with
      rcn := t.rcn, ntu := t.ntu, ctb := t.ctb, flight := { s.flight with enqueues := t.flight.enqueues } }) ∧
  ∀ (n : Nat) (s : State), s.rcn.batchTimer = some n →
    let stopped := { s with rcn := { s.rcn with batchTimer := none } }
    let entries := s.rcn.filling.entries
    (entries = [] ∨ s.rcn.sendDue = true → exec .batchTimerExpiry s = .next stopped) ∧
    (entries ≠ [] → s.rcn.sendDue = false → s.rcn.other.state ≠ .idle →
      exec .batchTimerExpiry s = .next { s with rcn := { s.rcn with batchTimer := none, sendDue := true } }) ∧
    (entries ≠ [] → s.rcn.sendDue = false → s.rcn.other.state = .idle →
      ∃ t, exec .batchTimerExpiry s = .next t ∧ SwapCarriedOut stopped t)

/-- READ-REEFER returns the record of a SID and changes nothing (R118); FORGET-REEFER marks an IN-FILLING record's
entry RETIRED, removes the record, counts it and presents REEFER-FULL (R120); a SID without a record is NOT-FOUND. The
entry index follows the batch place when the place is IN-FILLING (log 14). Missed takes one byte (log 48), and the
codes of the batch place, with a set heard flag as 1, are those of log 18. -/
def Obligations.ReadAndForgetReefer : Prop :=
  ∀ (sid : Sid) (s : State) (e : Execution),
    (Awaits s e (.readReefer sid) →
      (findReefer s sid = none →
        exec (.readReefer sid) s = .next (completeCommand false e .notFound [] s)) ∧
      ∀ k r, findReefer s sid = some (k, r) → r.stamp ≤ s.seconds →
        let x := r.readings
        let code := match r.state with
          | .reporting => 0
          | .overdue => 1
          | .silent => 2
        let place := match r.place with
          | .none => be1 0
          | .inFilling i => be1 1 ++ be1 i
          | .unsent => be1 2
        exec (.readReefer sid) s = .next (completeCommand false e .ok
          (be2 k ++ be1 code ++ be1 x.unit.code ++ optBytes 1 be1 x.segment ++ optBytes 1 be1 x.lane ++
            optBytes 2 signed2 x.setpoint ++ optBytes 2 signed2 x.supply ++ optBytes 2 signed2 x.ret ++
            be2 x.alarms.length ++ x.alarms ++ be2 x.counter ++ be1 r.missed ++ flagByte r.heard ++
            be2 (min 65535 (s.seconds - r.stamp)) ++ place ++ be1 (allowance s x) ++
            be1 (silentThreshold s x)) s)) ∧
    (Awaits s e (.forgetReefer sid) →
      (findReefer s sid = none →
        exec (.forgetReefer sid) s = .next (completeCommand false e .notFound [] s)) ∧
      ∀ k r, findReefer s sid = some (k, r) →
        let place := match r.place with
          | .none => be1 0
          | .inFilling i => be1 1 ++ be1 i
          | .unsent => be1 2
        ∃ u, exec (.forgetReefer sid) s = .next (completeCommand false e .ok (be2 k ++ place) u) ∧
          u.rcn.reefers = Table.erase s.rcn.reefers k ∧
          u.rcn.stats = { s.rcn.stats with forgets := min 4294967295 (s.rcn.stats.forgets + 1) } ∧
          (∀ i, r.place = .inFilling i → u.rcn.filling.entries =
            s.rcn.filling.entries.modify i (fun v => { v with state := .retired })) ∧
          ((∀ i, r.place ≠ .inFilling i) →
            u.rcn.bufferA = s.rcn.bufferA ∧ u.rcn.bufferB = s.rcn.bufferB) ∧
          (u.source 11).pending = reeferFull u ∧ ReportsOnly { s with rcn := u.rcn } u)

/-! ## The frame store and queues -/

/-- The judgement of a queue (R141): a port that is not usable refuses as port down, then a CRANE-ONLY port refuses
a kind it does not carry, then a queue admits a frame when its cells stay within its limit and the free cells
suffice, C without the reserve and every other queue with it, and refuses it as queue full otherwise. Selection
(R145): C before U before the weighted part, where both B and D eligible give the turn and one alone gives
itself. A transmitter that is SENDING, one of a port that is not usable, and one with nothing eligible makes no start;
any other becomes SENDING from the queue chosen, whose shaper, where it is not open, is charged the cost of the head
entry (R144, R146, R151, R153). -/
def Obligations.AdmissionAndSelectionRules : Prop :=
  (∀ (s : State) (kind : Kind) (n : Nat) (d : Port × QClass),
    (judgeQueue s kind n d = .admitted ↔ Admits s kind n d) ∧
    (judgeQueue s kind n d = .portDown ↔ s.usable d.1 = false) ∧
    (judgeQueue s kind n d = .serviceMode ↔
      s.usable d.1 = true ∧ (s.port d.1).mode = .craneOnly ∧ kind.craneOnly = false)) ∧
  ∀ (s : State) (p : Port),
    let x := s.queues p
    let ok := fun cls => eligible s p cls = true
    let choice := (chooseQueue s p).map Prod.fst
    (∀ cls, ok cls ↔ (x.get cls).entries ≠ [] ∧
      ((s.bucket (shaperBucket p cls)).rate = 0 ∨ 0 ≤ (s.bucket (shaperBucket p cls)).credit)) ∧
    (ok .c → choice = some .c) ∧ (¬ok .c → ok .u → choice = some .u) ∧
    (¬ok .c → ¬ok .u → ok .b → ok .d → choice = some (if x.turn = .b then .b else .d)) ∧
    (¬ok .c → ¬ok .u → ok .b → ¬ok .d → choice = some .b) ∧
    (¬ok .c → ¬ok .u → ¬ok .b → ok .d → choice = some .d) ∧
    (¬ok .c → ¬ok .u → ¬ok .b → ¬ok .d → choice = none) ∧
    (∀ cls y, chooseQueue s p = some (cls, y) →
      (cls = .c ∨ cls = .u → y = x) ∧
      ∀ v : Turn, (cls = .b ∧ v = .b ∨ cls = .d ∧ v = .d) →
        let n := (if x.turn = v then x.served else 0) + 1
        let w := if v = .b then x.weightB else x.weightD
        y = if w ≤ n then { x with turn := if v = .b then .d else .b, served := 0 }
          else { x with turn := v, served := n }) ∧
    (x.sending ≠ none ∨ s.usable p = false ∨ (∀ cls, ¬ok cls) → select p s = s) ∧
    (x.sending = none → s.usable p = true → ∀ cls y, chooseQueue s p = some (cls, y) →
      ∃ e rest, (x.get cls).entries = e :: rest ∧
        let b := s.bucket (shaperBucket p cls)
        let u := s.setQueues p { y with sending := some cls }
        select p s =
          if b.rate = 0 then u
          else u.setBucket (shaperBucket p cls)
            { b with credit :=
              b.credit - ((e.length + (if b.overhead then (s.port p).overhead else 0) : Nat) : Int) * 16 })

/-- The FSQ takes an enqueue (R138, R141, R142), which is then no longer in flight: the queues that admit the frame
each gain one entry at their tails, pointing at one new stored frame that holds its cells and counts those entries,
its cells leave the free ones, each of their ports makes a selection (R144), and a frame that no queue admits is
stored nowhere; every refusal of a queue is counted, as port down, service mode or queue full. A batch frame's one
entry is admitted by a usable port alone and holds no cells, and is otherwise discarded at once (R136, R143). A frame
the part originates takes its Ethernet addresses here (R24; log 22). -/
def Obligations.EnqueueStoresOnceForItsQueues : Prop :=
  (∀ (k : Nat) (r : EnqueueRequest) (s : State), PoolLaw s → s.flight.enqueues[k]? = some r →
    (∀ bytes, r.body ≠ .batch bytes) →
    let n := cellsOf r.body.length
    let taken := { s with flight := { s.flight with enqueues := s.flight.enqueues.eraseIdx k } }
    let admitting := r.queues.filter (fun d => judgeQueue s r.kind n d == .admitted)
    let refused := fun (a : Admission) => r.queues.countP (fun d => judgeQueue s r.kind n d == a)
    let refusedAt := fun (a : Admission) (p : Port) =>
      r.queues.countP (fun d => d.1 == p && judgeQueue s r.kind n d == a)
    let counted := fun (t : State) =>
      DropRisesBy 6 (refused .serviceMode) s t ∧ DropRisesBy 8 (refused .queueFull) s t ∧
      (∀ p, CounterRisesBy p 9 (refusedAt .queueFull p) s t) ∧
      (NoticesGoOut s →
        DropRisesBy 9 (refused .portDown) s t ∧ ∀ p, CounterRisesBy p 10 (refusedAt .portDown p) s t) ∧
      (∀ c, c ≠ 6 → c ≠ 8 → c ≠ 9 → t.ctb.drops.get c = s.ctb.drops.get c) ∧
      (∀ p c, c ≠ 9 → c ≠ 10 → t.counter p c = s.counter p c)
    let bytes := match r.body, r.queues with
      | .originated _ b, d :: _ => withAddresses (s.port d.1).neighbour (partAddress s.straps.addr) b
      | .forwarded b, _ | .originated _ b, [] | .batch b, _ => b
    (admitting ≠ [] →
      ∃ t id v, exec (.enqueue k) s = .next t ∧ Table.get s.fsq.store id = none ∧
        t.fsq.store = Table.put s.fsq.store id
          { bytes := bytes, cells := n, refs := admitting.length, kind := r.kind, origin := r.body.origin } ∧
        t.fsq.free = s.fsq.free - n ∧
        (∀ p cls, ((t.queues p).get cls).limit = ((s.queues p).get cls).limit ∧
          ((t.queues p).get cls).entries = ((s.queues p).get cls).entries ++
            List.replicate (admitting.count (p, cls)) (.frame id n r.body.length)) ∧
        (∀ p, p ∉ admitting.map Prod.fst → t.queues p = s.queues p) ∧
        v = { s with fsq := { s.fsq with ports := v.fsq.ports } } ∧
        (∀ p cls, (v.queues p).get cls = (t.queues p).get cls) ∧
        (∀ p, (v.queues p).sending = (s.queues p).sending ∧ (v.queues p).turn = (s.queues p).turn ∧
          (v.queues p).served = (s.queues p).served ∧ (v.queues p).weightB = (s.queues p).weightB ∧
          (v.queues p).weightD = (s.queues p).weightD) ∧
        (∀ p, p ∈ admitting.map Prod.fst → t.queues p = (select p v).queues p ∧
          ∀ cls, t.bucket (shaperBucket p cls) = (select p v).bucket (shaperBucket p cls)) ∧
        (∀ b, (∀ p cls, p ∈ admitting.map Prod.fst → b ≠ shaperBucket p cls) → t.bucket b = s.bucket b) ∧
        counted t ∧ HandsOnNotices taken t ∧
        (r.body.origin = .notice → t.ntu.enqueued = min 4294967295 (s.ntu.enqueued + 1)) ∧
        (t.source 20).pending = poolLow t ∧
        t = { s with
          fsq := t.fsq, ntu := t.ntu, ctb := t.ctb
          flight := { s.flight with enqueues := t.flight.enqueues } }) ∧
    (admitting = [] → r.body.origin ≠ .reply true →
      ∃ t, exec (.enqueue k) s = .next t ∧
        (∀ d, r.queues = [d] → judgeQueue s r.kind n d = .serviceMode → DropRises 6 1 s t) ∧
        (∀ d, r.queues = [d] → judgeQueue s r.kind n d = .queueFull →
          DropRises 8 1 s t ∧ CounterRises d.1 9 1 s t) ∧
        counted t ∧ HandsOnNotices taken t ∧
        (r.body.origin = .notice → NoticesGoOut s → t.ntu.lost = min 4294967295 (s.ntu.lost + 1)) ∧
        t = { s with
          ntu := t.ntu, ctb := t.ctb, flight := { s.flight with enqueues := t.flight.enqueues } }) ∧
    (admitting = [] → r.body.origin = .reply true →
      ∃ t, exec (.enqueue k) s = .next t ∧ t.part = .restarting)) ∧
  ∀ (k : Nat) (p : Port) (bytes : List Byte) (s : State),
    s.flight.enqueues[k]? = some { queues := [(p, .b)], kind := .reeferBatch, body := .batch bytes } →
    let taken := { s with flight := { s.flight with enqueues := s.flight.enqueues.eraseIdx k } }
    (s.usable p = true →
      let x := s.queues p
      exec (.enqueue k) s = .next (select p (taken.setQueues p { x with queueB :=
        { x.queueB with entries := x.queueB.entries ++
          [.batch (withAddresses (s.port p).neighbour (partAddress s.straps.addr) bytes)] } })) ∧
      ∃ t, exec (.enqueue k) s = .next t ∧
        ((t.queues p).get .b).entries = ((s.queues p).get .b).entries ++
          [.batch (withAddresses (s.port p).neighbour (partAddress s.straps.addr) bytes)] ∧
        (∀ cls, cls ≠ .b → ((t.queues p).get cls).entries = ((s.queues p).get cls).entries) ∧
        (∀ q, q ≠ p → t.queues q = s.queues q) ∧ t.fsq.store = s.fsq.store ∧ t.fsq.free = s.fsq.free ∧
        t = { s with
          fsq := t.fsq, flight := { s.flight with enqueues := s.flight.enqueues.eraseIdx k } }) ∧
    (s.usable p = false → s.rcn.sendDue = false →
      ∃ t, exec (.enqueue k) s = .next t ∧ t.fsq = s.fsq ∧
        t.rcn.stats =
          { s.rcn.stats with batchesDiscarded := min 4294967295 (s.rcn.stats.batchesDiscarded + 1) } ∧
        (BatchLaw s → t.rcn.sendingEntries = []) ∧
        (NoticesGoOut s → DropRises 9 1 s t ∧ CounterRises p 10 1 s t) ∧ HandsOnNotices taken t ∧
        ∀ j, Table.get t.rcn.reefers j = (Table.get s.rcn.reefers j).map (fun r => { r with
          place := if r.place = .none ∧ r.sid ∈ s.rcn.sendingEntries.map (·.sid) then .unsent else r.place }))

/-- The end of a transmission (R146): the head entry leaves its queue, its bytes leave the part with their check
sequence (the record of them is the model's, log 21), its stored frame counts one entry less and frees its cells
with its last, the tx counters rise, and the transmitter makes a selection from the queues as they then stand; a batch
entry ends the SENDING buffer as transmitted, and carries out a swap that waits on it (R135); the reply
that carries a RESTART begins the soft restart (R174). -/
def Obligations.TransmissionEndReleasesTheHead : Prop :=
  ∀ (p : Port) (cls : QClass) (rest : List Entry) (s : State), (s.queues p).sending = some cls →
    let x := s.queues p
    let v := s.setQueues p { x.set cls { x.get cls with entries := rest } with sending := none }
    let selected := fun (t : State) => t.queues p = (select p v).queues p ∧ t.fsq.buckets = (select p v).fsq.buckets
    (∀ id n len f, ((s.queues p).get cls).entries = .frame id n len :: rest →
      Table.get s.fsq.store id = some f →
      ∃ t, exec (.transmissionEnd p) s = .next t ∧
        t.wire = s.wire ++ [(p, f.bytes ++ fcsBytes f.bytes)] ∧
        (f.origin = .reply true → t.part = .restarting ∧
          ∀ q, (t.queues q).sending = none ∧ (t.queues q).entries = []) ∧
        (f.origin ≠ .reply true →
          CounterRises p 2 1 s t ∧ CounterRises p 3 len s t ∧
          ((t.queues p).get cls).entries = rest ∧
          (∀ k, k ≠ cls → ((t.queues p).get k).entries = ((s.queues p).get k).entries) ∧ selected t ∧
          (∀ q, q ≠ p → t.queues q = s.queues q) ∧
          (f.refs ≤ 1 → t.fsq.store = Table.erase s.fsq.store id ∧ t.fsq.free = s.fsq.free + f.cells) ∧
          (2 ≤ f.refs → t.fsq.store = Table.put s.fsq.store id { f with refs := f.refs - 1 } ∧
            t.fsq.free = s.fsq.free) ∧
          (t.source 20).pending = poolLow t ∧ HandsOnNotices s t ∧
          t = { s with
            fsq := t.fsq, ntu := t.ntu, ctb := t.ctb, wire := t.wire
            flight := { s.flight with enqueues := t.flight.enqueues } })) ∧
    (∀ bytes, ((s.queues p).get cls).entries = .batch bytes :: rest →
      ∃ t, exec (.transmissionEnd p) s = .next t ∧ t.wire = s.wire ++ [(p, bytes ++ fcsBytes bytes)] ∧
        CounterRises p 2 1 s t ∧ CounterRises p 3 bytes.length s t ∧ ((t.queues p).get cls).entries = rest ∧
        selected t ∧ (∀ q, q ≠ p → t.queues q = s.queues q) ∧ t.fsq.store = s.fsq.store ∧ t.fsq.free = s.fsq.free ∧
        (s.rcn.sendDue = false →
          (BatchLaw s → t.rcn.sendingEntries = []) ∧
          t.rcn.stats = { s.rcn.stats with batchesSent := min 4294967295 (s.rcn.stats.batchesSent + 1) } ∧
          t.rcn.reefers = s.rcn.reefers) ∧
        (s.rcn.sendDue = true → t.rcn.sendDue = false ∧ t.rcn.filling.entries = [] ∧
          t.rcn.stats.batchesSent = min 4294967295 (s.rcn.stats.batchesSent + 1)) ∧
        t = { s with
          rcn := t.rcn, fsq := t.fsq, ntu := t.ntu, ctb := t.ctb, wire := t.wire
          flight := { s.flight with enqueues := t.flight.enqueues } })

/-- A link-down announcement taken by the FSQ empties the port's four queues and its transmitter becomes IDLE, with no
other port's queues changed (R147); where no notice frame is lost, the transmission in progress counts as aborted and
every other entry as discarded, each also as port down. A batch entry among them ends the SENDING buffer as discarded
and carries out a swap that waits on it (R136); the reply that carries a RESTART begins the soft restart (R174), which
empties every queue and drops every event in flight. That the events in flight are dropped is the model's choice
(log 7). -/
def Obligations.LinkDownDiscardsTheQueues : Prop :=
  ∀ (p : Port) (s : State), p ∈ s.flight.queueDowns →
    let entries := (s.queues p).entries
    let aborted := if (s.queues p).sending = none then 0 else 1
    let batch := ∃ x ∈ entries, x.isBatch = true
    let restart := ∃ x ∈ entries, isRestartReply s x = true
    ∃ t, exec (.fsqLinkDown p) s = .next t ∧ (t.queues p).entries = [] ∧ (t.queues p).sending = none ∧
      (∀ cls, ((t.queues p).get cls).limit = ((s.queues p).get cls).limit) ∧
      (¬batch ∨ s.rcn.sendDue = false → NoticesGoOut s → aborted ≤ entries.length →
        DropRises 9 entries.length s t ∧ CounterRises p 11 aborted s t ∧
          CounterRises p 10 (entries.length - aborted) s t) ∧
      (¬restart →
        (∀ q, q ≠ p → t.queues q = s.queues q) ∧
        (¬batch → t.rcn = s.rcn ∧
          HandsOnNotices { s with flight := { s.flight with queueDowns := s.flight.queueDowns.erase p } } t) ∧
        (batch → s.rcn.sendDue = false →
          t.rcn.stats =
            { s.rcn.stats with batchesDiscarded := min 4294967295 (s.rcn.stats.batchesDiscarded + 1) } ∧
          (BatchLaw s → t.rcn.sendingEntries = []) ∧
          ∀ j, Table.get t.rcn.reefers j = (Table.get s.rcn.reefers j).map (fun r => { r with
            place :=
              if r.place = .none ∧ r.sid ∈ s.rcn.sendingEntries.map (·.sid) then .unsent else r.place })) ∧
        (batch → s.rcn.sendDue = true → t.rcn.sendDue = false ∧ t.rcn.filling.entries = []) ∧
        t = { s with
          rcn := t.rcn, fsq := t.fsq, ntu := t.ntu, ctb := t.ctb
          flight := { s.flight with
            enqueues := t.flight.enqueues, queueDowns := s.flight.queueDowns.erase p } }) ∧
      (restart → t.part = .restarting ∧ t.restarts = min 65535 (s.restarts + 1) ∧ t.mga = ⟨[], .idle⟩ ∧
        t.flight = ⟨[], [], [], [], [], []⟩ ∧ ∀ q, (t.queues q).entries = [] ∧ (t.queues q).sending = none)

/-- A policer's judgement (R151, R152): an open policer passes a frame and is left alone; otherwise a frame whose
cost, its length and the overhead it counts in sixteenths, does not exceed the credit conforms and is charged once;
any other leaves the credit, and one whose cost exceeds Cmax counts an over-burst drop. A refill expiry adds the
refill of the rate code to the credit of a bucket that is not open, up to Cmax, and a shaper's then prompts a
selection at its port (R144, R149, R150). SET-RATE reads a bucket, or writes it: a rate code above 240 is stored as
240 and a burst below 64 as 64, and a credit above the new Cmax is lowered to it (R154, R155). That a SET-RATE of a
shaper returns the credit as it stands after the selection it prompts is the model's reading (log 18). -/
def Obligations.BucketsRefillChargeAndAreWritten : Prop :=
  (∀ (b : BucketNo) (length : Nat) (p : Port) (s : State),
    let x := s.bucket b
    let cost : Int := (length + (if x.overhead then (s.port p).overhead else 0)) * 16
    let o := offer b length p s
    (x.rate = 0 → o = (true, s)) ∧
    (x.rate ≠ 0 → cost ≤ x.credit → o = (true, s.setBucket b { x with credit := x.credit - cost })) ∧
    (x.rate ≠ 0 → x.credit < cost → x.burst * 16 < cost →
      o = (false, { s with fsq := { s.fsq with overBurst := min 4294967295 (s.fsq.overBurst + 1) } })) ∧
    (x.rate ≠ 0 → x.credit < cost → cost ≤ x.burst * 16 → o = (false, s))) ∧
  (∀ (b : BucketNo) (s : State), (s.bucket b).refill = true →
    let x := s.bucket b
    let refill : Int := if x.rate ≤ 200 then x.rate * 100 else (x.rate - 200 : Nat) * 2
    let y := if x.rate = 0 then x else { x with credit := min (x.credit + refill) (x.burst * 16) }
    let u := s.setBucket b y
    (b.val < 81 → exec (.refillExpiry b) s = .next u) ∧
    ∀ (p : Port) (c : Fin 4), b.val = 81 + p.val * 4 + c.val → exec (.refillExpiry b) s = .next (select p u)) ∧
  ∀ (k i w r n o : Nat) (s : State) (e : Execution), Awaits s e (.setRate k i w r n o) →
    let ends := fun (st : Status) (result : List Byte) (u : State) =>
      exec (.setRate k i w r n o) s = .next (completeCommand false e st result u)
    let sizes := [48, 24, 8, 1, 56]
    let starts := [0, 48, 72, 80, 81]
    (4 < k ∨ sizes.getD k 0 ≤ i ∨ 1 < w ∨ (w = 1 ∧ 1 < o) → ends .badArgument [] s) ∧
    ∀ b : BucketNo, k ≤ 4 → i < sizes.getD k 0 → b.val = starts.getD k 0 + i →
      let x := s.bucket b
      let result := fun (y : Bucket) =>
        be1 k ++ be1 i ++ be1 y.rate ++ be2 y.burst ++ flagByte y.overhead ++ signed4 y.credit
      let y := { x with
        rate := min 240 r, burst := max 64 n, overhead := o != 0
        credit := min x.credit ((max 64 n : Nat) * 16) }
      let st := if r ≤ 240 ∧ 64 ≤ n then Status.ok else .clamped
      (w = 0 → ends .ok (result x) s) ∧
      (w = 1 → o ≤ 1 → k < 4 → ends st (result y) (s.setBucket b y)) ∧
      (w = 1 → o ≤ 1 → k = 4 → ∀ p : Port, p.val = i / 4 →
        let u := select p (s.setBucket b y)
        ends st (result (u.bucket b)) u)

/-- SET-QUEUE, SET-SCHED and SET-RESERVE keep or write their values in their ranges and return them with the state
that their rules name (R139, R140, R145); SET-RESERVE presents POOL-LOW and clears over-burst drops after its read.
The codes of the turn and of the transmitter state in the results are the model's reading (log 18). So is the one byte
of the served count (log 48). -/
def Obligations.QueueSettingsCommands : Prop :=
  (∀ (n c limit : Nat) (s : State) (e : Execution), Awaits s e (.setQueue n c limit) →
    (13 < n ∨ 3 < c →
      exec (.setQueue n c limit) s = .next (completeCommand false e .badArgument [] s)) ∧
    ∀ (p : Port) (cls : QClass), n = p.val → c = cls.code →
      let x := s.queues p
      let q := x.get cls
      let limit' := if limit = 65535 then q.limit else min 4096 limit
      exec (.setQueue n c limit) s = .next (completeCommand false e
        (if limit ≤ 4096 ∨ limit = 65535 then .ok else .clamped)
        (be2 limit' ++ be2 q.cellCount ++ be2 q.entries.length ++ be1 (if x.sending = none then 0 else 1))
        (s.setQueues p (x.set cls { q with limit := limit' })))) ∧
  (∀ (n b d : Nat) (s : State) (e : Execution), Awaits s e (.setSched n b d) →
    (13 < n → exec (.setSched n b d) s = .next (completeCommand false e .badArgument [] s)) ∧
    ∀ p : Port, n = p.val →
      let x := s.queues p
      let wB := if b = 0 then x.weightB else min 15 b
      let wD := if d = 0 then x.weightD else min 15 d
      exec (.setSched n b d) s = .next (completeCommand false e (if b ≤ 15 ∧ d ≤ 15 then .ok else .clamped)
        (be1 wB ++ be1 wD ++ be1 (if x.turn = .b then 0 else 1) ++ be1 x.served)
        (s.setQueues p { x with weightB := wB, weightD := wD }))) ∧
  ∀ (n c : Nat) (s : State) (e : Execution), Awaits s e (.setReserve n c) →
    ∃ u, exec (.setReserve n c) s = .next (completeCommand false e (if n ≤ 1024 then .ok else .clamped)
        (be2 (min 1024 n) ++ be2 s.fsq.free ++ be2 s.fsq.store.length ++
          flagByte (decide (s.fsq.free < min 1024 n)) ++ be4 s.fsq.overBurst) u) ∧
      u.fsq = { s.fsq with
        reserve := min 1024 n, overBurst := if c = 0 then s.fsq.overBurst else 0 } ∧
      (u.source 20).pending = decide (s.fsq.free < min 1024 n) ∧ ReportsOnly { s with fsq := u.fsq } u

/-! ## Notices and counters -/

/-- An expiry of a holdoff timer restarts it with the holdoff period as it is now and issues a notice frame
(R158, R159). An event at an edge source (R157) and a presentation at a level source (R158): the record changes
as the rules say, a status that becomes set starts a level source's holdoff timer with the holdoff period and,
with the destination present and its trunk port usable, hands on a notice frame (R159, R160); no other source
changes but COUNTER-WRAP, which a lost frame's count may raise. -/
def Obligations.SourcesFollowTheirEvents : Prop :=
  (∀ (k : SourceNo) (n : Nat) (s : State), (s.source k).holdoff = some n → k ≠ 22 →
    ∃ t, exec (.holdoffExpiry k) s = .next t ∧
      t.source k = { s.source k with holdoff := some s.ntu.dest.holdoff } ∧ ReportsOnly s t ∧
      t = issue k (s.setSource k { s.source k with holdoff := some s.ntu.dest.holdoff })) ∧
  (∀ (k : SourceNo) (d : Detail) (s : State), k ≠ 22 →
    let t := raise k d s
    TookEvent k d s t ∧ (∀ j, j ≠ k → j ≠ 22 → t.source j = s.source j) ∧ ReportsOnly s t ∧
    ((s.source k).masked = false → (s.source k).pending = false →
      t = issue k (s.setSource k { s.source k with pending := true, detail := some d, count := 1 })) ∧
    ((s.source k).masked = true ∨ (s.source k).pending = true ∨ s.ntu.dest.sid = none → t.flight = s.flight)) ∧
  (∀ (k : SourceNo) (c : Bool) (s : State), k ≠ 22 →
    let x := s.source k
    let t := present k c s
    t.source k =
      (if c = true ∧ x.pending = false then
        { x with
          pending := true, count := min 255 (x.count + 1)
          holdoff := if x.masked then x.holdoff else some s.ntu.dest.holdoff }
      else if c = false ∧ x.pending = true then { x with pending := false, holdoff := none }
      else x) ∧
    (c = true → x.pending = false → x.masked = false →
      t = issue k (s.setSource k { x with
        pending := true, count := min 255 (x.count + 1), holdoff := some s.ntu.dest.holdoff })) ∧
    (c = false ∨ x.pending = true ∨ x.masked = true → t.flight = s.flight) ∧
    (∀ j, j ≠ k → j ≠ 22 → t.source j = s.source j) ∧ ReportsOnly s t) ∧
  ∀ (k : SourceNo) (sid : Sid) (s : State), s.ntu.dest.sid = some sid →
    let trunk : Port := if s.ntu.dest.trunk = .t0 then 12 else 13
    (s.usable trunk = true →
      issue k s = { s with flight := { s.flight with enqueues := s.flight.enqueues ++
        [{ queues := [(trunk, .u)], kind := .notice
           body := .originated .notice (originatedBytes .notice false s.sid sid
             (be2 (s.ntu.dest.codeBase * 256 + k.val) ++ be1 (s.source k).level ++ be1 (s.source k).count ++
               detailBytes (s.source k).detail ++ be1 0 ++ be1 (pendingSet s / 65536) ++
               be2 (pendingSet s))) }] } }) ∧
    (s.usable trunk = false → (s.counter trunk 10).value < 4294967295 →
      (issue k s).ntu = { s.ntu with lost := min 4294967295 (s.ntu.lost + 1) } ∧ DropRises 9 1 s (issue k s) ∧
        CounterRises trunk 10 1 s (issue k s) ∧ (issue k s).flight = s.flight)

/-- SET-NOTICE writes the mask and the level of one source or of every source (R161): a level above 7 is stored as 7;
an unmasking that sets the status starts a level source's holdoff timer and issues its notice frame, with the level
just written, in ascending order of source (R159), or loses it where the trunk port is not usable (R160); a masking
that clears it stops the timer, and pending, count and detail are kept. SET-NOTICE-DEST writes the whole destination
(R162). READ-NOTICE returns the sources named, the destination and the statistics, and with its clear flag sets the
statistics to 0; CLEAR-NOTICE returns what each edge source named held and empties it, and leaves every level source
(R162, R163). The records of a result are preceded by their count (log 18). An event count takes one byte (log 48),
the trunk port of a destination is carried as its trunk code 0 or 1 (log 41), and the code base takes one byte (log
42): these, with the codes of log 18 and a record without its holdoff timer (log 50), are the model's choices. -/
def Obligations.NoticeCommandsWriteAndRead : Prop :=
  (∀ (n m v : Nat) (s : State) (e : Execution), Awaits s e (.setNotice n m v) →
    ((23 < n ∧ n ≠ 255) ∨ (1 < m ∧ m ≠ 255) →
      exec (.setNotice n m v) s = .next (completeCommand false e .badArgument [] s)) ∧
    ((n < 24 ∨ n = 255) → (m ≤ 1 ∨ m = 255) →
      let named := fun (k : SourceNo) => n = k.val ∨ n = 255
      let ks := (List.finRange 24).filter (fun k => decide (named k))
      ∃ u, exec (.setNotice n m v) s = .next (completeCommand false e (if v ≤ 7 then .ok else .clamped)
          (be2 ks.length ++ ks.flatMap (fun k => sourceBytes k (u.source k))) u) ∧
        (∀ k, named k → k ≠ 22 →
          let x := s.source k
          let masked := if m = 255 then x.masked else m == 1
          u.source k = { x with
            masked := masked, level := if v = 0 then x.level else min 7 v
            holdoff := if x.masked = masked ∨ x.pending = false then x.holdoff
              else if masked then none
              else if isLevelSource k then some s.ntu.dest.holdoff
              else x.holdoff }) ∧
        (∀ k, ¬named k → k ≠ 22 → u.source k = s.source k) ∧ u.ntu.dest = s.ntu.dest ∧ ReportsOnly s u ∧
        (let rising := ks.filter (fun k => m == 0 && (s.source k).pending && (s.source k).masked);
          (rising = [] ∨ s.ntu.dest.sid = none → u.flight = s.flight) ∧
          ∀ d, s.ntu.dest.sid = some d →
            let trunk : Port := if s.ntu.dest.trunk = .t0 then 12 else 13;
            let frame := fun (k : SourceNo) =>
              be2 (s.ntu.dest.codeBase * 256 + k.val) ++ be1 (if v = 0 then (s.source k).level else min 7 v) ++
                be1 (s.source k).count ++ detailBytes (s.source k).detail ++ be1 0 ++
                be1 (pendingSet s / 65536) ++ be2 (pendingSet s);
            let frames : List EnqueueRequest := rising.map (fun k =>
              { queues := [(trunk, .u)], kind := .notice
                body := .originated .notice (originatedBytes .notice false s.sid d (frame k)) });
            (s.usable trunk = true →
              u.flight = { s.flight with enqueues := s.flight.enqueues ++ frames }) ∧
            (s.usable trunk = false → (s.counter trunk 10).value + rising.length ≤ 4294967295 →
              u.flight = s.flight ∧ CounterRises trunk 10 rising.length s u ∧ DropRisesBy 9 rising.length s u ∧
              (rising ≠ [] → u.ntu.lost = min 4294967295 (s.ntu.lost + rising.length)))))) ∧
  (∀ (f : Nat) (sid : Sid) (tr base h : Nat) (s : State) (e : Execution), Awaits s e (.setNoticeDest f sid tr base h) →
    (1 < f ∨ 1 < tr ∨ (f = 1 ∧ sid = 0) →
      exec (.setNoticeDest f sid tr base h) s = .next (completeCommand false e .badArgument [] s)) ∧
    (f ≤ 1 → tr ≤ 1 → (f = 1 → sid ≠ 0) →
      let d : NoticeDest :=
        { sid := if f = 1 then some sid else none, trunk := if tr = 0 then .t0 else .t1, codeBase := base
          holdoff := max 1 (min 60 h) }
      ∃ u, exec (.setNoticeDest f sid tr base h) s = .next (completeCommand false e
          (if 1 ≤ h ∧ h ≤ 60 then .ok else .clamped)
          (optBytes 4 sidBytes d.sid ++ be1 tr ++ be1 base ++ be1 d.holdoff) u) ∧
        u.ntu.dest = d ∧ (∀ k, k ≠ 22 → u.source k = s.source k) ∧
        ((f = 0 ∨ s.ntu.dest.sid ≠ none) → u = { s with ntu := { s.ntu with dest := d } }) ∧
        (f = 1 → s.ntu.dest.sid = none → u.usable d.trunk.port = true →
          u.flight.enqueues.length =
            s.flight.enqueues.length + (List.finRange 24).countP (fun k => (s.source k).status)) ∧
        ReportsOnly s u)) ∧
  (∀ (n c : Nat) (s : State) (e : Execution), Awaits s e (.readNotice n c) →
    ((23 < n ∧ n ≠ 255) ∨ 1 < c →
      exec (.readNotice n c) s = .next (completeCommand false e .badArgument [] s)) ∧
    ((n < 24 ∨ n = 255) → c ≤ 1 →
      let ks := (List.finRange 24).filter (fun k => decide (n = k.val ∨ n = 255))
      exec (.readNotice n c) s = .next (completeCommand false e .ok
        (be2 ks.length ++ ks.flatMap (fun k => sourceBytes k (s.source k)) ++
          (optBytes 4 sidBytes s.ntu.dest.sid ++ be1 s.ntu.dest.trunk.code ++ be1 s.ntu.dest.codeBase ++
            be1 s.ntu.dest.holdoff) ++ be4 s.ntu.enqueued ++ be4 s.ntu.lost)
        (if c = 0 then s else { s with ntu := { s.ntu with enqueued := 0, lost := 0 } })))) ∧
  (∀ (n : Nat) (s : State) (e : Execution), Awaits s e (.clearNotice n) →
    (23 < n ∧ n ≠ 255 → exec (.clearNotice n) s = .next (completeCommand false e .badArgument [] s)) ∧
    (n < 24 ∨ n = 255 →
      let ks := (List.finRange 24).filter (fun k => decide (n = k.val ∨ n = 255) && !isLevelSource k)
      ∃ u, exec (.clearNotice n) s = .next (completeCommand false e .ok
          (be2 ks.length ++ ks.flatMap (fun k => be1 (s.source k).count ++ detailBytes (s.source k).detail)) u) ∧
        (∀ k, u.source k =
          if k ∈ ks then { s.source k with pending := false, count := 0, detail := none } else s.source k) ∧
        u = { s with ntu := { s.ntu with sources := u.ntu.sources } }))

/-- Counters (R164 to R166): a per-port counter rises modulo 2³², and one that passes its maximum sets its wrap flag
and raises COUNTER-WRAP with its port and number, whose notice frame is issued where its status rises; no other
counter but the tx port-down discards, where that notice may itself be lost, changes at that event; a drop-reason
counter stops at its maximum. READ-COUNTERS returns as many whole groups as fit, and with its clear flag sets those to
0 and no others. The groups of a result are preceded by their count (log 18). -/
def Obligations.CountersCountAndAreRead : Prop :=
  (∀ (p : Port) (c : Fin 12) (n : Nat) (s : State), c ≠ 10 →
    let t := bump p c n s
    CounterRises p c n s t ∧
    (4294967295 < (s.counter p c).value + n → (s.counter p c).value + n < 8589934592 →
      (t.counter p c).wrapped = true ∧ (NoticesGoOut s → TookEvent 22 (.counter p c) s t)) ∧
    ((s.counter p c).value + n ≤ 4294967295 →
      t = s.setCounter p c { s.counter p c with value := (s.counter p c).value + n }) ∧
    (∀ q k, (q, k) ≠ (p, c) → k ≠ 10 → t.counter q k = s.counter q k) ∧ ReportsOnly s t ∧ HandsOnNotices s t) ∧
  (∀ (p : Port) (c : Fin 12) (n : Nat) (s : State), 4294967295 < (s.counter p c).value + n →
    let x := s.source 22
    let u := (s.setCounter p c ⟨((s.counter p c).value + n) % 4294967296, true⟩).setSource 22
      (if x.pending then { x with count := min 255 (x.count + 1) }
        else { x with pending := true, detail := some (.counter p c), count := 1 })
    bump p c n s = if x.pending = false ∧ x.masked = false then issue 22 u else u) ∧
  (∀ (r : Fin 20) (n : Nat) (s : State),
    let t := addDrop r n s
    DropRises r n s t ∧ (∀ k, k ≠ r → t.ctb.drops.get k = s.ctb.drops.get k) ∧
      t = { s with ctb := { s.ctb with drops := t.ctb.drops } }) ∧
  ∀ (n c : Nat) (s : State) (e : Execution), Awaits s e (.readCounters n c) →
    (16 < n ∨ 1 < c → exec (.readCounters n c) s = .next (completeCommand false e .badArgument [] s)) ∧
    (n ≤ 16 → c ≤ 1 → 2 ≤ e.room →
      let portGroup := fun (p : Port) => be1 p.val ++ (s.ctb.ports.get p).toList.flatMap (fun x => be4 x.value) ++
        be2 (wrappedSet (s.ctb.ports.get p))
      let drops := s.ctb.drops.toList.flatMap be4
      let ps := (List.finRange 14).filter (fun p => decide (n = p.val ∨ n = 14 ∨ n = 16))
      let groups := ps.map portGroup ++ (if n = 15 ∨ n = 16 then [drops] else [])
      ∃ j u, j ≤ groups.length ∧ ((groups.take j).map List.length).sum + 2 ≤ e.room ∧
        (j < groups.length → e.room < ((groups.take (j + 1)).map List.length).sum + 2) ∧
        exec (.readCounters n c) s = .next (completeCommand false e (if j = groups.length then .ok else .partialFit)
          (be2 j ++ (groups.take j).flatten) u) ∧
        (∀ p k, u.counter p k = if c = 1 ∧ p ∈ ps.take j then ⟨0, false⟩ else s.counter p k) ∧
        (∀ d, u.ctb.drops.get d = if c = 1 ∧ ps.length < j then 0 else s.ctb.drops.get d) ∧
        u = { s with ctb := u.ctb })

/-! ## The management agent -/

/-- The agent takes the frame at the head of its queue when it is free (R168, R169, R171). A count of 0 or above 16 is
answered BAD-ARGUMENT with no entries; otherwise execution begins with the payload after the envelope and the room of
the reply left after its fixed parts, the commands up to the first one that an owner takes are answered SHORT,
BAD-CODE or SKIPPED, and the agent has come to that command, which is the frame's first where that is whole and its
code and arguments spell a command; a frame with no such command is answered at once. What the agent finds next in a
frame is judged by the cases of R169 in their order, and each entry moves it past the command it answers. -/
def Obligations.CommandFrameTakeBeginsExecution : Prop :=
  (∀ (f : CommandFrame) (r : List CommandFrame) (s : State), s.mga.phase = .idle → s.mga.queue = f :: r →
    let count := (byteAt f.payload 3).toNat
    let tag := u16At f.payload 1
    let start : Execution :=
      { arrival := f.arrival, station := f.station, peer := f.peer
        stopOnError := (byteAt f.payload 0).getLsbD 0, tag := tag, count := count, rest := f.payload.drop 4
        failed := false, entries := [], room := 1900 - 4 - 4 * count }
    let e := Execution.settle 16 start
    let answered := fun (body : List Byte) (t : State) =>
      (s.usable f.arrival = true → t = { s with
        mga := ⟨r, .idle⟩
        flight := { s.flight with enqueues := s.flight.enqueues ++
          [{ queues := [(f.arrival, .u)], kind := .managementReply
             body := .originated (.reply false) (originatedBytes .managementReply (Port.isQuay f.arrival)
               f.station f.peer body) }] } }) ∧
      (s.usable f.arrival = false → DroppedPortDown f.arrival { s with mga := ⟨r, .idle⟩ } t)
    ∃ t, exec .commandFrameTake s = .next t ∧ t.mga.queue = r ∧
      (count = 0 ∨ 16 < count → answered (be2 tag ++ [4, 0]) t) ∧
      (1 ≤ count → count ≤ 16 →
        e.entries.length ≤ count ∧
        (∀ x ∈ e.entries, x.result = [] ∧ (x.status = .short ∨ x.status = .badCode ∨ x.status = .skipped)) ∧
        (e.entries.length = count →
          answered (be2 tag ++ be1 0 ++ be1 count ++ e.entries.flatMap (fun x =>
            [x.code] ++ be1 x.status.code ++ be2 x.result.length ++ x.result)) t) ∧
        (e.entries.length < count → t = { s with mga := ⟨r, .executing e⟩ } ∧ e.awaited.isSome = true ∧
          e.count = count ∧ e.tag = tag ∧ e.room = 1900 - 4 - 4 * count ∧ e.arrival = f.arrival ∧
          e.station = f.station ∧ e.peer = f.peer ∧ e.stopOnError = (byteAt f.payload 0).getLsbD 0) ∧
        ∀ code n args more i, f.payload.drop 4 = code :: n :: (args ++ more) → args.length = n.toNat →
          Decode.command code args = .command i →
          t = { s with mga := ⟨r, .executing start⟩ } ∧ start.awaited = some i)) ∧
  ∀ e : Execution,
    let skips := e.stopOnError = true ∧ e.failed = true
    (skips → e.upcoming = .skipped) ∧
    (¬skips → e.rest.length < 2 → e.upcoming = .short) ∧
    (∀ code n rest, e.rest = code :: n :: rest → ¬skips → rest.length < n.toNat → e.upcoming = .short) ∧
    (∀ code n args more, e.rest = code :: n :: (args ++ more) → args.length = n.toNat →
      (¬skips → e.upcoming = match Decode.command code args with
        | .badCode => .badCode
        | .short => .short
        | .command i => .command i) ∧
      ∀ st result, e.push st result =
        { e with
          rest := more, entries := e.entries ++ [⟨code, st, result⟩], room := e.room - result.length
          failed := e.failed || decide (st ≠ .ok ∧ st ≠ .clamped ∧ st ≠ .partialFit) }) ∧
    ∀ n, (e.count ≤ e.entries.length → Execution.settle n e = e) ∧
      (e.entries.length < e.count →
        (∀ i, e.upcoming = .command i → Execution.settle n e = e) ∧
        (e.upcoming = .skipped → Execution.settle (n + 1) e = Execution.settle n (e.push .skipped [])) ∧
        (e.upcoming = .short → Execution.settle (n + 1) e = Execution.settle n (e.push .short [])) ∧
        (e.upcoming = .badCode → Execution.settle (n + 1) e = Execution.settle n (e.push .badCode [])))

/-- A command that was taken ends (R169 to R172): its entry carries its code, its status and its result, but no result
when it failed, and PARTIAL without a result when the result does not fit the room; the payload goes on after the
command, the commands there that no owner takes are answered SHORT, BAD-CODE or SKIPPED without a result (`push` and
`settle`, as `CommandFrameTakeBeginsExecution` says); and the agent has come to the next command that an owner takes,
which is the very next where that is whole, its code and arguments spell a command and stop-on-error does not apply,
or hands the reply to the U queue of the port of arrival. -/
def Obligations.CommandEndsWithItsEntry : Prop :=
  ∀ (e : Execution) (st : Status) (result : List Byte) (s : State), e.entries.length < e.count → e.count ≤ 16 →
    let fails := st ≠ .ok ∧ st ≠ .clamped ∧ st ≠ .partialFit
    ∃ (st' : Status) (kept : List Byte) (more : List ReplyEntry) (e' : Execution),
      (fails → st' = st ∧ kept = []) ∧ (¬fails → result.length ≤ e.room → st' = st ∧ kept = result) ∧
      (¬fails → e.room < result.length → st' = .partialFit ∧ kept = []) ∧
      (∀ x ∈ more, x.result = [] ∧ (x.status = .short ∨ x.status = .badCode ∨ x.status = .skipped)) ∧
      e' = Execution.settle 16 (e.push st' kept) ∧
      (∀ code n args next, e.rest = code :: n :: (args ++ next) → args.length = n.toNat →
        ∀ code' n' args' more' i, next = code' :: n' :: (args' ++ more') → args'.length = n'.toNat →
          Decode.command code' args' = .command i → e.entries.length + 1 < e.count →
          ¬(e.stopOnError = true ∧ (e.failed = true ∨ fails)) →
          e' = e.push st' kept ∧ e'.rest = next ∧ e'.awaited = some i ∧ more = []) ∧
      e'.entries = e.entries ++ [⟨e.code, st', kept⟩] ++ more ∧ e'.room = e.room - kept.length ∧
      e'.count = e.count ∧ e'.tag = e.tag ∧ e'.stopOnError = e.stopOnError ∧ e'.arrival = e.arrival ∧
      e'.station = e.station ∧ e'.peer = e.peer ∧ e'.entries.length ≤ e.count ∧
      (e.stopOnError = true → fails → e'.entries.length = e.count ∧ ∀ x ∈ more, x.status = .skipped) ∧
      (e'.entries.length < e.count → e'.awaited.isSome = true ∧
        completeCommand false e st result s = { s with mga := { s.mga with phase := .executing e' } }) ∧
      (e'.entries.length = e.count →
        (completeCommand false e st result s).mga = { s.mga with phase := .idle } ∧
        (s.usable e.arrival = true →
          completeCommand false e st result s = { s with
            mga := { s.mga with phase := .idle }
            flight := { s.flight with enqueues := s.flight.enqueues ++
              [{ queues := [(e.arrival, .u)], kind := .managementReply
                 body := .originated (.reply false) (originatedBytes .managementReply (Port.isQuay e.arrival)
                   e.station e.peer (be2 e.tag ++ be1 0 ++ be1 e'.entries.length ++
                     e'.entries.flatMap (fun x =>
                       [x.code] ++ be1 x.status.code ++ be2 x.result.length ++ x.result))) }] } }) ∧
        (s.usable e.arrival = false →
          ReportsOnly { s with mga := { s.mga with phase := .idle } } (completeCommand false e st result s)))

/-- IDENT returns the revision, the part SID, the part address, the straps, the seconds and the restarts (R176; the
width of the restarts: log 18); SET-IDENT replaces the part SID, but with no zero SID (R25); SET-PORT refuses codes
outside its lists and CRANE-ONLY on a trunk port, and otherwise writes what is not kept, announces a change of
usability with the cause service mode, in flight to the links bound at that moment (the model's form, log 6), and
returns the record (R21, R23). SET-GROUP of a group above 3 is refused with BAD-ARGUMENT, the model's reading (log
17). The seconds counter advances by one in STARTING, RUNNING and RESTARTING (R175); during a hard reset it stands
(log 25), and past its 32-bit maximum its value is left open within its range (log 10). -/
def Obligations.IdentityPortsAndSeconds : Prop :=
  (∀ (g : Nat) (b m : Half) (v : Nat) (s : State) (e : Execution), Awaits s e (.setGroup g b m v) → 3 < g →
    exec (.setGroup g b m v) s = .next (completeCommand false e .badArgument [] s)) ∧
  ((∀ (s : State) (e : Execution), Awaits s e .ident →
    exec .ident s = .next (completeCommand false e .ok
      ([0x42] ++ sidBytes s.sid ++ [0x02, 0x4B, 0x51, 0x30, 0x00, BitVec.ofNat 8 s.straps.addr.val] ++
        flagByte s.straps.msel ++ be1 s.straps.addr.val ++ be4 s.seconds ++ be2 s.restarts) s)) ∧
  (∀ (x : Sid) (s : State) (e : Execution), Awaits s e (.setIdent x) →
    (x = 0 → exec (.setIdent x) s = .next (completeCommand false e .badArgument [] s)) ∧
    (x ≠ 0 → exec (.setIdent x) s = .next (completeCommand false e .ok (sidBytes x) { s with sid := x }))) ∧
  ∀ (n m q o : Nat) (s : State) (e : Execution), Awaits s e (.setPort n m q o) →
    (13 < n ∨ (2 < m ∧ m ≠ 255) ∨ (1 < q ∧ q ≠ 255) ∨ (m = 1 ∧ 12 ≤ n) →
      exec (.setPort n m q o) s = .next (completeCommand false e .badArgument [] s)) ∧
    ∀ p : Port, n = p.val → (m ≤ 2 ∨ m = 255) → (q ≤ 1 ∨ q = 255) → (m = 1 → p.val < 12) →
      let r := s.port p
      let r' := { r with
        mode := if m = 0 then .full else if m = 1 then .craneOnly else if m = 2 then .disabled else r.mode
        permitted := if q = 0 then false else if q = 1 then true else r.permitted
        overhead := if o = 255 then r.overhead else min 63 o }
      ∃ u, exec (.setPort n m q o) s = .next (completeCommand false e
          (if o ≤ 63 ∨ o = 255 then .ok else .clamped) (portBytes r') u) ∧
        u.ports = vset s.ports p r' ∧ UsabilityAnnounced p .serviceMode s u ∧ PortFrame s u) ∧
  ∀ s : State,
    (s.part ≠ .inReset → s.seconds < 4294967295 →
      exec .secondsCounterTick s = .next { s with seconds := s.seconds + 1 }) ∧
    (s.part = .inReset → exec .secondsCounterTick s = .next s) ∧
    (s.part ≠ .inReset → 4294967295 ≤ s.seconds →
      ∃ t, exec .secondsCounterTick s = .next t ∧ t.seconds ≤ 4294967295 ∧
        t = { s with seconds := t.seconds, freeUse := s.freeUse + 1 })

/-- SET-GROUP, SET-CLASS and SET-DOMAIN write one record and return it, refuse numbers and codes out of range, and
clamp an options byte and a flood set to the parts that are named; READ-CLASS and READ-DOMAIN return the records as
stored, the latter with its flood policer (R32, R35 to R37). That a set flag is carried as 1 (log 18), and a trunk
port as its trunk code 0 or 1 in one byte (log 41), is the model's choice. -/
def Obligations.IdentityRecordCommands : Prop :=
  (∀ (g : Nat) (b m : Half) (v : Nat) (s : State) (e : Execution), Awaits s e (.setGroup g b m v) →
    ∀ k : Fin 4, g = k.val →
      exec (.setGroup g b m v) s = .next (completeCommand false e .ok
        (be2 b.toNat ++ be2 m.toNat ++ flagByte (v != 0))
        { s with idc := { s.idc with groups := vset s.idc.groups k ⟨b, m, v != 0⟩ } })) ∧
  (∀ (g c : Nat) (b m : Half) (v d o : Nat) (s : State) (e : Execution), Awaits s e (.setClass g c b m v d o) →
    (3 < g ∨ 3 < c ∨ 7 < d →
      exec (.setClass g c b m v d o) s = .next (completeCommand false e .badArgument [] s)) ∧
    ∀ (k : Fin 16) (n : Fin 8), g ≤ 3 → c ≤ 3 → k.val = 4 * g + c → n.val = d →
      exec (.setClass g c b m v d o) s = .next (completeCommand false e (if o < 8 then .ok else .clamped)
        (be2 b.toNat ++ be2 m.toNat ++ flagByte (v != 0) ++ be1 d ++ be1 (o % 8))
        { s with idc := { s.idc with
          classes := vset s.idc.classes k
            ⟨b, m, v != 0, n, ⟨o % 2 == 1, o / 2 % 2 == 1, o / 4 % 2 == 1⟩⟩ } })) ∧
  (∀ (g c : Nat) (s : State) (e : Execution), Awaits s e (.readClass g c) →
    (3 < g ∨ 3 < c → exec (.readClass g c) s = .next (completeCommand false e .badArgument [] s)) ∧
    ∀ (j : Fin 4) (k : Fin 16), j.val = g → c ≤ 3 → k.val = 4 * g + c →
      let x := s.idc.groups.get j
      let y := s.idc.classes.get k
      exec (.readClass g c) s = .next (completeCommand false e .ok
        (be2 x.base.toNat ++ be2 x.mask.toNat ++ flagByte x.valid ++
          (be2 y.base.toNat ++ be2 y.mask.toNat ++ flagByte y.valid ++ be1 y.domain.val ++
            be1 ((if y.options.uplinkOnly then 1 else 0) + (if y.options.reefer then 2 else 0) +
              (if y.options.crane then 4 else 0)))) s)) ∧
  (∀ (d en tr : Nat) (f : Half) (q : Nat) (s : State) (e : Execution), Awaits s e (.setDomain d en tr f q) →
    (7 < d ∨ 1 < tr ∨ 1 < q →
      exec (.setDomain d en tr f q) s = .next (completeCommand false e .badArgument [] s)) ∧
    ∀ k : Fin 8, k.val = d → tr ≤ 1 → q ≤ 1 →
      exec (.setDomain d en tr f q) s = .next (completeCommand false e
        (if f.toNat < 4096 then .ok else .clamped)
        (flagByte (en != 0) ++ be1 tr ++ be2 (f.toNat % 4096) ++ be1 q)
        { s with idc := { s.idc with
          domains := vset s.idc.domains k
            ⟨en != 0, if tr = 0 then .t0 else .t1, f.setWidth 12, if q = 0 then .d else .b⟩ } })) ∧
  ∀ (d : Nat) (s : State) (e : Execution), Awaits s e (.readDomain d) →
    (7 < d → exec (.readDomain d) s = .next (completeCommand false e .badArgument [] s)) ∧
    ∀ k : Fin 8, k.val = d →
      let x := s.domain k
      let b := s.bucket ⟨72 + k.val, by omega⟩
      exec (.readDomain d) s = .next (completeCommand false e .ok
        (flagByte x.enabled ++ be1 x.trunk.code ++ be2 x.flood.toNat ++ be1 (if x.queue = .d then 0 else 1) ++
          be1 b.rate ++ be2 b.burst ++ signed4 b.credit) s)

/-! ## Laws that every step keeps -/

/-- The laws hold in the state after a power-on reset. -/
def Obligations.ResetKeepsTheLaws : Prop :=
  MapLaw State.reset ∧ StationLaw State.reset ∧ LinkLaw State.reset ∧ OverlayLaw State.reset ∧
    ReeferLaw State.reset ∧ BatchLaw State.reset ∧ CreditLaw State.reset ∧ CreditFloor State.reset ∧
    PoolLaw State.reset ∧ NoticeLaw State.reset ∧ AgentLaw State.reset

/-- Every step keeps the laws of the map: lawful cells in their one form, geometries and window in range, cursors
fresh or inside the window (R2, R3, R4, R6, R11). -/
def Obligations.StepsKeepTheMapLaw : Prop := ∀ s t : State, MapLaw s → step s = .next t → MapLaw t

/-- Every step keeps the law of the station table: a SID in at most one record, and collections within their sizes
(R42). -/
def Obligations.StepsKeepTheStationLaw : Prop := ∀ s t : State, StationLaw s → step s = .next t → StationLaw t

/-- Every step keeps the laws of the crane links: missed within its bound, the supervision timer running exactly
while LIVE or LATE, a handover only then and between two ports (R61, R72 to R74, R89). -/
def Obligations.StepsKeepTheLinkLaw : Prop := ∀ s t : State, LinkLaw s → step s = .next t → LinkLaw t

/-- Every step keeps the law of the crane overlay (R16). -/
def Obligations.StepsKeepTheOverlayLaw : Prop :=
  ∀ s t : State, LinkLaw s → OverlayLaw s → step s = .next t → OverlayLaw t

/-- Every step keeps the laws of the reefer table and of the batch buffers (R103, R104, R128, R130). -/
def Obligations.StepsKeepTheReeferAndBatchLaws : Prop :=
  ∀ s t : State, ReeferLaw s → BatchLaw s → step s = .next t → ReeferLaw t ∧ BatchLaw t

/-- Every step keeps the laws of the buckets: no credit above Cmax, no policer's below 0 (R149, R151), and no shaper's
below −33,776, with the lengths and overheads on which that rests (R151, R153). -/
def Obligations.StepsKeepTheCreditLaw : Prop :=
  (∀ s t : State, CreditLaw s → step s = .next t → CreditLaw t) ∧
    ∀ s t : State, CreditFloor s → step s = .next t → CreditFloor t

/-- Every step keeps the laws of the pool: 4,096 cells in all, and a reference count of every stored frame equal to
the entries that point at it (R138, R144). -/
def Obligations.StepsKeepThePoolLaw : Prop := ∀ s t : State, PoolLaw s → step s = .next t → PoolLaw t

/-- Every step keeps the laws of the notice sources: a holdoff timer runs exactly while its level source's status is
set, and an edge source is pending exactly while it holds a detail and a count (R156 to R158). -/
def Obligations.StepsKeepTheNoticeLaw : Prop := ∀ s t : State, NoticeLaw s → step s = .next t → NoticeLaw t

/-- Every step keeps the laws of the agent: at most four frames wait, a frame being executed has come to a command
that its owner takes, and a frame is held only while a swap is pending (R12, R168, R169). -/
def Obligations.StepsKeepTheAgentLaw : Prop := ∀ s t : State, AgentLaw s → step s = .next t → AgentLaw t
end

