-- ==== Sys2Proof/Laws/Collections.lean ====
section
/-! SUPPORT. The laws of the collections: what is read after a write, that a write leaves every other place as it
was, the lowest free place, and that every operation keeps the one form of a table and of a bank's cells. -/

namespace Sys2Proof

/-! ## Tables -/

theorem Table.get_put {α : Type} (t : Table α) (k j : Nat) (v : α) (h : t.Pairwise (fun a b => a.1 < b.1)) :
    Table.get (Table.put t k v) j = if j = k then some v else Table.get t j := by
  induction t with
  | nil => simp [Table.put, Table.get, eq_comm]
  | cons e r ih =>
    obtain ⟨i, w⟩ := e
    have hr := ih (List.Pairwise.of_cons h)
    have hlt : ∀ e ∈ r, i < e.1 := (List.pairwise_cons.mp h).1
    simp only [Table.put]
    split
    · simp [Table.get, eq_comm]
    · split
      · rename_i hk
        subst hk
        simp only [Table.get, eq_comm (a := k)]
        split <;> rfl
      · simp only [Table.get, hr]
        split
        · rename_i hi
          rw [if_neg (by omega)]
        · rfl

theorem Table.get_put_same {α : Type} (t : Table α) (k : Nat) (v : α) (h : t.Pairwise (fun a b => a.1 < b.1)) :
    Table.get (Table.put t k v) k = some v := by simp [Table.get_put t k k v h]

theorem Table.get_put_of_ne {α : Type} (t : Table α) {k j : Nat} (v : α) (h : t.Pairwise (fun a b => a.1 < b.1))
    (hj : j ≠ k) : Table.get (Table.put t k v) j = Table.get t j := by simp [Table.get_put t k j v h, hj]

theorem Table.get_erase {α : Type} (t : Table α) (k j : Nat) :
    Table.get (Table.erase t k) j = if j = k then none else Table.get t j := by
  induction t with
  | nil => simp [Table.erase, Table.get]
  | cons e r ih =>
    obtain ⟨i, w⟩ := e
    simp only [Table.erase] at ih ⊢
    by_cases hi : i = k
    · subst hi
      simp only [List.filter_cons, ne_eq, not_true_eq_false, decide_false, Table.get]
      split <;> simp_all [eq_comm]
    · simp only [List.filter_cons, ne_eq, hi, not_false_eq_true, decide_true, if_true, Table.get, ih]
      split <;> split <;> simp_all

theorem Table.get_mapValues {α : Type} (t : Table α) (f : α → α) (k : Nat) :
    Table.get (Table.mapValues t f) k = (Table.get t k).map f := by
  induction t with
  | nil => rfl
  | cons e r ih =>
    obtain ⟨i, w⟩ := e
    simp only [Table.mapValues, List.map_cons, Table.get] at ih ⊢
    split
    · rfl
    · exact ih

/-- A record stands at a place exactly when the list holds it there. -/
theorem Table.get_eq_some {α : Type} (t : Table α) (k : Nat) (v : α) (h : t.Pairwise (fun a b => a.1 < b.1)) :
    Table.get t k = some v ↔ (k, v) ∈ t := by
  induction t with
  | nil => simp [Table.get]
  | cons e r ih =>
    obtain ⟨i, w⟩ := e
    have hr := ih (List.Pairwise.of_cons h)
    have hlt : ∀ e ∈ r, i < e.1 := (List.pairwise_cons.mp h).1
    simp only [Table.get]
    split
    · rename_i hi
      subst hi
      constructor
      · intro hv; cases hv; exact List.mem_cons_self
      · intro hm
        rcases List.mem_cons.mp hm with hm | hm
        · cases hm; rfl
        · exact absurd (hlt _ hm) (Nat.lt_irrefl _)
    · rename_i hi
      rw [hr]
      constructor
      · intro hm; exact List.mem_cons_of_mem _ hm
      · intro hm
        rcases List.mem_cons.mp hm with hm | hm
        · cases hm; exact absurd rfl hi
        · exact hm

theorem Table.mem_put {α : Type} (t : Table α) (k : Nat) (v : α) (e : Nat × α) (h : e ∈ Table.put t k v) :
    e = (k, v) ∨ e ∈ t := by
  induction t with
  | nil => exact .inl (by simpa [Table.put] using h)
  | cons a r ih =>
    simp only [Table.put] at h
    split at h
    · rcases List.mem_cons.mp h with h | h
      · exact .inl h
      · exact .inr h
    · split at h
      · rcases List.mem_cons.mp h with h | h
        · exact .inl h
        · exact .inr (List.mem_cons_of_mem _ h)
      · rcases List.mem_cons.mp h with h | h
        · exact .inr (h ▸ List.mem_cons_self)
        · rcases ih h with h | h
          · exact .inl h
          · exact .inr (List.mem_cons_of_mem _ h)

theorem Table.put_sorted {α : Type} (t : Table α) (k : Nat) (v : α) (h : t.Pairwise (fun a b => a.1 < b.1)) :
    (Table.put t k v).Pairwise (fun a b => a.1 < b.1) := by
  induction t with
  | nil => simp [Table.put]
  | cons e r ih =>
    obtain ⟨i, w⟩ := e
    have hlt : ∀ e ∈ r, i < e.1 := (List.pairwise_cons.mp h).1
    have hr := List.Pairwise.of_cons h
    simp only [Table.put]
    split
    · rename_i hk
      refine List.pairwise_cons.mpr ⟨fun e he => ?_, h⟩
      rcases List.mem_cons.mp he with he | he
      · rw [he]; exact hk
      · exact Nat.lt_trans hk (hlt e he)
    · split
      · subst_vars
        exact List.pairwise_cons.mpr ⟨fun e he => hlt e he, hr⟩
      · refine List.pairwise_cons.mpr ⟨fun e he => ?_, ih hr⟩
        rcases Table.mem_put r k v e he with he | he
        · rw [he]; simp only; omega
        · exact hlt e he

/-- Writing a record at a place of the collection keeps the form. -/
theorem Table.wf_put {α : Type} {n k : Nat} {t : Table α} (v : α) (h : Table.wf n t) (hk : k < n) :
    Table.wf n (Table.put t k v) := by
  refine ⟨Table.put_sorted t k v h.1, fun e he => ?_⟩
  rcases Table.mem_put t k v e he with he | he
  · rw [he]; exact hk
  · exact h.2 e he

/-- Freeing a place keeps the form. -/
theorem Table.wf_erase {α : Type} {n : Nat} {t : Table α} (k : Nat) (h : Table.wf n t) :
    Table.wf n (Table.erase t k) :=
  ⟨h.1.filter _, fun e he => h.2 e (List.mem_of_mem_filter he)⟩

/-- Changing every record in its place keeps the form. -/
theorem Table.wf_mapValues {α : Type} {n : Nat} {t : Table α} (f : α → α) (h : Table.wf n t) :
    Table.wf n (Table.mapValues t f) := by
  refine ⟨List.pairwise_map.mpr h.1, fun e he => ?_⟩
  obtain ⟨x, hx, rfl⟩ := List.mem_map.mp he
  exact h.2 x hx

theorem Table.freeFrom_some {α : Type} (t : Table α) (fuel k j : Nat) (h : Table.freeFrom t fuel k = some j) :
    Table.get t j = none ∧ k ≤ j ∧ j < k + fuel := by
  induction fuel generalizing k with
  | zero => cases h
  | succ fuel ih =>
    simp only [Table.freeFrom] at h
    split at h
    · cases h
      rename_i hn
      exact ⟨Option.isNone_iff_eq_none.mp hn, Nat.le_refl _, by omega⟩
    · have := ih (k + 1) h
      exact ⟨this.1, by omega, by omega⟩

/-- The lowest free place is free and one of the collection. -/
theorem Table.lowestFree_some {α : Type} {t : Table α} {n j : Nat} (h : Table.lowestFree t n = some j) :
    Table.get t j = none ∧ j < n := by
  have := Table.freeFrom_some t n 0 j h
  exact ⟨this.1, by omega⟩

/-! ## The coverage cells of a bank -/

/-- A cell reads as it was last written, and every other cell as before. -/
theorem Memory.read_write (t : Table Machine.Cell) (a j : Nat) (c : Machine.Cell)
    (h : t.Pairwise (fun x y => x.1 < y.1)) :
    Memory.read (Memory.write t a c) j = if j = a then c else Memory.read t j := by
  simp only [Memory.read, Memory.write]
  split
  · subst_vars; rw [Table.get_erase]; split <;> simp
  · rw [Table.get_put t a j c h]; split <;> simp

/-- Writing a cell keeps the one form of a bank's cells. -/
theorem Memory.wf_write {t : Table Machine.Cell} {a : Nat} (c : Machine.Cell) (h : Memory.wf t) (ha : a < 2048) :
    Memory.wf (Memory.write t a c) := by
  simp only [Memory.write]
  split
  · exact ⟨Table.wf_erase a h.1, fun e he => h.2 e (List.mem_of_mem_filter he)⟩
  · rename_i hc
    refine ⟨Table.wf_put c h.1 ha, fun e he => ?_⟩
    rcases Table.mem_put t a c e he with he | he
    · rw [he]; exact hc
    · exact h.2 e he

/-- The cells of both banks have the one form in the state after a power-on reset. -/
theorem Memory.wf_reset :
    Memory.wf Machine.State.reset.cvm.bank0.cells ∧ Memory.wf Machine.State.reset.cvm.bank1.cells := by
  refine ⟨⟨⟨List.Pairwise.nil, ?_⟩, ?_⟩, ⟨⟨List.Pairwise.nil, ?_⟩, ?_⟩⟩ <;> intro e he <;> cases he

namespace Machine

/-- A write of a coverage cell keeps the form of its bank (R2, R7). -/
theorem Bank.writeCell_wf {b : Bank} {g a : Nat} (c : Cell) (h : Memory.wf b.cells) (hg : g < 256) (ha : a < 8) :
    Memory.wf (b.writeCell g a c).cells := Memory.wf_write c h (by simp only [cellAddress]; omega)

/-- A coverage cell reads as it was last written (R2, R7). -/
theorem Bank.cell_writeCell (b : Bank) (g a g' a' : Nat) (c : Cell) (h : Memory.wf b.cells) (ha : a < 8)
    (ha' : a' < 8) : (b.writeCell g a c).cell g' a' = if g' = g ∧ a' = a then c else b.cell g' a' := by
  simp only [Bank.cell, Bank.writeCell, Memory.read_write _ _ _ _ h.1.1, cellAddress]
  split <;> split <;> first | rfl | omega

/-- COPY-ACTIVE leaves the shadow bank in the form of the active one (R10). -/
theorem Cvm.copyActive_wf (c : Cvm) (h : Memory.wf c.active.cells) :
    Memory.wf (c.setShadow c.active).shadow.cells := by
  unfold Cvm.setShadow Cvm.shadow
  unfold Cvm.active at h ⊢
  cases hb : c.activeIsOne <;> simp only [hb] at h ⊢ <;> exact h

end Machine

end Sys2Proof
end

