-- ==== Sys2Proof/Laws/State.lean ====
section
/-! SUPPORT. One lemma for each field of the state and each update of `Ops`, and what the reads give after the
updates, so that no later proof unfolds a record update. -/

namespace Sys2Proof.Machine

/-! ### State.setPort -/

@[simp] theorem State.setPort_pending (s : State) (p : Port) (r : PortRec) : (s.setPort p r).pending = s.pending := rfl
@[simp] theorem State.setPort_part (s : State) (p : Port) (r : PortRec) : (s.setPort p r).part = s.part := rfl
@[simp] theorem State.setPort_straps (s : State) (p : Port) (r : PortRec) : (s.setPort p r).straps = s.straps := rfl
@[simp] theorem State.setPort_seconds (s : State) (p : Port) (r : PortRec) : (s.setPort p r).seconds = s.seconds := rfl
@[simp] theorem State.setPort_restarts (s : State) (p : Port) (r : PortRec) : (s.setPort p r).restarts = s.restarts := rfl
@[simp] theorem State.setPort_sid (s : State) (p : Port) (r : PortRec) : (s.setPort p r).sid = s.sid := rfl
@[simp] theorem State.setPort_ports (s : State) (p : Port) (r : PortRec) : (s.setPort p r).ports = vset s.ports p r := rfl
@[simp] theorem State.setPort_cvm (s : State) (p : Port) (r : PortRec) : (s.setPort p r).cvm = s.cvm := rfl
@[simp] theorem State.setPort_idc (s : State) (p : Port) (r : PortRec) : (s.setPort p r).idc = s.idc := rfl
@[simp] theorem State.setPort_stt (s : State) (p : Port) (r : PortRec) : (s.setPort p r).stt = s.stt := rfl
@[simp] theorem State.setPort_links (s : State) (p : Port) (r : PortRec) : (s.setPort p r).links = s.links := rfl
@[simp] theorem State.setPort_rcn (s : State) (p : Port) (r : PortRec) : (s.setPort p r).rcn = s.rcn := rfl
@[simp] theorem State.setPort_fsq (s : State) (p : Port) (r : PortRec) : (s.setPort p r).fsq = s.fsq := rfl
@[simp] theorem State.setPort_ntu (s : State) (p : Port) (r : PortRec) : (s.setPort p r).ntu = s.ntu := rfl
@[simp] theorem State.setPort_ctb (s : State) (p : Port) (r : PortRec) : (s.setPort p r).ctb = s.ctb := rfl
@[simp] theorem State.setPort_mga (s : State) (p : Port) (r : PortRec) : (s.setPort p r).mga = s.mga := rfl
@[simp] theorem State.setPort_flight (s : State) (p : Port) (r : PortRec) : (s.setPort p r).flight = s.flight := rfl
@[simp] theorem State.setPort_wire (s : State) (p : Port) (r : PortRec) : (s.setPort p r).wire = s.wire := rfl
@[simp] theorem State.setPort_freeUse (s : State) (p : Port) (r : PortRec) : (s.setPort p r).freeUse = s.freeUse := rfl

/-! ### State.setLink -/

@[simp] theorem State.setLink_pending (s : State) (l : LinkNo) (r : Link) : (s.setLink l r).pending = s.pending := rfl
@[simp] theorem State.setLink_part (s : State) (l : LinkNo) (r : Link) : (s.setLink l r).part = s.part := rfl
@[simp] theorem State.setLink_straps (s : State) (l : LinkNo) (r : Link) : (s.setLink l r).straps = s.straps := rfl
@[simp] theorem State.setLink_seconds (s : State) (l : LinkNo) (r : Link) : (s.setLink l r).seconds = s.seconds := rfl
@[simp] theorem State.setLink_restarts (s : State) (l : LinkNo) (r : Link) : (s.setLink l r).restarts = s.restarts := rfl
@[simp] theorem State.setLink_sid (s : State) (l : LinkNo) (r : Link) : (s.setLink l r).sid = s.sid := rfl
@[simp] theorem State.setLink_ports (s : State) (l : LinkNo) (r : Link) : (s.setLink l r).ports = s.ports := rfl
@[simp] theorem State.setLink_cvm (s : State) (l : LinkNo) (r : Link) : (s.setLink l r).cvm = s.cvm := rfl
@[simp] theorem State.setLink_idc (s : State) (l : LinkNo) (r : Link) : (s.setLink l r).idc = s.idc := rfl
@[simp] theorem State.setLink_stt (s : State) (l : LinkNo) (r : Link) : (s.setLink l r).stt = s.stt := rfl
@[simp] theorem State.setLink_links (s : State) (l : LinkNo) (r : Link) : (s.setLink l r).links = vset s.links l r := rfl
@[simp] theorem State.setLink_rcn (s : State) (l : LinkNo) (r : Link) : (s.setLink l r).rcn = s.rcn := rfl
@[simp] theorem State.setLink_fsq (s : State) (l : LinkNo) (r : Link) : (s.setLink l r).fsq = s.fsq := rfl
@[simp] theorem State.setLink_ntu (s : State) (l : LinkNo) (r : Link) : (s.setLink l r).ntu = s.ntu := rfl
@[simp] theorem State.setLink_ctb (s : State) (l : LinkNo) (r : Link) : (s.setLink l r).ctb = s.ctb := rfl
@[simp] theorem State.setLink_mga (s : State) (l : LinkNo) (r : Link) : (s.setLink l r).mga = s.mga := rfl
@[simp] theorem State.setLink_flight (s : State) (l : LinkNo) (r : Link) : (s.setLink l r).flight = s.flight := rfl
@[simp] theorem State.setLink_wire (s : State) (l : LinkNo) (r : Link) : (s.setLink l r).wire = s.wire := rfl
@[simp] theorem State.setLink_freeUse (s : State) (l : LinkNo) (r : Link) : (s.setLink l r).freeUse = s.freeUse := rfl

/-! ### State.setCvm -/

@[simp] theorem State.setCvm_pending (s : State) (c : Cvm) : (s.setCvm c).pending = s.pending := rfl
@[simp] theorem State.setCvm_part (s : State) (c : Cvm) : (s.setCvm c).part = s.part := rfl
@[simp] theorem State.setCvm_straps (s : State) (c : Cvm) : (s.setCvm c).straps = s.straps := rfl
@[simp] theorem State.setCvm_seconds (s : State) (c : Cvm) : (s.setCvm c).seconds = s.seconds := rfl
@[simp] theorem State.setCvm_restarts (s : State) (c : Cvm) : (s.setCvm c).restarts = s.restarts := rfl
@[simp] theorem State.setCvm_sid (s : State) (c : Cvm) : (s.setCvm c).sid = s.sid := rfl
@[simp] theorem State.setCvm_ports (s : State) (c : Cvm) : (s.setCvm c).ports = s.ports := rfl
@[simp] theorem State.setCvm_cvm (s : State) (c : Cvm) : (s.setCvm c).cvm = c := rfl
@[simp] theorem State.setCvm_idc (s : State) (c : Cvm) : (s.setCvm c).idc = s.idc := rfl
@[simp] theorem State.setCvm_stt (s : State) (c : Cvm) : (s.setCvm c).stt = s.stt := rfl
@[simp] theorem State.setCvm_links (s : State) (c : Cvm) : (s.setCvm c).links = s.links := rfl
@[simp] theorem State.setCvm_rcn (s : State) (c : Cvm) : (s.setCvm c).rcn = s.rcn := rfl
@[simp] theorem State.setCvm_fsq (s : State) (c : Cvm) : (s.setCvm c).fsq = s.fsq := rfl
@[simp] theorem State.setCvm_ntu (s : State) (c : Cvm) : (s.setCvm c).ntu = s.ntu := rfl
@[simp] theorem State.setCvm_ctb (s : State) (c : Cvm) : (s.setCvm c).ctb = s.ctb := rfl
@[simp] theorem State.setCvm_mga (s : State) (c : Cvm) : (s.setCvm c).mga = s.mga := rfl
@[simp] theorem State.setCvm_flight (s : State) (c : Cvm) : (s.setCvm c).flight = s.flight := rfl
@[simp] theorem State.setCvm_wire (s : State) (c : Cvm) : (s.setCvm c).wire = s.wire := rfl
@[simp] theorem State.setCvm_freeUse (s : State) (c : Cvm) : (s.setCvm c).freeUse = s.freeUse := rfl

/-! ### State.setIdc -/

@[simp] theorem State.setIdc_pending (s : State) (c : Idc) : (s.setIdc c).pending = s.pending := rfl
@[simp] theorem State.setIdc_part (s : State) (c : Idc) : (s.setIdc c).part = s.part := rfl
@[simp] theorem State.setIdc_straps (s : State) (c : Idc) : (s.setIdc c).straps = s.straps := rfl
@[simp] theorem State.setIdc_seconds (s : State) (c : Idc) : (s.setIdc c).seconds = s.seconds := rfl
@[simp] theorem State.setIdc_restarts (s : State) (c : Idc) : (s.setIdc c).restarts = s.restarts := rfl
@[simp] theorem State.setIdc_sid (s : State) (c : Idc) : (s.setIdc c).sid = s.sid := rfl
@[simp] theorem State.setIdc_ports (s : State) (c : Idc) : (s.setIdc c).ports = s.ports := rfl
@[simp] theorem State.setIdc_cvm (s : State) (c : Idc) : (s.setIdc c).cvm = s.cvm := rfl
@[simp] theorem State.setIdc_idc (s : State) (c : Idc) : (s.setIdc c).idc = c := rfl
@[simp] theorem State.setIdc_stt (s : State) (c : Idc) : (s.setIdc c).stt = s.stt := rfl
@[simp] theorem State.setIdc_links (s : State) (c : Idc) : (s.setIdc c).links = s.links := rfl
@[simp] theorem State.setIdc_rcn (s : State) (c : Idc) : (s.setIdc c).rcn = s.rcn := rfl
@[simp] theorem State.setIdc_fsq (s : State) (c : Idc) : (s.setIdc c).fsq = s.fsq := rfl
@[simp] theorem State.setIdc_ntu (s : State) (c : Idc) : (s.setIdc c).ntu = s.ntu := rfl
@[simp] theorem State.setIdc_ctb (s : State) (c : Idc) : (s.setIdc c).ctb = s.ctb := rfl
@[simp] theorem State.setIdc_mga (s : State) (c : Idc) : (s.setIdc c).mga = s.mga := rfl
@[simp] theorem State.setIdc_flight (s : State) (c : Idc) : (s.setIdc c).flight = s.flight := rfl
@[simp] theorem State.setIdc_wire (s : State) (c : Idc) : (s.setIdc c).wire = s.wire := rfl
@[simp] theorem State.setIdc_freeUse (s : State) (c : Idc) : (s.setIdc c).freeUse = s.freeUse := rfl

/-! ### State.setStt -/

@[simp] theorem State.setStt_pending (s : State) (t : Stt) : (s.setStt t).pending = s.pending := rfl
@[simp] theorem State.setStt_part (s : State) (t : Stt) : (s.setStt t).part = s.part := rfl
@[simp] theorem State.setStt_straps (s : State) (t : Stt) : (s.setStt t).straps = s.straps := rfl
@[simp] theorem State.setStt_seconds (s : State) (t : Stt) : (s.setStt t).seconds = s.seconds := rfl
@[simp] theorem State.setStt_restarts (s : State) (t : Stt) : (s.setStt t).restarts = s.restarts := rfl
@[simp] theorem State.setStt_sid (s : State) (t : Stt) : (s.setStt t).sid = s.sid := rfl
@[simp] theorem State.setStt_ports (s : State) (t : Stt) : (s.setStt t).ports = s.ports := rfl
@[simp] theorem State.setStt_cvm (s : State) (t : Stt) : (s.setStt t).cvm = s.cvm := rfl
@[simp] theorem State.setStt_idc (s : State) (t : Stt) : (s.setStt t).idc = s.idc := rfl
@[simp] theorem State.setStt_stt (s : State) (t : Stt) : (s.setStt t).stt = t := rfl
@[simp] theorem State.setStt_links (s : State) (t : Stt) : (s.setStt t).links = s.links := rfl
@[simp] theorem State.setStt_rcn (s : State) (t : Stt) : (s.setStt t).rcn = s.rcn := rfl
@[simp] theorem State.setStt_fsq (s : State) (t : Stt) : (s.setStt t).fsq = s.fsq := rfl
@[simp] theorem State.setStt_ntu (s : State) (t : Stt) : (s.setStt t).ntu = s.ntu := rfl
@[simp] theorem State.setStt_ctb (s : State) (t : Stt) : (s.setStt t).ctb = s.ctb := rfl
@[simp] theorem State.setStt_mga (s : State) (t : Stt) : (s.setStt t).mga = s.mga := rfl
@[simp] theorem State.setStt_flight (s : State) (t : Stt) : (s.setStt t).flight = s.flight := rfl
@[simp] theorem State.setStt_wire (s : State) (t : Stt) : (s.setStt t).wire = s.wire := rfl
@[simp] theorem State.setStt_freeUse (s : State) (t : Stt) : (s.setStt t).freeUse = s.freeUse := rfl

/-! ### State.setRcn -/

@[simp] theorem State.setRcn_pending (s : State) (r : Rcn) : (s.setRcn r).pending = s.pending := rfl
@[simp] theorem State.setRcn_part (s : State) (r : Rcn) : (s.setRcn r).part = s.part := rfl
@[simp] theorem State.setRcn_straps (s : State) (r : Rcn) : (s.setRcn r).straps = s.straps := rfl
@[simp] theorem State.setRcn_seconds (s : State) (r : Rcn) : (s.setRcn r).seconds = s.seconds := rfl
@[simp] theorem State.setRcn_restarts (s : State) (r : Rcn) : (s.setRcn r).restarts = s.restarts := rfl
@[simp] theorem State.setRcn_sid (s : State) (r : Rcn) : (s.setRcn r).sid = s.sid := rfl
@[simp] theorem State.setRcn_ports (s : State) (r : Rcn) : (s.setRcn r).ports = s.ports := rfl
@[simp] theorem State.setRcn_cvm (s : State) (r : Rcn) : (s.setRcn r).cvm = s.cvm := rfl
@[simp] theorem State.setRcn_idc (s : State) (r : Rcn) : (s.setRcn r).idc = s.idc := rfl
@[simp] theorem State.setRcn_stt (s : State) (r : Rcn) : (s.setRcn r).stt = s.stt := rfl
@[simp] theorem State.setRcn_links (s : State) (r : Rcn) : (s.setRcn r).links = s.links := rfl
@[simp] theorem State.setRcn_rcn (s : State) (r : Rcn) : (s.setRcn r).rcn = r := rfl
@[simp] theorem State.setRcn_fsq (s : State) (r : Rcn) : (s.setRcn r).fsq = s.fsq := rfl
@[simp] theorem State.setRcn_ntu (s : State) (r : Rcn) : (s.setRcn r).ntu = s.ntu := rfl
@[simp] theorem State.setRcn_ctb (s : State) (r : Rcn) : (s.setRcn r).ctb = s.ctb := rfl
@[simp] theorem State.setRcn_mga (s : State) (r : Rcn) : (s.setRcn r).mga = s.mga := rfl
@[simp] theorem State.setRcn_flight (s : State) (r : Rcn) : (s.setRcn r).flight = s.flight := rfl
@[simp] theorem State.setRcn_wire (s : State) (r : Rcn) : (s.setRcn r).wire = s.wire := rfl
@[simp] theorem State.setRcn_freeUse (s : State) (r : Rcn) : (s.setRcn r).freeUse = s.freeUse := rfl

/-! ### State.setFsq -/

@[simp] theorem State.setFsq_pending (s : State) (f : Fsq) : (s.setFsq f).pending = s.pending := rfl
@[simp] theorem State.setFsq_part (s : State) (f : Fsq) : (s.setFsq f).part = s.part := rfl
@[simp] theorem State.setFsq_straps (s : State) (f : Fsq) : (s.setFsq f).straps = s.straps := rfl
@[simp] theorem State.setFsq_seconds (s : State) (f : Fsq) : (s.setFsq f).seconds = s.seconds := rfl
@[simp] theorem State.setFsq_restarts (s : State) (f : Fsq) : (s.setFsq f).restarts = s.restarts := rfl
@[simp] theorem State.setFsq_sid (s : State) (f : Fsq) : (s.setFsq f).sid = s.sid := rfl
@[simp] theorem State.setFsq_ports (s : State) (f : Fsq) : (s.setFsq f).ports = s.ports := rfl
@[simp] theorem State.setFsq_cvm (s : State) (f : Fsq) : (s.setFsq f).cvm = s.cvm := rfl
@[simp] theorem State.setFsq_idc (s : State) (f : Fsq) : (s.setFsq f).idc = s.idc := rfl
@[simp] theorem State.setFsq_stt (s : State) (f : Fsq) : (s.setFsq f).stt = s.stt := rfl
@[simp] theorem State.setFsq_links (s : State) (f : Fsq) : (s.setFsq f).links = s.links := rfl
@[simp] theorem State.setFsq_rcn (s : State) (f : Fsq) : (s.setFsq f).rcn = s.rcn := rfl
@[simp] theorem State.setFsq_fsq (s : State) (f : Fsq) : (s.setFsq f).fsq = f := rfl
@[simp] theorem State.setFsq_ntu (s : State) (f : Fsq) : (s.setFsq f).ntu = s.ntu := rfl
@[simp] theorem State.setFsq_ctb (s : State) (f : Fsq) : (s.setFsq f).ctb = s.ctb := rfl
@[simp] theorem State.setFsq_mga (s : State) (f : Fsq) : (s.setFsq f).mga = s.mga := rfl
@[simp] theorem State.setFsq_flight (s : State) (f : Fsq) : (s.setFsq f).flight = s.flight := rfl
@[simp] theorem State.setFsq_wire (s : State) (f : Fsq) : (s.setFsq f).wire = s.wire := rfl
@[simp] theorem State.setFsq_freeUse (s : State) (f : Fsq) : (s.setFsq f).freeUse = s.freeUse := rfl

/-! ### State.setNtu -/

@[simp] theorem State.setNtu_pending (s : State) (n : Ntu) : (s.setNtu n).pending = s.pending := rfl
@[simp] theorem State.setNtu_part (s : State) (n : Ntu) : (s.setNtu n).part = s.part := rfl
@[simp] theorem State.setNtu_straps (s : State) (n : Ntu) : (s.setNtu n).straps = s.straps := rfl
@[simp] theorem State.setNtu_seconds (s : State) (n : Ntu) : (s.setNtu n).seconds = s.seconds := rfl
@[simp] theorem State.setNtu_restarts (s : State) (n : Ntu) : (s.setNtu n).restarts = s.restarts := rfl
@[simp] theorem State.setNtu_sid (s : State) (n : Ntu) : (s.setNtu n).sid = s.sid := rfl
@[simp] theorem State.setNtu_ports (s : State) (n : Ntu) : (s.setNtu n).ports = s.ports := rfl
@[simp] theorem State.setNtu_cvm (s : State) (n : Ntu) : (s.setNtu n).cvm = s.cvm := rfl
@[simp] theorem State.setNtu_idc (s : State) (n : Ntu) : (s.setNtu n).idc = s.idc := rfl
@[simp] theorem State.setNtu_stt (s : State) (n : Ntu) : (s.setNtu n).stt = s.stt := rfl
@[simp] theorem State.setNtu_links (s : State) (n : Ntu) : (s.setNtu n).links = s.links := rfl
@[simp] theorem State.setNtu_rcn (s : State) (n : Ntu) : (s.setNtu n).rcn = s.rcn := rfl
@[simp] theorem State.setNtu_fsq (s : State) (n : Ntu) : (s.setNtu n).fsq = s.fsq := rfl
@[simp] theorem State.setNtu_ntu (s : State) (n : Ntu) : (s.setNtu n).ntu = n := rfl
@[simp] theorem State.setNtu_ctb (s : State) (n : Ntu) : (s.setNtu n).ctb = s.ctb := rfl
@[simp] theorem State.setNtu_mga (s : State) (n : Ntu) : (s.setNtu n).mga = s.mga := rfl
@[simp] theorem State.setNtu_flight (s : State) (n : Ntu) : (s.setNtu n).flight = s.flight := rfl
@[simp] theorem State.setNtu_wire (s : State) (n : Ntu) : (s.setNtu n).wire = s.wire := rfl
@[simp] theorem State.setNtu_freeUse (s : State) (n : Ntu) : (s.setNtu n).freeUse = s.freeUse := rfl

/-! ### State.setCtb -/

@[simp] theorem State.setCtb_pending (s : State) (c : Ctb) : (s.setCtb c).pending = s.pending := rfl
@[simp] theorem State.setCtb_part (s : State) (c : Ctb) : (s.setCtb c).part = s.part := rfl
@[simp] theorem State.setCtb_straps (s : State) (c : Ctb) : (s.setCtb c).straps = s.straps := rfl
@[simp] theorem State.setCtb_seconds (s : State) (c : Ctb) : (s.setCtb c).seconds = s.seconds := rfl
@[simp] theorem State.setCtb_restarts (s : State) (c : Ctb) : (s.setCtb c).restarts = s.restarts := rfl
@[simp] theorem State.setCtb_sid (s : State) (c : Ctb) : (s.setCtb c).sid = s.sid := rfl
@[simp] theorem State.setCtb_ports (s : State) (c : Ctb) : (s.setCtb c).ports = s.ports := rfl
@[simp] theorem State.setCtb_cvm (s : State) (c : Ctb) : (s.setCtb c).cvm = s.cvm := rfl
@[simp] theorem State.setCtb_idc (s : State) (c : Ctb) : (s.setCtb c).idc = s.idc := rfl
@[simp] theorem State.setCtb_stt (s : State) (c : Ctb) : (s.setCtb c).stt = s.stt := rfl
@[simp] theorem State.setCtb_links (s : State) (c : Ctb) : (s.setCtb c).links = s.links := rfl
@[simp] theorem State.setCtb_rcn (s : State) (c : Ctb) : (s.setCtb c).rcn = s.rcn := rfl
@[simp] theorem State.setCtb_fsq (s : State) (c : Ctb) : (s.setCtb c).fsq = s.fsq := rfl
@[simp] theorem State.setCtb_ntu (s : State) (c : Ctb) : (s.setCtb c).ntu = s.ntu := rfl
@[simp] theorem State.setCtb_ctb (s : State) (c : Ctb) : (s.setCtb c).ctb = c := rfl
@[simp] theorem State.setCtb_mga (s : State) (c : Ctb) : (s.setCtb c).mga = s.mga := rfl
@[simp] theorem State.setCtb_flight (s : State) (c : Ctb) : (s.setCtb c).flight = s.flight := rfl
@[simp] theorem State.setCtb_wire (s : State) (c : Ctb) : (s.setCtb c).wire = s.wire := rfl
@[simp] theorem State.setCtb_freeUse (s : State) (c : Ctb) : (s.setCtb c).freeUse = s.freeUse := rfl

/-! ### State.setMga -/

@[simp] theorem State.setMga_pending (s : State) (m : Mga) : (s.setMga m).pending = s.pending := rfl
@[simp] theorem State.setMga_part (s : State) (m : Mga) : (s.setMga m).part = s.part := rfl
@[simp] theorem State.setMga_straps (s : State) (m : Mga) : (s.setMga m).straps = s.straps := rfl
@[simp] theorem State.setMga_seconds (s : State) (m : Mga) : (s.setMga m).seconds = s.seconds := rfl
@[simp] theorem State.setMga_restarts (s : State) (m : Mga) : (s.setMga m).restarts = s.restarts := rfl
@[simp] theorem State.setMga_sid (s : State) (m : Mga) : (s.setMga m).sid = s.sid := rfl
@[simp] theorem State.setMga_ports (s : State) (m : Mga) : (s.setMga m).ports = s.ports := rfl
@[simp] theorem State.setMga_cvm (s : State) (m : Mga) : (s.setMga m).cvm = s.cvm := rfl
@[simp] theorem State.setMga_idc (s : State) (m : Mga) : (s.setMga m).idc = s.idc := rfl
@[simp] theorem State.setMga_stt (s : State) (m : Mga) : (s.setMga m).stt = s.stt := rfl
@[simp] theorem State.setMga_links (s : State) (m : Mga) : (s.setMga m).links = s.links := rfl
@[simp] theorem State.setMga_rcn (s : State) (m : Mga) : (s.setMga m).rcn = s.rcn := rfl
@[simp] theorem State.setMga_fsq (s : State) (m : Mga) : (s.setMga m).fsq = s.fsq := rfl
@[simp] theorem State.setMga_ntu (s : State) (m : Mga) : (s.setMga m).ntu = s.ntu := rfl
@[simp] theorem State.setMga_ctb (s : State) (m : Mga) : (s.setMga m).ctb = s.ctb := rfl
@[simp] theorem State.setMga_mga (s : State) (m : Mga) : (s.setMga m).mga = m := rfl
@[simp] theorem State.setMga_flight (s : State) (m : Mga) : (s.setMga m).flight = s.flight := rfl
@[simp] theorem State.setMga_wire (s : State) (m : Mga) : (s.setMga m).wire = s.wire := rfl
@[simp] theorem State.setMga_freeUse (s : State) (m : Mga) : (s.setMga m).freeUse = s.freeUse := rfl

/-! ### State.setFlight -/

@[simp] theorem State.setFlight_pending (s : State) (f : Flight) : (s.setFlight f).pending = s.pending := rfl
@[simp] theorem State.setFlight_part (s : State) (f : Flight) : (s.setFlight f).part = s.part := rfl
@[simp] theorem State.setFlight_straps (s : State) (f : Flight) : (s.setFlight f).straps = s.straps := rfl
@[simp] theorem State.setFlight_seconds (s : State) (f : Flight) : (s.setFlight f).seconds = s.seconds := rfl
@[simp] theorem State.setFlight_restarts (s : State) (f : Flight) : (s.setFlight f).restarts = s.restarts := rfl
@[simp] theorem State.setFlight_sid (s : State) (f : Flight) : (s.setFlight f).sid = s.sid := rfl
@[simp] theorem State.setFlight_ports (s : State) (f : Flight) : (s.setFlight f).ports = s.ports := rfl
@[simp] theorem State.setFlight_cvm (s : State) (f : Flight) : (s.setFlight f).cvm = s.cvm := rfl
@[simp] theorem State.setFlight_idc (s : State) (f : Flight) : (s.setFlight f).idc = s.idc := rfl
@[simp] theorem State.setFlight_stt (s : State) (f : Flight) : (s.setFlight f).stt = s.stt := rfl
@[simp] theorem State.setFlight_links (s : State) (f : Flight) : (s.setFlight f).links = s.links := rfl
@[simp] theorem State.setFlight_rcn (s : State) (f : Flight) : (s.setFlight f).rcn = s.rcn := rfl
@[simp] theorem State.setFlight_fsq (s : State) (f : Flight) : (s.setFlight f).fsq = s.fsq := rfl
@[simp] theorem State.setFlight_ntu (s : State) (f : Flight) : (s.setFlight f).ntu = s.ntu := rfl
@[simp] theorem State.setFlight_ctb (s : State) (f : Flight) : (s.setFlight f).ctb = s.ctb := rfl
@[simp] theorem State.setFlight_mga (s : State) (f : Flight) : (s.setFlight f).mga = s.mga := rfl
@[simp] theorem State.setFlight_flight (s : State) (f : Flight) : (s.setFlight f).flight = f := rfl
@[simp] theorem State.setFlight_wire (s : State) (f : Flight) : (s.setFlight f).wire = s.wire := rfl
@[simp] theorem State.setFlight_freeUse (s : State) (f : Flight) : (s.setFlight f).freeUse = s.freeUse := rfl

/-! ### State.setBucket -/

@[simp] theorem State.setBucket_pending (s : State) (b : BucketNo) (x : Bucket) : (s.setBucket b x).pending = s.pending := rfl
@[simp] theorem State.setBucket_part (s : State) (b : BucketNo) (x : Bucket) : (s.setBucket b x).part = s.part := rfl
@[simp] theorem State.setBucket_straps (s : State) (b : BucketNo) (x : Bucket) : (s.setBucket b x).straps = s.straps := rfl
@[simp] theorem State.setBucket_seconds (s : State) (b : BucketNo) (x : Bucket) : (s.setBucket b x).seconds = s.seconds := rfl
@[simp] theorem State.setBucket_restarts (s : State) (b : BucketNo) (x : Bucket) : (s.setBucket b x).restarts = s.restarts := rfl
@[simp] theorem State.setBucket_sid (s : State) (b : BucketNo) (x : Bucket) : (s.setBucket b x).sid = s.sid := rfl
@[simp] theorem State.setBucket_ports (s : State) (b : BucketNo) (x : Bucket) : (s.setBucket b x).ports = s.ports := rfl
@[simp] theorem State.setBucket_cvm (s : State) (b : BucketNo) (x : Bucket) : (s.setBucket b x).cvm = s.cvm := rfl
@[simp] theorem State.setBucket_idc (s : State) (b : BucketNo) (x : Bucket) : (s.setBucket b x).idc = s.idc := rfl
@[simp] theorem State.setBucket_stt (s : State) (b : BucketNo) (x : Bucket) : (s.setBucket b x).stt = s.stt := rfl
@[simp] theorem State.setBucket_links (s : State) (b : BucketNo) (x : Bucket) : (s.setBucket b x).links = s.links := rfl
@[simp] theorem State.setBucket_rcn (s : State) (b : BucketNo) (x : Bucket) : (s.setBucket b x).rcn = s.rcn := rfl
@[simp] theorem State.setBucket_fsq (s : State) (b : BucketNo) (x : Bucket) : (s.setBucket b x).fsq = { s.fsq with buckets := vset s.fsq.buckets b x } := rfl
@[simp] theorem State.setBucket_ntu (s : State) (b : BucketNo) (x : Bucket) : (s.setBucket b x).ntu = s.ntu := rfl
@[simp] theorem State.setBucket_ctb (s : State) (b : BucketNo) (x : Bucket) : (s.setBucket b x).ctb = s.ctb := rfl
@[simp] theorem State.setBucket_mga (s : State) (b : BucketNo) (x : Bucket) : (s.setBucket b x).mga = s.mga := rfl
@[simp] theorem State.setBucket_flight (s : State) (b : BucketNo) (x : Bucket) : (s.setBucket b x).flight = s.flight := rfl
@[simp] theorem State.setBucket_wire (s : State) (b : BucketNo) (x : Bucket) : (s.setBucket b x).wire = s.wire := rfl
@[simp] theorem State.setBucket_freeUse (s : State) (b : BucketNo) (x : Bucket) : (s.setBucket b x).freeUse = s.freeUse := rfl

/-! ### State.setQueues -/

@[simp] theorem State.setQueues_pending (s : State) (p : Port) (q : PortQueues) : (s.setQueues p q).pending = s.pending := rfl
@[simp] theorem State.setQueues_part (s : State) (p : Port) (q : PortQueues) : (s.setQueues p q).part = s.part := rfl
@[simp] theorem State.setQueues_straps (s : State) (p : Port) (q : PortQueues) : (s.setQueues p q).straps = s.straps := rfl
@[simp] theorem State.setQueues_seconds (s : State) (p : Port) (q : PortQueues) : (s.setQueues p q).seconds = s.seconds := rfl
@[simp] theorem State.setQueues_restarts (s : State) (p : Port) (q : PortQueues) : (s.setQueues p q).restarts = s.restarts := rfl
@[simp] theorem State.setQueues_sid (s : State) (p : Port) (q : PortQueues) : (s.setQueues p q).sid = s.sid := rfl
@[simp] theorem State.setQueues_ports (s : State) (p : Port) (q : PortQueues) : (s.setQueues p q).ports = s.ports := rfl
@[simp] theorem State.setQueues_cvm (s : State) (p : Port) (q : PortQueues) : (s.setQueues p q).cvm = s.cvm := rfl
@[simp] theorem State.setQueues_idc (s : State) (p : Port) (q : PortQueues) : (s.setQueues p q).idc = s.idc := rfl
@[simp] theorem State.setQueues_stt (s : State) (p : Port) (q : PortQueues) : (s.setQueues p q).stt = s.stt := rfl
@[simp] theorem State.setQueues_links (s : State) (p : Port) (q : PortQueues) : (s.setQueues p q).links = s.links := rfl
@[simp] theorem State.setQueues_rcn (s : State) (p : Port) (q : PortQueues) : (s.setQueues p q).rcn = s.rcn := rfl
@[simp] theorem State.setQueues_fsq (s : State) (p : Port) (q : PortQueues) : (s.setQueues p q).fsq = { s.fsq with ports := vset s.fsq.ports p q } := rfl
@[simp] theorem State.setQueues_ntu (s : State) (p : Port) (q : PortQueues) : (s.setQueues p q).ntu = s.ntu := rfl
@[simp] theorem State.setQueues_ctb (s : State) (p : Port) (q : PortQueues) : (s.setQueues p q).ctb = s.ctb := rfl
@[simp] theorem State.setQueues_mga (s : State) (p : Port) (q : PortQueues) : (s.setQueues p q).mga = s.mga := rfl
@[simp] theorem State.setQueues_flight (s : State) (p : Port) (q : PortQueues) : (s.setQueues p q).flight = s.flight := rfl
@[simp] theorem State.setQueues_wire (s : State) (p : Port) (q : PortQueues) : (s.setQueues p q).wire = s.wire := rfl
@[simp] theorem State.setQueues_freeUse (s : State) (p : Port) (q : PortQueues) : (s.setQueues p q).freeUse = s.freeUse := rfl

/-! ### State.setSource -/

@[simp] theorem State.setSource_pending (s : State) (k : SourceNo) (x : Source) : (s.setSource k x).pending = s.pending := rfl
@[simp] theorem State.setSource_part (s : State) (k : SourceNo) (x : Source) : (s.setSource k x).part = s.part := rfl
@[simp] theorem State.setSource_straps (s : State) (k : SourceNo) (x : Source) : (s.setSource k x).straps = s.straps := rfl
@[simp] theorem State.setSource_seconds (s : State) (k : SourceNo) (x : Source) : (s.setSource k x).seconds = s.seconds := rfl
@[simp] theorem State.setSource_restarts (s : State) (k : SourceNo) (x : Source) : (s.setSource k x).restarts = s.restarts := rfl
@[simp] theorem State.setSource_sid (s : State) (k : SourceNo) (x : Source) : (s.setSource k x).sid = s.sid := rfl
@[simp] theorem State.setSource_ports (s : State) (k : SourceNo) (x : Source) : (s.setSource k x).ports = s.ports := rfl
@[simp] theorem State.setSource_cvm (s : State) (k : SourceNo) (x : Source) : (s.setSource k x).cvm = s.cvm := rfl
@[simp] theorem State.setSource_idc (s : State) (k : SourceNo) (x : Source) : (s.setSource k x).idc = s.idc := rfl
@[simp] theorem State.setSource_stt (s : State) (k : SourceNo) (x : Source) : (s.setSource k x).stt = s.stt := rfl
@[simp] theorem State.setSource_links (s : State) (k : SourceNo) (x : Source) : (s.setSource k x).links = s.links := rfl
@[simp] theorem State.setSource_rcn (s : State) (k : SourceNo) (x : Source) : (s.setSource k x).rcn = s.rcn := rfl
@[simp] theorem State.setSource_fsq (s : State) (k : SourceNo) (x : Source) : (s.setSource k x).fsq = s.fsq := rfl
@[simp] theorem State.setSource_ntu (s : State) (k : SourceNo) (x : Source) : (s.setSource k x).ntu = { s.ntu with sources := vset s.ntu.sources k x } := rfl
@[simp] theorem State.setSource_ctb (s : State) (k : SourceNo) (x : Source) : (s.setSource k x).ctb = s.ctb := rfl
@[simp] theorem State.setSource_mga (s : State) (k : SourceNo) (x : Source) : (s.setSource k x).mga = s.mga := rfl
@[simp] theorem State.setSource_flight (s : State) (k : SourceNo) (x : Source) : (s.setSource k x).flight = s.flight := rfl
@[simp] theorem State.setSource_wire (s : State) (k : SourceNo) (x : Source) : (s.setSource k x).wire = s.wire := rfl
@[simp] theorem State.setSource_freeUse (s : State) (k : SourceNo) (x : Source) : (s.setSource k x).freeUse = s.freeUse := rfl

/-! ### State.setCounter -/

@[simp] theorem State.setCounter_pending (s : State) (p : Port) (c : Fin 12) (x : Counter) : (s.setCounter p c x).pending = s.pending := rfl
@[simp] theorem State.setCounter_part (s : State) (p : Port) (c : Fin 12) (x : Counter) : (s.setCounter p c x).part = s.part := rfl
@[simp] theorem State.setCounter_straps (s : State) (p : Port) (c : Fin 12) (x : Counter) : (s.setCounter p c x).straps = s.straps := rfl
@[simp] theorem State.setCounter_seconds (s : State) (p : Port) (c : Fin 12) (x : Counter) : (s.setCounter p c x).seconds = s.seconds := rfl
@[simp] theorem State.setCounter_restarts (s : State) (p : Port) (c : Fin 12) (x : Counter) : (s.setCounter p c x).restarts = s.restarts := rfl
@[simp] theorem State.setCounter_sid (s : State) (p : Port) (c : Fin 12) (x : Counter) : (s.setCounter p c x).sid = s.sid := rfl
@[simp] theorem State.setCounter_ports (s : State) (p : Port) (c : Fin 12) (x : Counter) : (s.setCounter p c x).ports = s.ports := rfl
@[simp] theorem State.setCounter_cvm (s : State) (p : Port) (c : Fin 12) (x : Counter) : (s.setCounter p c x).cvm = s.cvm := rfl
@[simp] theorem State.setCounter_idc (s : State) (p : Port) (c : Fin 12) (x : Counter) : (s.setCounter p c x).idc = s.idc := rfl
@[simp] theorem State.setCounter_stt (s : State) (p : Port) (c : Fin 12) (x : Counter) : (s.setCounter p c x).stt = s.stt := rfl
@[simp] theorem State.setCounter_links (s : State) (p : Port) (c : Fin 12) (x : Counter) : (s.setCounter p c x).links = s.links := rfl
@[simp] theorem State.setCounter_rcn (s : State) (p : Port) (c : Fin 12) (x : Counter) : (s.setCounter p c x).rcn = s.rcn := rfl
@[simp] theorem State.setCounter_fsq (s : State) (p : Port) (c : Fin 12) (x : Counter) : (s.setCounter p c x).fsq = s.fsq := rfl
@[simp] theorem State.setCounter_ntu (s : State) (p : Port) (c : Fin 12) (x : Counter) : (s.setCounter p c x).ntu = s.ntu := rfl
@[simp] theorem State.setCounter_ctb (s : State) (p : Port) (c : Fin 12) (x : Counter) : (s.setCounter p c x).ctb = { s.ctb with ports := vset s.ctb.ports p (vset (s.ctb.ports.get p) c x) } := rfl
@[simp] theorem State.setCounter_mga (s : State) (p : Port) (c : Fin 12) (x : Counter) : (s.setCounter p c x).mga = s.mga := rfl
@[simp] theorem State.setCounter_flight (s : State) (p : Port) (c : Fin 12) (x : Counter) : (s.setCounter p c x).flight = s.flight := rfl
@[simp] theorem State.setCounter_wire (s : State) (p : Port) (c : Fin 12) (x : Counter) : (s.setCounter p c x).wire = s.wire := rfl
@[simp] theorem State.setCounter_freeUse (s : State) (p : Port) (c : Fin 12) (x : Counter) : (s.setCounter p c x).freeUse = s.freeUse := rfl

/-! ### Rows of records -/

theorem vset_get {α : Type} {n : Nat} (v : Vector α n) (i j : Fin n) (x : α) :
    (vset v i x).get j = if j = i then x else v.get j := by
  have h : (vset v i x).get j = (vset v i x)[j.val] := rfl
  rw [h, vset, Vector.getElem_set]
  by_cases e : j = i
  · subst e; simp
  · rw [if_neg e, if_neg (fun c => e (Fin.ext c.symm))]; rfl

@[simp] theorem vset_get_self {α : Type} {n : Nat} (v : Vector α n) (i : Fin n) (x : α) :
    (vset v i x).get i = x := by rw [vset_get, if_pos rfl]

theorem vset_get_of_ne {α : Type} {n : Nat} (v : Vector α n) {i j : Fin n} (x : α) (h : j ≠ i) :
    (vset v i x).get j = v.get j := by rw [vset_get, if_neg h]

/-! ### Reads after updates -/

theorem State.port_setPort (s : State) (p q : Port) (r : PortRec) :
    (s.setPort p r).port q = if q = p then r else s.port q := vset_get ..

theorem State.link_setLink (s : State) (l m : LinkNo) (r : Link) :
    (s.setLink l r).link m = if m = l then r else s.link m := vset_get ..

theorem State.bucket_setBucket (s : State) (b c : BucketNo) (x : Bucket) :
    (s.setBucket b x).bucket c = if c = b then x else s.bucket c := vset_get ..

theorem State.queues_setQueues (s : State) (p q : Port) (x : PortQueues) :
    (s.setQueues p x).queues q = if q = p then x else s.queues q := vset_get ..

theorem State.source_setSource (s : State) (k m : SourceNo) (x : Source) :
    (s.setSource k x).source m = if m = k then x else s.source m := vset_get ..

@[simp] theorem State.port_setPort_self (s : State) (p : Port) (r : PortRec) : (s.setPort p r).port p = r :=
  vset_get_self ..

@[simp] theorem State.link_setLink_self (s : State) (l : LinkNo) (r : Link) : (s.setLink l r).link l = r :=
  vset_get_self ..

@[simp] theorem State.bucket_setBucket_self (s : State) (b : BucketNo) (x : Bucket) :
    (s.setBucket b x).bucket b = x := vset_get_self ..

@[simp] theorem State.queues_setQueues_self (s : State) (p : Port) (x : PortQueues) :
    (s.setQueues p x).queues p = x := vset_get_self ..

@[simp] theorem State.source_setSource_self (s : State) (k : SourceNo) (x : Source) :
    (s.setSource k x).source k = x := vset_get_self ..

theorem State.source_setSource_of_ne (s : State) {k m : SourceNo} (x : Source) (h : m ≠ k) :
    (s.setSource k x).source m = s.source m := by rw [State.source_setSource, if_neg h]

theorem State.link_setLink_of_ne (s : State) {l m : LinkNo} (r : Link) (h : m ≠ l) :
    (s.setLink l r).link m = s.link m := by rw [State.link_setLink, if_neg h]

theorem State.bucket_setBucket_of_ne (s : State) {b c : BucketNo} (x : Bucket) (h : c ≠ b) :
    (s.setBucket b x).bucket c = s.bucket c := by rw [State.bucket_setBucket, if_neg h]

theorem State.queues_setQueues_of_ne (s : State) {p q : Port} (x : PortQueues) (h : q ≠ p) :
    (s.setQueues p x).queues q = s.queues q := by rw [State.queues_setQueues, if_neg h]

theorem State.counter_setCounter (s : State) (p q : Port) (c k : Fin 12) (x : Counter) :
    (s.setCounter p c x).counter q k = if q = p ∧ k = c then x else s.counter q k := by
  have h : (s.setCounter p c x).counter q k = ((vset s.ctb.ports p (vset (s.ctb.ports.get p) c x)).get q).get k :=
    rfl
  rw [h, vset_get]
  by_cases e : q = p
  · subst e
    rw [if_pos rfl, vset_get]
    by_cases f : k = c
    · rw [if_pos f, if_pos ⟨rfl, f⟩]
    · rw [if_neg f, if_neg (fun g => f g.2)]; rfl
  · rw [if_neg e, if_neg (fun g => e g.1)]; rfl

end Sys2Proof.Machine
end

