-- ==== Sys2Proof/Laws/Frames.lean ====
section
/-! SUPPORT. What each shared operation can touch: two states agree outside a list of fields of the state. One
lemma for each operation names the fields that the operation may change; everything else is as before. -/

set_option Elab.async false

namespace Sys2Proof.Machine

/-- The fields of the state, by name. -/
inductive Field where
  | pending | part | straps | seconds | restarts | sid | ports | cvm | idc | stt | links | rcn | fsq | ntu | ctb
  | mga | flight | wire | freeUse
  deriving DecidableEq, Repr

/-- Two states hold the same value in a field. -/
def Field.same : Field → State → State → Prop
  | .pending, s, t => t.pending = s.pending
  | .part, s, t => t.part = s.part
  | .straps, s, t => t.straps = s.straps
  | .seconds, s, t => t.seconds = s.seconds
  | .restarts, s, t => t.restarts = s.restarts
  | .sid, s, t => t.sid = s.sid
  | .ports, s, t => t.ports = s.ports
  | .cvm, s, t => t.cvm = s.cvm
  | .idc, s, t => t.idc = s.idc
  | .stt, s, t => t.stt = s.stt
  | .links, s, t => t.links = s.links
  | .rcn, s, t => t.rcn = s.rcn
  | .fsq, s, t => t.fsq = s.fsq
  | .ntu, s, t => t.ntu = s.ntu
  | .ctb, s, t => t.ctb = s.ctb
  | .mga, s, t => t.mga = s.mga
  | .flight, s, t => t.flight = s.flight
  | .wire, s, t => t.wire = s.wire
  | .freeUse, s, t => t.freeUse = s.freeUse

/-- Two states hold the same values in every field that is not listed. -/
structure Agrees (touched : List Field) (s t : State) : Prop where
  same : ∀ f, f ∉ touched → f.same s t

theorem Field.same_refl (f : Field) (s : State) : f.same s s := by cases f <;> rfl

theorem Field.same_trans {f : Field} {s t u : State} (h : f.same s t) (g : f.same t u) : f.same s u := by
  cases f <;> exact Eq.trans g h

theorem Agrees.refl (c : List Field) (s : State) : Agrees c s s := ⟨fun f _ => f.same_refl s⟩

theorem Agrees.mono {a c : List Field} {s t : State} (h : Agrees a s t) (ac : a ⊆ c) : Agrees c s t :=
  ⟨fun f hf => h.same f (fun m => hf (ac m))⟩

/-- A chain of operations touches what its links touch. -/
theorem Agrees.step {a c : List Field} {s t u : State} (h : Agrees c s t) (g : Agrees a t u)
    (ac : a ⊆ c := by decide) : Agrees c s u :=
  ⟨fun f hf => Field.same_trans (h.same f hf) ((g.mono ac).same f hf)⟩

theorem Agrees.foldl {α : Type} {c : List Field} {f : State → α → State} (hf : ∀ s x, Agrees c s (f s x))
    (l : List α) (s : State) : Agrees c s (l.foldl f s) := by
  induction l generalizing s with
  | nil => exact .refl c s
  | cons x r ih => exact (hf s x).step (ih (f s x)) (fun _ h => h)

/-- What counting and reporting may touch: the notice unit, the counters, and the enqueues in flight. -/
abbrev Field.reports : List Field := [.ntu, .ctb, .flight]

/-- What a soft restart may touch. -/
abbrev Field.restart : List Field := [.part, .restarts, .cvm, .stt, .links, .rcn, .fsq, .ntu, .ctb, .mga, .flight]

/-! ### Ops -/

theorem setPort_agrees (p : Port) (r : PortRec) (s : State) : Agrees [.ports] s (s.setPort p r) := by
  refine ⟨?_⟩; intro f hf; cases f <;> first | rfl | exact absurd (by decide) hf

theorem setLink_agrees (l : LinkNo) (r : Link) (s : State) : Agrees [.links] s (s.setLink l r) := by
  refine ⟨?_⟩; intro f hf; cases f <;> first | rfl | exact absurd (by decide) hf

theorem setCvm_agrees (c : Cvm) (s : State) : Agrees [.cvm] s (s.setCvm c) := by
  refine ⟨?_⟩; intro f hf; cases f <;> first | rfl | exact absurd (by decide) hf

theorem setIdc_agrees (c : Idc) (s : State) : Agrees [.idc] s (s.setIdc c) := by
  refine ⟨?_⟩; intro f hf; cases f <;> first | rfl | exact absurd (by decide) hf

theorem setStt_agrees (t : Stt) (s : State) : Agrees [.stt] s (s.setStt t) := by
  refine ⟨?_⟩; intro f hf; cases f <;> first | rfl | exact absurd (by decide) hf

theorem setRcn_agrees (r : Rcn) (s : State) : Agrees [.rcn] s (s.setRcn r) := by
  refine ⟨?_⟩; intro f hf; cases f <;> first | rfl | exact absurd (by decide) hf

theorem setFsq_agrees (x : Fsq) (s : State) : Agrees [.fsq] s (s.setFsq x) := by
  refine ⟨?_⟩; intro f hf; cases f <;> first | rfl | exact absurd (by decide) hf

theorem setNtu_agrees (n : Ntu) (s : State) : Agrees [.ntu] s (s.setNtu n) := by
  refine ⟨?_⟩; intro f hf; cases f <;> first | rfl | exact absurd (by decide) hf

theorem setCtb_agrees (c : Ctb) (s : State) : Agrees [.ctb] s (s.setCtb c) := by
  refine ⟨?_⟩; intro f hf; cases f <;> first | rfl | exact absurd (by decide) hf

theorem setMga_agrees (m : Mga) (s : State) : Agrees [.mga] s (s.setMga m) := by
  refine ⟨?_⟩; intro f hf; cases f <;> first | rfl | exact absurd (by decide) hf

theorem setFlight_agrees (x : Flight) (s : State) : Agrees [.flight] s (s.setFlight x) := by
  refine ⟨?_⟩; intro f hf; cases f <;> first | rfl | exact absurd (by decide) hf

theorem setBucket_agrees (b : BucketNo) (x : Bucket) (s : State) : Agrees [.fsq] s (s.setBucket b x) :=
  setFsq_agrees _ s

theorem setQueues_agrees (p : Port) (x : PortQueues) (s : State) : Agrees [.fsq] s (s.setQueues p x) :=
  setFsq_agrees _ s

theorem setSource_agrees (k : SourceNo) (x : Source) (s : State) : Agrees [.ntu] s (s.setSource k x) :=
  setNtu_agrees _ s

theorem setCounter_agrees (p : Port) (c : Fin 12) (x : Counter) (s : State) :
    Agrees [.ctb] s (s.setCounter p c x) := setCtb_agrees _ s

theorem addDrop_agrees (r : Fin 20) (n : Nat) (s : State) : Agrees [.ctb] s (addDrop r n s) := setCtb_agrees _ s

theorem handOff_agrees (r : EnqueueRequest) (s : State) : Agrees [.flight] s (handOff r s) := setFlight_agrees _ s

theorem countPort_agrees (p : Port) (c : Fin 12) (n : Nat) (s : State) :
    Agrees [.ntu, .ctb] s (countPort p c n s).1 := by
  unfold countPort
  dsimp only
  split
  · exact (setCounter_agrees ..).mono (by decide)
  · exact ((setCounter_agrees ..).mono (by decide)).step (setSource_agrees ..)

theorem issueWith_agrees {bump : Port → Fin 12 → Nat → State → State}
    (h : ∀ p c n s, Agrees Field.reports s (bump p c n s)) (k : SourceNo) (s : State) :
    Agrees Field.reports s (issueWith bump k s) := by
  unfold issueWith
  split
  · exact .refl _ s
  · split
    · exact (handOff_agrees ..).mono (by decide)
    · exact (((setNtu_agrees ..).mono (by decide)).step (addDrop_agrees ..)).step (h ..)

theorem bumpFuel_agrees (fuel : Nat) : ∀ (p : Port) (c : Fin 12) (n : Nat) (s : State),
    Agrees Field.reports s (bumpFuel fuel p c n s) := by
  induction fuel with
  | zero => exact fun p c n s => (countPort_agrees p c n s).mono (by decide)
  | succ fuel ih =>
    intro p c n s
    unfold bumpFuel
    split
    · exact ((countPort_agrees p c n s).mono (by decide)).step (issueWith_agrees ih ..)
    · exact (countPort_agrees p c n s).mono (by decide)

theorem bump_agrees (p : Port) (c : Fin 12) (n : Nat) (s : State) : Agrees Field.reports s (bump p c n s) :=
  bumpFuel_agrees 2 p c n s

theorem issue_agrees (k : SourceNo) (s : State) : Agrees Field.reports s (issue k s) :=
  issueWith_agrees bump_agrees k s

theorem raise_agrees (k : SourceNo) (d : Detail) (s : State) : Agrees Field.reports s (raise k d s) := by
  unfold raise
  dsimp only
  split
  · exact ((setSource_agrees ..).mono (by decide)).step (issue_agrees ..)
  · exact (setSource_agrees ..).mono (by decide)

theorem present_agrees (k : SourceNo) (c : Bool) (s : State) : Agrees Field.reports s (present k c s) := by
  unfold present
  dsimp only
  split
  · split
    · exact (setSource_agrees ..).mono (by decide)
    · exact ((setSource_agrees ..).mono (by decide)).step (issue_agrees ..)
  · split
    · exact (setSource_agrees ..).mono (by decide)
    · exact .refl _ s

theorem portDownDrop_agrees (p : Port) (s : State) : Agrees Field.reports s (portDownDrop p s) :=
  ((addDrop_agrees ..).mono (by decide)).step (bump_agrees ..)

theorem offer_agrees (b : BucketNo) (n : Nat) (p : Port) (s : State) : Agrees [.fsq] s (offer b n p s).2 := by
  unfold offer
  dsimp only
  split
  · exact .refl _ s
  · split
    · exact setBucket_agrees ..
    · split
      · exact setFsq_agrees ..
      · exact .refl _ s

theorem announceDown_agrees (p : Port) (c : Cause) (s : State) : Agrees Field.reports s (announceDown p c s) :=
  ((setFlight_agrees ..).mono (by decide)).step (raise_agrees ..)

theorem announceUp_agrees (p : Port) (c : Cause) (s : State) : Agrees Field.reports s (announceUp p c s) :=
  ((setFlight_agrees ..).mono (by decide)).step (raise_agrees ..)

theorem presentUncovered_agrees (s : State) : Agrees Field.reports s (presentUncovered s) := present_agrees ..

theorem presentStationFull_agrees (s : State) : Agrees Field.reports s (presentStationFull s) := present_agrees ..

theorem presentReeferFull_agrees (s : State) : Agrees Field.reports s (presentReeferFull s) := present_agrees ..

theorem presentBatchOverflow_agrees (s : State) : Agrees Field.reports s (presentBatchOverflow s) :=
  present_agrees ..

theorem presentPoolLow_agrees (s : State) : Agrees Field.reports s (presentPoolLow s) := present_agrees ..

theorem presentMapInvalid_agrees (s : State) : Agrees Field.reports s (presentMapInvalid s) := present_agrees ..

theorem presentAll_agrees (s : State) : Agrees Field.reports s (presentAll s) :=
  (((((presentUncovered_agrees s).step (presentStationFull_agrees _)).step (presentReeferFull_agrees _)).step
    (presentBatchOverflow_agrees _)).step (presentMapInvalid_agrees _)).step (presentPoolLow_agrees _)

/-! ### Reefer Consolidator -/

/-- What the work of the Reefer Consolidator may touch. -/
abbrev Field.reefers : List Field := [.rcn, .ntu, .ctb, .flight]

theorem rcnStats_agrees (f : RcnStats → RcnStats) (s : State) : Agrees [.rcn] s (s.rcnStats f) := setRcn_agrees ..

theorem setReefer_agrees (k : Nat) (r : Reefer) (s : State) : Agrees [.rcn] s (s.setReefer k r) := setRcn_agrees ..

theorem discardSending_agrees (s : State) : Agrees [.rcn] s (discardSending s) := setRcn_agrees ..

theorem carryOutSwap_agrees (s : State) : Agrees Field.reefers s (carryOutSwap s) := by
  unfold carryOutSwap
  dsimp only
  split
  · exact (((setRcn_agrees ..).mono (by decide)).step (presentBatchOverflow_agrees _)).step (handOff_agrees ..)
  · exact ((((setRcn_agrees ..).mono (by decide)).step (presentBatchOverflow_agrees _)).step
      (portDownDrop_agrees ..)).step (discardSending_agrees _)

theorem swapDue_agrees (s : State) : Agrees Field.reefers s (swapDue s) := by
  unfold swapDue
  split
  · exact carryOutSwap_agrees s
  · exact (setRcn_agrees ..).mono (by decide)

theorem waitingSwap_agrees (s : State) : Agrees Field.reefers s (waitingSwap s) := by
  unfold waitingSwap
  split
  · exact carryOutSwap_agrees s
  · exact (presentBatchOverflow_agrees s).mono (by decide)

theorem batchTransmitted_agrees (s : State) : Agrees Field.reefers s (batchTransmitted s) :=
  ((setRcn_agrees ..).mono (by decide)).step (waitingSwap_agrees _)

theorem batchDiscarded_agrees (s : State) : Agrees Field.reefers s (batchDiscarded s) :=
  ((discardSending_agrees s).mono (by decide)).step (waitingSwap_agrees _)

theorem batchAppend_agrees (k : Nat) (st : EntryState) (s : State) : Agrees Field.reefers s (batchAppend k st s) := by
  unfold batchAppend
  split
  · exact .refl _ s
  · dsimp only
    split
    · exact (setRcn_agrees ..).mono (by decide)
    all_goals
      split
      · have h : ∀ t, Agrees Field.reefers s t → Agrees Field.reefers s (swapDue t) :=
          fun t h => h.step (swapDue_agrees t)
        have g : ∀ t, Agrees Field.reefers s t → Agrees Field.reefers s (presentBatchOverflow t) :=
          fun t h => h.step (presentBatchOverflow_agrees t)
        apply g
        split
        · apply h
          split
          · exact (((setRcn_agrees ..).step (setReefer_agrees ..)).step (setRcn_agrees ..)).mono (by decide)
          · exact ((setRcn_agrees ..).step (setReefer_agrees ..)).mono (by decide)
        · split
          · exact (((setRcn_agrees ..).step (setReefer_agrees ..)).step (setRcn_agrees ..)).mono (by decide)
          · exact ((setRcn_agrees ..).step (setReefer_agrees ..)).mono (by decide)
      · exact ((setReefer_agrees ..).step (rcnStats_agrees ..)).mono (by decide)

theorem forwardTo_agrees (p : Port) (q : QClass) (f : Frame) (s : State) :
    Agrees Field.reports s (forwardTo p q f s) := by
  unfold forwardTo
  split
  · exact (handOff_agrees ..).mono (by decide)
  · exact portDownDrop_agrees ..

/-- What taking a reefer report may touch. -/
abbrev Field.report : List Field := [.rcn, .fsq, .ntu, .ctb, .flight]

theorem alarmPath_agrees (f : Frame) (arrival trunk : Port) (s : State) :
    Agrees Field.report s (alarmPath f arrival trunk s) := by
  unfold alarmPath
  dsimp only
  split
  · exact ((((offer_agrees ..).mono (by decide)).step (rcnStats_agrees ..)).step (raise_agrees ..)).step
      (forwardTo_agrees ..)
  · exact ((((offer_agrees ..).mono (by decide)).step (rcnStats_agrees ..)).step (addDrop_agrees ..)).step
      (raise_agrees ..)

theorem acceptReport_agrees (k : Nat) (r : Reefer) (new : Readings) (b : Bool) (fresh : List Byte) (f : Frame)
    (arrival trunk : Port) (s : State) :
    Agrees Field.report s (acceptReport k r new b fresh f arrival trunk s) := by
  unfold acceptReport
  dsimp only
  have h1 : Agrees Field.report s ((s.setReefer k (r.updated new s.seconds)).rcnStats
      (fun x => { x with accepted := countUp x.accepted 1 })) :=
    ((setReefer_agrees ..).step (rcnStats_agrees ..)).mono (by decide)
  split
  · split
    · exact h1.step (batchAppend_agrees ..)
    · exact (h1.step (alarmPath_agrees ..)).step (batchAppend_agrees ..)
  · split
    · exact h1
    · exact h1.step (alarmPath_agrees ..)

theorem takeReport_agrees (f : Frame) (arrival trunk : Port) (s : State) :
    Agrees Field.report s (takeReport f arrival trunk s) := by
  unfold takeReport
  split
  · exact ((rcnStats_agrees ..).mono (by decide)).step (addDrop_agrees ..)
  · rename_i rep hrep
    have h0 : Agrees Field.report s
        (if rep.truncated then s.rcnStats (fun x => { x with truncations := countUp x.truncations 1 }) else s) := by
      split
      · exact (rcnStats_agrees ..).mono (by decide)
      · exact .refl _ s
    revert h0
    generalize (if rep.truncated then s.rcnStats (fun x => { x with truncations := countUp x.truncations 1 })
      else s) = s0
    intro h0
    dsimp only
    split
    · split
      · exact (h0.step (rcnStats_agrees ..)).step (forwardTo_agrees ..)
      · exact (((h0.step (setReefer_agrees ..)).step (rcnStats_agrees ..)).step (presentReeferFull_agrees _)).step
          (acceptReport_agrees ..)
    · split
      · exact (h0.step (rcnStats_agrees ..)).step (addDrop_agrees ..)
      · exact (h0.step (rcnStats_agrees ..)).step (addDrop_agrees ..)
      · exact h0.step (acceptReport_agrees ..)
      · exact (h0.step (rcnStats_agrees ..)).step (acceptReport_agrees ..)

theorem removeReefer_agrees (k : Nat) (s : State) : Agrees Field.reefers s (removeReefer k s) :=
  ((setRcn_agrees ..).mono (by decide)).step (presentReeferFull_agrees _)

theorem catchUp_agrees (k : Nat) (r : Reefer) (s : State) : Agrees Field.reefers s (catchUp k r s) := by
  unfold catchUp
  split
  · exact batchAppend_agrees ..
  · exact .refl _ s

theorem retireReefer_agrees (k : Nat) (r : Reefer) (s : State) : Agrees Field.reefers s (retireReefer k r s) := by
  unfold retireReefer
  split
  · exact ((batchAppend_agrees ..).step (removeReefer_agrees ..)).step (rcnStats_agrees ..)
  · exact batchAppend_agrees ..

theorem visitReefer_agrees (k : Nat) (r : Reefer) (s : State) : Agrees Field.reefers s (visitReefer k r s) := by
  unfold visitReefer
  split
  · exact ((setReefer_agrees ..).mono (by decide)).step (catchUp_agrees ..)
  · dsimp only
    split
    · exact ((setReefer_agrees ..).mono (by decide)).step (retireReefer_agrees ..)
    · split
      · exact (((setReefer_agrees ..).mono (by decide)).step (raise_agrees ..)).step (batchAppend_agrees ..)
      · split
        · exact (((setReefer_agrees ..).mono (by decide)).step (raise_agrees ..)).step (batchAppend_agrees ..)
        · exact ((setReefer_agrees ..).mono (by decide)).step (catchUp_agrees ..)

theorem advanceReeferSweep_agrees (k : Nat) (s : State) : Agrees [.rcn] s (advanceReeferSweep k s) := by
  unfold advanceReeferSweep
  split
  · exact setRcn_agrees ..
  · split <;> exact setRcn_agrees ..

/-! ### Crane Link Supervisor -/

/-- What the work of the Crane Link Supervisor may touch. -/
abbrev Field.cranes : List Field := [.links, .ntu, .ctb, .flight]

theorem linkCounts_agrees (l : LinkNo) (f : LinkCounts → LinkCounts) (s : State) :
    Agrees [.links] s (s.linkCounts l f) := setLink_agrees ..

theorem sendSpan_agrees (e : SpanEvent) (s : State) : Agrees [.flight] s (sendSpan e s) := setFlight_agrees ..

theorem sendSpanFor_agrees (mk : Nat → SpanEvent) (g : Option Nat) (s : State) :
    Agrees [.flight] s (sendSpanFor mk g s) := by
  cases g
  · exact .refl _ s
  · exact sendSpan_agrees ..

theorem sendAdvisory_agrees (l : LinkNo) (a : AdvisoryState) (s : State) :
    Agrees Field.reports s (sendAdvisory l a s) := by
  unfold sendAdvisory
  dsimp only
  split
  · exact (handOff_agrees ..).mono (by decide)
  · exact portDownDrop_agrees ..

theorem primingCopy_agrees (q : QPort) (x : Link) (s : State) : Agrees [.flight] s (primingCopy q x s) := by
  unfold primingCopy
  split
  · exact .refl _ s
  · exact handOff_agrees ..

theorem actOnTarget_agrees (l : LinkNo) (x : Link) (q : QPort) (s : State) :
    Agrees [.links, .flight] s (actOnTarget l x q s) := by
  unfold actOnTarget
  split
  · split
    · exact (setLink_agrees ..).mono (by decide)
    · exact ((setLink_agrees ..).mono (by decide)).step (primingCopy_agrees ..)
  · split
    · exact (setLink_agrees ..).mono (by decide)
    · exact (setLink_agrees ..).mono (by decide)
    · split
      · exact ((setLink_agrees ..).mono (by decide)).step (primingCopy_agrees ..)
      · exact (setLink_agrees ..).mono (by decide)
    · split
      · exact ((setLink_agrees ..).mono (by decide)).step (primingCopy_agrees ..)
      · exact (setLink_agrees ..).mono (by decide)
    · exact .refl _ s

theorem cellCheck_agrees (l : LinkNo) (s : State) : Agrees [.links, .flight] s (cellCheck l s) := by
  unfold cellCheck
  dsimp only
  split
  · exact (setLink_agrees ..).mono (by decide)
  · split
    · exact (setLink_agrees ..).mono (by decide)
    · exact ((setLink_agrees ..).mono (by decide)).step (actOnTarget_agrees ..)

theorem restoreNotice_agrees (l : LinkNo) (b : LinkState) (s : State) :
    Agrees Field.reports s (restoreNotice l b s) := by
  unfold restoreNotice
  split
  · exact (sendAdvisory_agrees ..).step (raise_agrees ..)
  · exact (sendAdvisory_agrees ..).step (raise_agrees ..)
  all_goals exact .refl _ s

theorem acceptSpan_agrees (b : LinkState) (g : Option Nat) (s : State) : Agrees [.flight] s (acceptSpan b g s) := by
  unfold acceptSpan
  split
  · exact sendSpanFor_agrees ..
  · exact sendSpanFor_agrees ..
  all_goals exact .refl _ s

theorem acceptControl_agrees (l : LinkNo) (f : Frame) (a : QPort) (trunk : Port) (s : State) :
    Agrees Field.cranes s (acceptControl l f a trunk s) := by
  unfold acceptControl
  dsimp only
  have h : ∀ y, Agrees Field.cranes s
      (acceptSpan (s.link l).state (s.link l).segment (restoreNotice l (s.link l).state (s.setLink l y))) :=
    fun y => (((setLink_agrees l y s).mono (by decide)).step (restoreNotice_agrees ..)).step (acceptSpan_agrees ..)
  split
  · exact ((h _).step (presentUncovered_agrees _)).step (forwardTo_agrees ..)
  · exact (h _).step (forwardTo_agrees ..)

theorem uplinkControl_agrees (l : LinkNo) (f : Frame) (a : QPort) (trunk : Port) (s : State) :
    Agrees Field.cranes s (uplinkControl l f a trunk s) := by
  unfold uplinkControl
  split
  · exact acceptControl_agrees ..
  all_goals exact ((linkCounts_agrees ..).mono (by decide)).step (addDrop_agrees ..)

theorem deliverControl_agrees (x : Link) (f : Frame) (s : State) : Agrees Field.reports s (deliverControl x f s) := by
  unfold deliverControl
  dsimp only
  have h := Agrees.foldl (c := Field.reports) (f := fun t q => portDownDrop (QPort.port q) t)
    (fun t q => portDownDrop_agrees (QPort.port q) t)
    (x.deliveryPorts.filter (fun q => !s.usable (QPort.port q))) s
  split
  · exact h
  · exact h.step (handOff_agrees ..)

/-- What the admission of a downlink control frame may touch. -/
abbrev Field.control : List Field := [.links, .fsq, .ntu, .ctb, .flight]

theorem downlinkControl_agrees (l : LinkNo) (f : Frame) (a : Port) (s : State) :
    Agrees Field.control s (downlinkControl l f a s) := by
  unfold downlinkControl
  dsimp only
  split
  · exact ((linkCounts_agrees ..).mono (by decide)).step (addDrop_agrees ..)
  · split
    · exact (((linkCounts_agrees ..).mono (by decide)).step (addDrop_agrees ..)).step (raise_agrees ..)
    · split
      · exact (((offer_agrees ..).mono (by decide)).step (setLink_agrees ..)).step (deliverControl_agrees ..)
      · exact (((offer_agrees ..).mono (by decide)).step (addDrop_agrees ..)).step (bump_agrees ..)

theorem moveSpan_agrees (x : Link) (g : Nat) (s : State) : Agrees [.flight] s (moveSpan x g s) := by
  unfold moveSpan
  split
  · exact (sendSpanFor_agrees ..).step (sendSpan_agrees ..)
  · exact .refl _ s

theorem positionReport_agrees (l : LinkNo) (f : Frame) (a : Port) (s : State) :
    Agrees Field.cranes s (positionReport l f a s) := by
  unfold positionReport
  split
  · exact ((addDrop_agrees ..).mono (by decide)).step (bump_agrees ..)
  · dsimp only
    split
    · exact ((setLink_agrees ..).mono (by decide)).step (presentUncovered_agrees _)
    · exact ((((setLink_agrees ..).mono (by decide)).step (moveSpan_agrees ..)).step (cellCheck_agrees ..)).step
        (presentUncovered_agrees _)

theorem lapse_agrees (l : LinkNo) (s : State) : Agrees Field.cranes s (lapse l s) :=
  ((((setLink_agrees ..).mono (by decide)).step (sendSpanFor_agrees ..)).step (sendAdvisory_agrees ..)).step
    (raise_agrees ..)

theorem superviseLink_agrees (l : LinkNo) (s : State) : Agrees Field.cranes s (superviseLink l s) := by
  unfold superviseLink
  dsimp only
  split
  · exact (((setLink_agrees ..).mono (by decide)).step (lapse_agrees ..)).step (presentUncovered_agrees _)
  · split
    · exact ((((setLink_agrees ..).mono (by decide)).step (sendAdvisory_agrees ..)).step (raise_agrees ..)).step
        (presentUncovered_agrees _)
    · exact (setLink_agrees ..).mono (by decide)

theorem takeLinkEvent_agrees {e : LinkEvent} {s t : State} (h : takeLinkEvent e s = some t) :
    Agrees [.flight] s t := by
  unfold takeLinkEvent at h
  split at h
  · cases h; exact setFlight_agrees ..
  · cases h

theorem linkDownAt_agrees (l : LinkNo) (p : Port) (s : State) : Agrees [.links, .flight] s (linkDownAt l p s) := by
  unfold linkDownAt
  dsimp only
  split
  · exact .refl _ s
  · split
    · split
      · exact (setLink_agrees ..).mono (by decide)
      · split
        · exact ((setLink_agrees ..).mono (by decide)).step (cellCheck_agrees ..)
        · exact .refl _ s
    · split
      · exact cellCheck_agrees ..
      · exact .refl _ s

theorem linkUpAt_agrees (l : LinkNo) (p : Port) (s : State) : Agrees [.links, .flight] s (linkUpAt l p s) := by
  unfold linkUpAt
  split
  · exact .refl _ s
  · exact cellCheck_agrees ..

theorem reevaluate_agrees (l : LinkNo) (s : State) : Agrees Field.cranes s (reevaluate l s) := by
  unfold reevaluate
  dsimp only
  split
  · exact .refl _ s
  · exact .refl _ s
  · split
    · exact (((setLink_agrees ..).mono (by decide)).step (cellCheck_agrees ..)).step (presentUncovered_agrees _)
    · exact ((((moveSpan_agrees ..).mono (by decide)).step (setLink_agrees ..)).step (cellCheck_agrees ..)).step
        (presentUncovered_agrees _)

/-! ### Station Table -/

/-- What the work of the Station Table may touch. -/
abbrev Field.stations : List Field := [.stt, .ntu, .ctb, .flight]

theorem sttStats_agrees (f : SttStats → SttStats) (s : State) : Agrees [.stt] s (s.sttStats f) := setStt_agrees ..

theorem putDynamic_agrees (k : Nat) (r : DynRec) (s : State) : Agrees Field.stations s (putDynamic k r s) :=
  ((setStt_agrees ..).mono (by decide)).step (presentStationFull_agrees _)

theorem removeDynamic_agrees (k : Nat) (s : State) : Agrees Field.stations s (removeDynamic k s) :=
  ((setStt_agrees ..).mono (by decide)).step (presentStationFull_agrees _)

theorem removeDynamicOf_agrees (sid : Sid) (s : State) : Agrees Field.stations s (removeDynamicOf sid s) := by
  unfold removeDynamicOf
  split
  · exact .refl _ s
  · exact removeDynamic_agrees ..

theorem bindStation_agrees {sid : Sid} {l : LinkNo} {s t : State} (h : bindStation sid l s = .bound t) :
    Agrees Field.stations s t := by
  unfold bindStation at h
  split at h
  · split at h
    · split at h
      · cases h; exact removeDynamicOf_agrees ..
      · cases h
    · cases h; exact ((setStt_agrees ..).mono (by decide)).step (removeDynamicOf_agrees ..)
  · split at h
    · cases h
    · cases h; exact ((setStt_agrees ..).mono (by decide)).step (removeDynamicOf_agrees ..)

theorem unbindStation_agrees (sid : Sid) (s : State) : Agrees [.stt] s (unbindStation sid s) := by
  unfold unbindStation
  split
  · exact setStt_agrees ..
  all_goals exact .refl _ s

theorem learn_agrees (sid : Sid) (q : QPort) (g : Nat) (s : State) : Agrees Field.stations s (learn sid q g s) := by
  unfold learn
  split
  · exact .refl _ s
  · split
    · split
      · exact (addDrop_agrees ..).mono (by decide)
      · exact ((sttStats_agrees ..).mono (by decide)).step (putDynamic_agrees ..)
    · split
      · exact putDynamic_agrees ..
      · exact ((sttStats_agrees ..).mono (by decide)).step (putDynamic_agrees ..)
      · exact (sttStats_agrees ..).mono (by decide)

theorem deliverSteered_agrees (f : Frame) (d : Domain) (ports : List QPort) (s : State) :
    Agrees Field.reports s (deliverSteered f d ports s) := by
  unfold deliverSteered
  dsimp only
  split
  · exact (addDrop_agrees ..).mono (by decide)
  · exact ((addDrop_agrees ..).mono (by decide)).step (handOff_agrees ..)

theorem steerToPort_agrees (f : Frame) (d : Domain) (q : QPort) (s : State) :
    Agrees Field.reports s (steerToPort f d q s) := by
  unfold steerToPort
  split
  · exact deliverSteered_agrees ..
  · exact portDownDrop_agrees ..

/-- What downlink steering may touch. -/
abbrev Field.steering : List Field := [.stt, .fsq, .ntu, .ctb, .flight]

theorem flood_agrees (f : Frame) (n : Fin 8) (a : Port) (s : State) : Agrees Field.steering s (flood f n a s) := by
  unfold flood
  dsimp only
  split
  · exact (addDrop_agrees ..).mono (by decide)
  · split
    · exact (((offer_agrees ..).mono (by decide)).step (sttStats_agrees ..)).step (deliverSteered_agrees ..)
    · exact (((offer_agrees ..).mono (by decide)).step (addDrop_agrees ..)).step (bump_agrees ..)

theorem steerMiss_agrees (f : Frame) (n : Fin 8) (a : Port) (s : State) :
    Agrees Field.steering s (steerMiss f n a s) := by
  unfold steerMiss
  split
  · exact flood_agrees ..
  · exact ((sttStats_agrees ..).mono (by decide)).step (deliverSteered_agrees ..)

theorem steer_agrees (f : Frame) (n : Fin 8) (a : Port) (s : State) : Agrees Field.steering s (steer f n a s) := by
  unfold steer
  split
  · split <;> exact (steerToPort_agrees ..).mono (by decide)
  · split
    · exact (steerToPort_agrees ..).mono (by decide)
    · exact steerMiss_agrees ..

theorem ageAt_agrees (k : Nat) (s : State) : Agrees Field.stations s (ageAt k s) := by
  unfold ageAt
  split
  · exact .refl _ s
  · split
    · exact ((sttStats_agrees ..).mono (by decide)).step (removeDynamic_agrees ..)
    · exact (setStt_agrees ..).mono (by decide)

theorem advanceAging_agrees (k : Nat) (s : State) : Agrees [.stt] s (advanceAging k s) := by
  unfold advanceAging
  split
  · exact setStt_agrees ..
  · split <;> exact setStt_agrees ..

theorem purgeAt_agrees (k : Nat) (x : QuaySet) (s : State) : Agrees Field.stations s (purgeAt k x s) := by
  unfold purgeAt
  split
  · exact .refl _ s
  · split
    · exact ((sttStats_agrees ..).mono (by decide)).step (removeDynamic_agrees ..)
    · exact .refl _ s

theorem advancePurge_agrees (w : Walk) (s : State) : Agrees [.stt] s (advancePurge w s) := by
  unfold advancePurge
  split
  · exact setStt_agrees ..
  · split <;> exact setStt_agrees ..

theorem stationLinkDown_agrees (q : QPort) (s : State) : Agrees [.stt] s (stationLinkDown q s) := by
  unfold stationLinkDown
  split <;> exact setStt_agrees ..

/-! ### Resets -/

theorem hardValues_agrees (part : PartState) (straps : Straps) (map : Cvm) (s : State) :
    Agrees [.part, .straps, .seconds, .restarts, .sid, .ports, .cvm, .idc, .stt, .links, .rcn, .fsq, .ntu, .ctb,
      .mga, .flight] s (hardValues part straps map s) := by
  refine ⟨?_⟩; intro f hf; cases f <;> first | rfl | exact absurd (by decide) hf

theorem countRestart_agrees (s : State) : Agrees Field.reports s (countRestart s) := by
  refine Agrees.foldl (fun t p => ?_) _ s
  split
  · exact (bump_agrees ..).step (addDrop_agrees ..)
  · exact (addDrop_agrees ..).mono (by decide)

theorem softRestart_agrees (s : State) : Agrees Field.restart s (softRestart s) := by
  have h : Agrees Field.restart s (addDrop Drop.restartDiscard s.mga.queue.length (countRestart s)) :=
    ((countRestart_agrees s).mono (by decide)).step (addDrop_agrees ..)
  refine h.step (a := Field.restart) ?_
  refine ⟨?_⟩; intro f hf; cases f <;> first | rfl | exact absurd (by decide) hf

theorem startTimers_agrees (s : State) : Agrees [.cvm, .stt, .rcn, .fsq] s (startTimers s) := by
  refine ⟨?_⟩; intro f hf; cases f <;> first | rfl | exact absurd (by decide) hf

theorem restartCellChecks_agrees (s : State) : Agrees [.links, .flight] s (restartCellChecks s) := by
  refine Agrees.foldl (fun t l => ?_) _ s
  split
  · exact cellCheck_agrees ..
  · exact .refl _ t

/-! ### Frame Store and Queues -/

theorem chargeShaper_agrees (p : Port) (cls : QClass) (n : Nat) (s : State) : Agrees [.fsq] s (chargeShaper p cls n s) := by
  unfold chargeShaper
  dsimp only
  split
  · exact .refl _ s
  · exact setBucket_agrees ..

theorem select_agrees (p : Port) (s : State) : Agrees [.fsq] s (select p s) := by
  unfold select
  split
  · exact .refl _ s
  · split
    · exact .refl _ s
    · exact (setQueues_agrees ..).step (chargeShaper_agrees ..)

theorem releaseEntry_agrees (s : State) (e : Entry) : Agrees [.fsq] s (releaseEntry s e) := by
  unfold releaseEntry
  split
  · exact .refl _ s
  · split
    · exact .refl _ s
    · split <;> exact setFsq_agrees ..

theorem countRefusal_agrees (d : Port × QClass) (a : Admission) (s : State) :
    Agrees Field.reports s (countRefusal d a s) := by
  unfold countRefusal
  split
  · exact .refl _ s
  · exact portDownDrop_agrees ..
  · exact (addDrop_agrees ..).mono (by decide)
  · exact ((addDrop_agrees ..).mono (by decide)).step (bump_agrees ..)

theorem pushEntry_agrees (e : Entry) (s : State) (d : Port × QClass) : Agrees [.fsq] s (pushEntry e s d) :=
  setQueues_agrees ..

theorem admissionEvent_agrees (o : Origin) (b : Bool) (s : State) :
    Agrees Field.restart s (admissionEvent o b s) := by
  unfold admissionEvent
  split
  · exact (setNtu_agrees ..).mono (by decide)
  · exact (setNtu_agrees ..).mono (by decide)
  · exact softRestart_agrees s
  all_goals exact .refl _ s

/-- What the frame store may touch, but for a soft restart it lets begin. -/
abbrev Field.store : List Field := [.fsq, .ntu, .ctb, .flight]

theorem storeFrame_agrees (r : EnqueueRequest) (ds : List (Port × QClass)) (s : State) :
    Agrees Field.store s (storeFrame r ds s) := by
  unfold storeFrame
  dsimp only
  refine Agrees.step (a := Field.store) ?_ (Agrees.foldl (f := fun t (d : Port × QClass) => select d.1 t)
    (fun t d => (select_agrees d.1 t).mono (c := Field.store) (by decide)) _ _)
  refine Agrees.step (a := Field.store) ?_ ((presentPoolLow_agrees _).mono (by decide))
  refine Agrees.step (a := Field.store) ?_ (Agrees.foldl (fun t d => (pushEntry_agrees _ t d).mono (by decide)) _ _)
  exact (setFsq_agrees ..).mono (by decide)

theorem takeFrame_agrees (r : EnqueueRequest) (s : State) : Agrees Field.restart s (takeFrame r s) := by
  unfold takeFrame
  dsimp only
  have h := Agrees.foldl (c := Field.restart)
    (f := fun t d => countRefusal d (judgeQueue s r.kind (cellsOf r.body.length) d) t)
    (fun t d => (countRefusal_agrees d _ t).mono (by decide)) r.queues s
  split
  · exact h.step (admissionEvent_agrees ..)
  · exact (h.step (storeFrame_agrees ..)).step (admissionEvent_agrees ..)

/-- What the frame store may touch at a batch frame. -/
abbrev Field.batch : List Field := [.rcn, .fsq, .ntu, .ctb, .flight]

theorem takeBatch_agrees (r : EnqueueRequest) (s : State) : Agrees Field.batch s (takeBatch r s) := by
  unfold takeBatch
  split
  · exact .refl _ s
  · split
    · exact ((pushEntry_agrees ..).step (select_agrees ..)).mono (by decide)
    · exact ((portDownDrop_agrees ..).mono (by decide)).step (batchDiscarded_agrees _)

theorem takeEnqueue_agrees (r : EnqueueRequest) (s : State) : Agrees Field.restart s (takeEnqueue r s) := by
  unfold takeEnqueue
  split
  · exact (takeBatch_agrees ..).mono (by decide)
  all_goals exact takeFrame_agrees ..

/-- What the end of a transmission may touch. -/
abbrev Field.sent : List Field :=
  [.part, .restarts, .cvm, .stt, .links, .rcn, .fsq, .ntu, .ctb, .mga, .flight, .wire]

theorem endTransmission_agrees (p : Port) (cls : QClass) (e : Entry) (rest : List Entry) (s : State) :
    Agrees Field.sent s (endTransmission p cls e rest s) := by
  unfold endTransmission
  dsimp only
  have w : ∀ l, Agrees [.wire] s { s with wire := l } := by
    refine fun l => ⟨?_⟩; intro f hf; cases f <;> first | rfl | exact absurd (by decide) hf
  have h := fun l x => (((((((w l).mono (c := Field.sent) (by decide)).step (setQueues_agrees p x _)).step
    (releaseEntry_agrees _ e)).step (presentPoolLow_agrees _)).step (bump_agrees p Ctr.txFrames 1 _)).step
    (bump_agrees p Ctr.txBytes e.length _))
  split
  · split
    · exact ((h _ _).step (batchTransmitted_agrees _)).step (softRestart_agrees _)
    · exact (h _ _).step (softRestart_agrees _)
  · split
    · exact ((h _ _).step (batchTransmitted_agrees _)).step (select_agrees ..)
    · exact (h _ _).step (select_agrees ..)

theorem discardPort_agrees (p : Port) (s : State) : Agrees Field.restart s (discardPort p s) := by
  unfold discardPort
  dsimp only
  have h := fun a b x => (((((((setQueues_agrees p x s).mono (c := Field.restart) (by decide)).step
    (Agrees.foldl releaseEntry_agrees (s.queues p).entries _)).step (presentPoolLow_agrees _)).step
    (addDrop_agrees Drop.portDown a _)).step (bump_agrees p Ctr.txAborted a _)).step
    (addDrop_agrees Drop.portDown b _)).step (bump_agrees p Ctr.txPortDown b _)
  split
  · split
    · exact ((h _ _ _).step (batchDiscarded_agrees _)).step (softRestart_agrees _)
    · exact (h _ _ _).step (softRestart_agrees _)
  · split
    · exact (h _ _ _).step (batchDiscarded_agrees _)
    · exact h _ _ _

/-! ### Management Agent -/

/-- What the agent may touch on its own. -/
abbrev Field.agent : List Field := [.mga, .ntu, .ctb, .flight]

theorem acceptCommand_agrees (f : Frame) (a : Port) (x : Sid) (s : State) :
    Agrees Field.agent s (acceptCommand f a x s) := by
  unfold acceptCommand
  split
  · exact ((addDrop_agrees ..).mono (by decide)).step (raise_agrees ..)
  · split
    · exact (addDrop_agrees ..).mono (by decide)
    · split
      · exact ((addDrop_agrees ..).mono (by decide)).step (raise_agrees ..)
      · exact (setMga_agrees ..).mono (by decide)

theorem answer_agrees (a : Port) (x y : Sid) (b : List Byte) (s : State) :
    Agrees Field.agent s (answer false a x y b s) := by
  unfold answer
  simp only [Bool.false_eq_true, if_false]
  split
  · exact ((setMga_agrees ..).mono (by decide)).step (handOff_agrees ..)
  · exact ((setMga_agrees ..).mono (by decide)).step (portDownDrop_agrees ..)

theorem answer_restart_agrees (a : Port) (x y : Sid) (b : List Byte) (s : State) :
    Agrees Field.restart s (answer true a x y b s) := by
  unfold answer
  simp only [if_true]
  split
  · exact ((setMga_agrees ..).mono (by decide)).step (handOff_agrees ..)
  · exact (((setMga_agrees ..).mono (by decide)).step (portDownDrop_agrees ..)).step (softRestart_agrees _)

theorem continueFrame_agrees (e : Execution) (s : State) : Agrees Field.agent s (continueFrame false e s) := by
  unfold continueFrame
  split
  · exact answer_agrees ..
  · exact (setMga_agrees ..).mono (by decide)

theorem continueFrame_restart_agrees (e : Execution) (s : State) :
    Agrees Field.restart s (continueFrame true e s) := by
  unfold continueFrame
  split
  · exact answer_restart_agrees ..
  · exact (setMga_agrees ..).mono (by decide)

theorem completeCommand_agrees (e : Execution) (st : Status) (r : List Byte) (s : State) :
    Agrees Field.agent s (completeCommand false e st r s) := continueFrame_agrees ..

theorem completeCommand_restart_agrees (e : Execution) (st : Status) (r : List Byte) (s : State) :
    Agrees Field.restart s (completeCommand true e st r s) := continueFrame_restart_agrees ..

theorem beginFrame_agrees (f : CommandFrame) (s : State) : Agrees Field.agent s (beginFrame f s) := by
  unfold beginFrame
  split
  · exact answer_agrees ..
  · exact continueFrame_agrees ..

/-- A command that is taken touches what its effect touches and what the agent touches. -/
theorem takeCommand_agrees {c : List Field} {i : Instr} {run : Nat → State → Taken} {s : State}
    (h : ∀ room, Agrees c s (run room s).state) (hc : Field.agent ⊆ c) : Agrees c s (takeCommand i run s) := by
  unfold takeCommand
  split
  · exact .refl _ s
  · exact (h _).step (completeCommand_agrees ..) hc

theorem sendMapSwapped_agrees (s : State) : Agrees [.flight] s (sendMapSwapped s) := setFlight_agrees ..

theorem completeCommit_agrees (s : State) : Agrees Field.agent s (completeCommit s) := by
  unfold completeCommit
  split
  · exact completeCommand_agrees ..
  all_goals exact .refl _ s

/-- What a swap of the map may touch. -/
abbrev Field.swap : List Field := [.cvm, .mga, .ntu, .ctb, .flight]

theorem swapMap_agrees (s : State) : Agrees Field.swap s (swapMap s) :=
  (((((setCvm_agrees s.cvm.swapped s).mono (by decide)).step (raise_agrees ..)).step
    (presentMapInvalid_agrees _)).step (sendMapSwapped_agrees _)).step (completeCommit_agrees _)

theorem takeSpan_agrees {e : SpanEvent} {s t : State} (h : takeSpan e s = some t) : Agrees [.flight] s t := by
  unfold takeSpan at h
  split at h
  · cases h; exact setFlight_agrees ..
  · cases h

/-! ### Ports and reception -/

theorem changePort_agrees (p : Port) (r : PortRec) (c : Cause) (s : State) :
    Agrees [.ports, .ntu, .ctb, .flight] s (changePort p r c s) := by
  unfold changePort
  dsimp only
  split
  · split
    · exact ((setPort_agrees ..).mono (by decide)).step (announceDown_agrees ..)
    · exact ((setPort_agrees ..).mono (by decide)).step (announceUp_agrees ..)
    all_goals exact (setPort_agrees ..).mono (by decide)
  · exact (setPort_agrees ..).mono (by decide)

theorem dropAt_agrees (p : Port) (c : Fin 12) (r : Fin 20) (s : State) : Agrees Field.reports s (dropAt p c r s) :=
  ((addDrop_agrees ..).mono (by decide)).step (bump_agrees ..)

theorem dropUnclassified_agrees (f : Frame) (s : State) : Agrees Field.reports s (dropUnclassified f s) :=
  ((addDrop_agrees ..).mono (by decide)).step (raise_agrees ..)

theorem forwardAsData_agrees (f : Frame) (d : Domain) (s : State) : Agrees [.flight] s (forwardAsData f d s) :=
  handOff_agrees ..

theorem forwardLearning_agrees (f : Frame) (q : QPort) (d : Domain) (s : State) :
    Agrees Field.stations s (forwardLearning f q d s) :=
  (learn_agrees ..).step (forwardAsData_agrees ..)

theorem receiveCommand_agrees (f : Frame) (a : Port) (x : Sid) (s : State) :
    Agrees Field.agent s (receiveCommand f a x s) :=
  ((bump_agrees ..).mono (by decide)).step (acceptCommand_agrees ..)

/-- What a received frame may touch. -/
abbrev Field.received : List Field :=
  [.ports, .stt, .links, .rcn, .fsq, .ntu, .ctb, .mga, .flight]

theorem dispatchUplink_agrees (f : Frame) (q : QPort) (c : IdClass) (s : State) :
    Agrees Field.received s (dispatchUplink f q c s) := by
  unfold dispatchUplink
  dsimp only
  split
  · split
    · exact (uplinkControl_agrees ..).mono (by decide)
    · exact (forwardLearning_agrees ..).mono (by decide)
  · split
    · exact (positionReport_agrees ..).mono (by decide)
    · exact (learn_agrees ..).mono (by decide)
  · split
    · exact (takeReport_agrees ..).mono (by decide)
    · exact (forwardLearning_agrees ..).mono (by decide)
  · exact (forwardLearning_agrees ..).mono (by decide)
  all_goals exact (forwardAsData_agrees ..).mono (by decide)

theorem policed_agrees {next : State → State} (h : ∀ s, Agrees Field.received s (next s)) (f : Frame) (q : QPort)
    (s : State) : Agrees Field.received s (policed f q next s) := by
  unfold policed
  dsimp only
  split
  · exact ((offer_agrees ..).mono (by decide)).step (h _)
  · exact ((offer_agrees ..).mono (by decide)).step (dropAt_agrees ..)

theorem receiveUplink_agrees (f : Frame) (q : QPort) (s : State) :
    Agrees Field.received s (receiveUplink f q s) := by
  unfold receiveUplink
  split
  · exact policed_agrees (fun t => (receiveCommand_agrees _ _ _ t).mono (by decide)) f q s
  · split
    · exact (dropUnclassified_agrees ..).mono (by decide)
    · split
      · exact (addDrop_agrees ..).mono (by decide)
      · exact policed_agrees (fun t => dispatchUplink_agrees _ _ _ t) f q s

theorem dispatchDownlink_agrees (f : Frame) (a : Port) (c : IdClass) (s : State) :
    Agrees Field.received s (dispatchDownlink f a c s) := by
  unfold dispatchDownlink
  split
  · split
    · exact (downlinkControl_agrees ..).mono (by decide)
    · exact (steer_agrees ..).mono (by decide)
  all_goals exact (steer_agrees ..).mono (by decide)

theorem receiveDownlink_agrees (f : Frame) (a : Port) (s : State) :
    Agrees Field.received s (receiveDownlink f a s) := by
  unfold receiveDownlink
  split
  · exact (receiveCommand_agrees ..).mono (by decide)
  · split
    · exact (dropUnclassified_agrees ..).mono (by decide)
    · split
      · exact (addDrop_agrees ..).mono (by decide)
      · split
        · exact ((addDrop_agrees ..).mono (by decide)).step (raise_agrees ..)
        · exact dispatchDownlink_agrees ..

theorem receiveForm_agrees (p : Port) (b : List Byte) (k : Kind) (s : State) :
    Agrees Field.received s (receiveForm p b k s) := by
  unfold receiveForm
  dsimp only
  split
  · exact (dropAt_agrees ..).mono (by decide)
  · split
    · exact (dropAt_agrees ..).mono (by decide)
    · split
      · exact (dropAt_agrees ..).mono (by decide)
      · split
        · exact receiveUplink_agrees ..
        · exact receiveDownlink_agrees ..

theorem countReceived_agrees (p : Port) (b : List Byte) (s : State) :
    Agrees [.ports, .ntu, .ctb, .flight] s (countReceived p b s) :=
  (((bump_agrees p Ctr.rxBytes b.length s).mono (by decide)).step (bump_agrees ..)).step (setPort_agrees ..)

theorem receiveFrame_agrees (p : Port) (raw : List Byte) (s : State) :
    Agrees Field.received s (receiveFrame p raw s) := by
  unfold receiveFrame
  split
  · exact (dropAt_agrees ..).mono (by decide)
  · split
    · exact ((countReceived_agrees ..).mono (by decide)).step (dropAt_agrees ..)
    · exact ((countReceived_agrees ..).mono (by decide)).step (receiveForm_agrees ..)

end Sys2Proof.Machine
end

