-- ==== Sys2Proof/Laws/Touches.lean ====
section
/-! SUPPORT. What each command can touch: the fields of the state outside its list are as they were before. -/

namespace Sys2Proof.Machine

/-- The fields of the state that a command may change. -/
def Instr.touches : Instr → List Field
  | .powerOnReset | .pinReset | .resetEnd _ _ =>
    [.part, .straps, .seconds, .restarts, .sid, .ports, .cvm, .idc, .stt, .links, .rcn, .fsq, .ntu, .ctb, .mga,
      .flight]
  | .initializationEnd => [.part, .cvm, .stt, .rcn, .fsq, .ntu, .ctb, .flight]
  | .restartInitializationEnd => [.part, .cvm, .stt, .links, .rcn, .fsq, .ntu, .ctb, .flight]
  | .phyLossOfLink _ | .phyLinkReport _ => [.ports, .ntu, .ctb, .flight]
  | .sttLinkDown _ => [.stt, .flight]
  | .clsLinkDown _ _ | .clsLinkUp _ _ | .mapSwappedReevaluation _ | .supervisionExpiry _ | .holdExpiry _ =>
    Field.cranes
  | .fsqLinkDown _ | .enqueue _ | .restart => Field.restart
  | .frameReceived _ _ => Field.received
  | .addSpan _ | .removeSpan _ => [.cvm, .flight]
  | .coverageEpochExpiry => Field.swap
  | .agingTimerExpiry | .agingSweepVisit | .purgeWalkVisit => Field.stations
  | .reportPeriodExpiry | .supervisionSweepVisit | .batchTimerExpiry => Field.reefers
  | .transmissionEnd _ => Field.sent
  | .refillExpiry _ => [.fsq]
  | .holdoffExpiry _ => Field.reports
  | .commandFrameTake | .ident => Field.agent
  | .setIdent _ => [.sid, .mga, .ntu, .ctb, .flight]
  | .setPort _ _ _ _ => [.ports, .mga, .ntu, .ctb, .flight]
  | .setGroup _ _ _ _ | .setClass _ _ _ _ _ _ _ | .setDomain _ _ _ _ _ => [.idc, .mga, .ntu, .ctb, .flight]
  | .readClass _ _ | .readDomain _ | .readStation _ | .listStations _ _ | .readReefer _ | .listReefers _ _ =>
    Field.agent
  | .setStation _ _ | .clearStation _ | .setLearning _ _ _ => [.stt, .mga, .ntu, .ctb, .flight]
  | .setCrane _ _ _ _ _ _ _ _ _ _ _ _ => [.stt, .links, .fsq, .mga, .ntu, .ctb, .flight]
  | .clearCrane _ => [.stt, .links, .mga, .ntu, .ctb, .flight]
  | .readCrane _ _ => [.links, .freeUse, .mga, .ntu, .ctb, .flight]
  | .setGeometry _ _ _ | .setWindow _ _ _ _ _ _ | .streamCells _ _ _ | .readCells _ _ _ | .copyActive
  | .setEpoch _ => [.cvm, .mga, .ntu, .ctb, .flight]
  | .commitMap => [.cvm, .mga]
  | .setReefer _ _ _ _ _ _ _ _ | .forgetReefer _ => [.rcn, .mga, .ntu, .ctb, .flight]
  | .setRate _ _ _ _ _ _ | .setQueue _ _ _ | .setSched _ _ _ | .setReserve _ _ =>
    [.fsq, .mga, .ntu, .ctb, .flight]
  | .readCounters _ _ | .setNotice _ _ _ | .setNoticeDest _ _ _ _ _ | .readNotice _ _ | .clearNotice _ =>
    Field.agent
  | .secondsCounterTick => [.seconds, .freeUse]

/-! ### What the effects of the management commands touch -/

theorem setPart_agrees (x : PartState) (s : State) : Agrees [.part] s { s with part := x } := by
  refine ⟨?_⟩; intro f hf; cases f <;> first | rfl | exact absurd (by decide) hf

theorem setSid_agrees (x : Sid) (s : State) : Agrees [.sid] s { s with sid := x } := by
  refine ⟨?_⟩; intro f hf; cases f <;> first | rfl | exact absurd (by decide) hf

theorem useFree_agrees (s : State) (n : Nat) : Agrees [.freeUse] s { s with freeUse := n } := by
  refine ⟨?_⟩; intro f hf; cases f <;> first | rfl | exact absurd (by decide) hf

theorem takeSetIdent_agrees (x : Sid) (s : State) : Agrees [.sid] s (takeSetIdent x s).state := by
  unfold takeSetIdent
  split
  · exact .refl _ s
  · exact setSid_agrees ..

theorem takeSetPort_agrees (p m q o : Nat) (s : State) :
    Agrees [.ports, .ntu, .ctb, .flight] s (takeSetPort p m q o s).state := by
  unfold takeSetPort
  split
  · exact .refl _ s
  · dsimp only
    split
    · split
      · exact .refl _ s
      · exact changePort_agrees ..
    · exact .refl _ s

theorem takeSetGroup_agrees (g : Nat) (b m : Half) (v : Nat) (s : State) :
    Agrees [.idc] s (takeSetGroup g b m v s).state := by
  unfold takeSetGroup
  split
  · exact setIdc_agrees ..
  · exact .refl _ s

theorem takeSetClass_agrees (g c : Nat) (b m : Half) (v d o : Nat) (s : State) :
    Agrees [.idc] s (takeSetClass g c b m v d o s).state := by
  unfold takeSetClass
  split
  · exact setIdc_agrees ..
  · exact .refl _ s

theorem takeReadClass_agrees (g c : Nat) (s : State) : Agrees [] s (takeReadClass g c s).state := by
  unfold takeReadClass
  split <;> exact .refl _ s

theorem takeSetDomain_agrees (d e t : Nat) (x : Half) (q : Nat) (s : State) :
    Agrees [.idc] s (takeSetDomain d e t x q s).state := by
  unfold takeSetDomain
  split
  · split
    · exact .refl _ s
    · exact setIdc_agrees ..
  · exact .refl _ s

theorem takeReadDomain_agrees (d : Nat) (s : State) : Agrees [] s (takeReadDomain d s).state := by
  unfold takeReadDomain
  split <;> exact .refl _ s

theorem takeSetStation_agrees (x : Sid) (p : Nat) (s : State) :
    Agrees Field.stations s (takeSetStation x p s).state := by
  have w : ∀ q k, Agrees Field.stations s (writeStatic x q k s).state := fun q k =>
    ((setStt_agrees ..).mono (by decide)).step (removeDynamicOf_agrees ..)
  unfold takeSetStation
  split
  · exact .refl _ s
  · split
    · exact .refl _ s
    · exact w ..
    · split
      · exact .refl _ s
      · exact w ..

theorem takeClearStation_agrees (x : Sid) (s : State) : Agrees Field.stations s (takeClearStation x s).state := by
  unfold takeClearStation
  split
  · exact .refl _ s
  · exact (setStt_agrees ..).mono (by decide)
  · split
    · exact .refl _ s
    · exact removeDynamic_agrees ..

theorem takeReadStation_agrees (x : Sid) (s : State) : Agrees [] s (takeReadStation x s).state := by
  unfold takeReadStation
  split
  · exact .refl _ s
  · split <;> exact .refl _ s

theorem listResult_agrees (r : List (Nat × List Byte)) (a n room : Nat) (s : State) :
    Agrees [] s (listResult r a n room s).state := by
  unfold listResult
  dsimp only
  split
  · exact .refl _ s
  · split <;> exact .refl _ s

theorem takeListStations_agrees (c a room : Nat) (s : State) : Agrees [] s (takeListStations c a room s).state := by
  unfold takeListStations
  split
  · split
    · exact .refl _ s
    · exact listResult_agrees ..
  · split
    · split
      · exact .refl _ s
      · exact listResult_agrees ..
    · exact .refl _ s

theorem takeSetLearning_agrees (m p c : Nat) (s : State) : Agrees [.stt] s (takeSetLearning m p c s).state :=
  setStt_agrees ..

/-- What a binding may touch. -/
abbrev Field.binding : List Field := [.stt, .links, .fsq, .ntu, .ctb, .flight]

theorem bindLink_agrees (l : LinkNo) (c : LinkConfig) (r b o : Nat) (s : State) :
    Agrees Field.binding s (bindLink l c r b o s) :=
  (((setLink_agrees ..).mono (by decide)).step (setBucket_agrees ..)).step (presentUncovered_agrees _)

theorem updateLink_agrees (l : LinkNo) (c : LinkConfig) (r b o : Nat) (s : State) :
    Agrees Field.binding s (updateLink l c r b o s) := by
  unfold updateLink
  dsimp only
  split
  · exact ((setLink_agrees ..).mono (by decide)).step (setBucket_agrees ..)
  · exact (((setLink_agrees ..).mono (by decide)).step (setBucket_agrees ..)).step (presentUncovered_agrees _)

theorem takeSetCrane_agrees (l : Nat) (x : Sid) (pf : Nat) (p : Sid) (h per lt lp hd r b o : Nat) (s : State) :
    Agrees Field.binding s (takeSetCrane l x pf p h per lt lp hd r b o s).state := by
  unfold takeSetCrane
  split
  · split
    · exact .refl _ s
    · split
      · exact .refl _ s
      · dsimp only
        split
        · unfold takeBinding
          split
          · exact .refl _ s
          · split
            · exact .refl _ s
            · split
              · exact .refl _ s
              · exact .refl _ s
              · rename_i hb
                exact ((bindStation_agrees hb).mono (by decide)).step (bindLink_agrees ..)
        · split
          · exact updateLink_agrees ..
          · exact .refl _ s
  · exact .refl _ s

theorem takeClearCrane_agrees (l : Nat) (s : State) : Agrees Field.binding s (takeClearCrane l s).state := by
  unfold takeClearCrane
  split
  · split
    · exact .refl _ s
    · show Agrees Field.binding s (unbindLink _ s)
      unfold unbindLink
      dsimp only
      split
      · exact ((((sendSpanFor_agrees ..).mono (by decide)).step (unbindStation_agrees ..)).step
          (setLink_agrees ..)).step (presentUncovered_agrees _)
      · exact (((unbindStation_agrees ..).mono (by decide)).step (setLink_agrees ..)).step
          (presentUncovered_agrees _)
  · exact .refl _ s

theorem takeReadCrane_agrees (l c : Nat) (s : State) :
    Agrees [.links, .freeUse] s (takeReadCrane l c s).state := by
  unfold takeReadCrane
  split
  · dsimp only
    have h : ∀ x y : State, Agrees [.links, .freeUse] s x → Agrees [.links, .freeUse] s y →
        Agrees [.links, .freeUse] s (if flagSet c then x else y) := by
      intro x y hx hy; split <;> assumption
    have g := h _ s ((linkCounts_agrees ⟨l, by assumption⟩ (fun _ => LinkCounts.zero) s).mono (by decide)) (.refl _ s)
    split
    · exact g
    · show Agrees _ s (if _ then _ else _)
      split
      · exact g.step (useFree_agrees ..)
      · exact g
  · exact .refl _ s

theorem setShadow_agrees (b : Bank) (s : State) : Agrees [.cvm] s (s.setCvm (s.cvm.setShadow b)) := setCvm_agrees ..

theorem takeSetWindow_agrees (a b c d e f : Nat) (s : State) :
    Agrees [.cvm] s (takeSetWindow a b c d e f s).state := by
  unfold takeSetWindow
  split
  · exact .refl _ s
  · split
    · exact .refl _ s
    · exact setCvm_agrees ..

theorem takeStreamCells_agrees (c n : Nat) (v : List CellValue) (s : State) :
    Agrees [.cvm] s (takeStreamCells c n v s).state := by
  unfold takeStreamCells
  split
  · exact .refl _ s
  · exact setCvm_agrees ..

theorem takeReadCells_agrees (b c n room : Nat) (s : State) :
    Agrees [.cvm] s (takeReadCells b c n room s).state := by
  unfold takeReadCells
  split
  · exact .refl _ s
  · split
    · exact .refl _ s
    · dsimp only
      split
      · exact .refl _ s
      · exact setCvm_agrees ..

theorem takeSetReefer_agrees (a b c d e f g h : Nat) (s : State) :
    Agrees [.rcn] s (takeSetReefer a b c d e f g h s).state := by
  unfold takeSetReefer
  dsimp only
  split
  · exact setRcn_agrees ..
  · exact .refl _ s

theorem takeReadReefer_agrees (x : Sid) (s : State) : Agrees [] s (takeReadReefer x s).state := by
  unfold takeReadReefer
  split <;> exact .refl _ s

theorem takeListReefers_agrees (a f room : Nat) (s : State) : Agrees [] s (takeListReefers a f room s).state := by
  unfold takeListReefers
  split
  · exact .refl _ s
  · exact listResult_agrees ..

theorem takeForgetReefer_agrees (x : Sid) (s : State) : Agrees Field.reefers s (takeForgetReefer x s).state := by
  unfold takeForgetReefer
  split
  · exact .refl _ s
  · exact (((setRcn_agrees ..).mono (by decide)).step (rcnStats_agrees ..)).step (removeReefer_agrees ..)

theorem takeSetRate_agrees (k i w r b o : Nat) (s : State) : Agrees [.fsq] s (takeSetRate k i w r b o s).state := by
  unfold takeSetRate
  split
  · exact .refl _ s
  · split
    · exact .refl _ s
    · split
      · exact .refl _ s
      · show Agrees _ s (writeRate _ _ _ _ s)
        unfold writeRate
        dsimp only
        split
        · exact setBucket_agrees ..
        · exact (setBucket_agrees ..).step (select_agrees ..)

theorem takeSetQueue_agrees (p q l : Nat) (s : State) : Agrees [.fsq] s (takeSetQueue p q l s).state := by
  unfold takeSetQueue
  split
  · exact setQueues_agrees ..
  · exact .refl _ s

theorem takeSetSched_agrees (p b d : Nat) (s : State) : Agrees [.fsq] s (takeSetSched p b d s).state := by
  unfold takeSetSched
  split
  · exact .refl _ s
  · exact setQueues_agrees ..

theorem takeSetReserve_agrees (r c : Nat) (s : State) : Agrees Field.store s (takeSetReserve r c s).state := by
  show Agrees _ s (presentPoolLow (if _ then _ else _))
  split
  · exact (((setFsq_agrees ..).step (setFsq_agrees ..)).mono (by decide)).step (presentPoolLow_agrees _)
  · exact ((setFsq_agrees ..).mono (by decide)).step (presentPoolLow_agrees _)

theorem takeReadCounters_agrees (x c room : Nat) (s : State) :
    Agrees [.ctb] s (takeReadCounters x c room s).state := by
  unfold takeReadCounters
  split
  · exact .refl _ s
  · split
    · exact .refl _ s
    · split
      · exact .refl _ s
      · dsimp only
        split
        · exact setCtb_agrees ..
        · exact .refl _ s

theorem writeNotice_agrees (m : Option Bool) (x : Nat) (k : SourceNo) (s : State) :
    Agrees Field.reports s (writeNotice m x k s) := by
  unfold writeNotice
  dsimp only
  split
  · split
    · exact ((setSource_agrees ..).mono (by decide)).step (issue_agrees ..)
    · exact ((setSource_agrees ..).mono (by decide)).step (issue_agrees ..)
  · split <;> exact (setSource_agrees ..).mono (by decide)

theorem takeSetNotice_agrees (x m l : Nat) (s : State) : Agrees Field.reports s (takeSetNotice x m l s).state := by
  unfold takeSetNotice
  split
  · exact Agrees.foldl (fun t k => writeNotice_agrees _ l k t) _ s
  · exact .refl _ s

theorem issueAll_agrees (s : State) : Agrees Field.reports s (issueAll s) :=
  Agrees.foldl (fun t k => issue_agrees k t) _ s

theorem takeSetNoticeDest_agrees (p : Nat) (x : Sid) (t b h : Nat) (s : State) :
    Agrees Field.reports s (takeSetNoticeDest p x t b h s).state := by
  unfold takeSetNoticeDest
  split
  · exact .refl _ s
  · have k : ∀ (b : Bool) (n : Ntu), Agrees Field.reports s (if b then issueAll (s.setNtu n) else s.setNtu n) := by
      intro b n
      split
      · exact ((setNtu_agrees ..).mono (by decide)).step (issueAll_agrees _)
      · exact (setNtu_agrees ..).mono (by decide)
    exact k _ _

theorem takeReadNotice_agrees (x c : Nat) (s : State) : Agrees [.ntu] s (takeReadNotice x c s).state := by
  unfold takeReadNotice
  split
  · exact .refl _ s
  · split
    · exact .refl _ s
    · show Agrees _ s (if _ then _ else _)
      split
      · exact setNtu_agrees ..
      · exact .refl _ s

theorem clearSource_agrees (k : SourceNo) (s : State) : Agrees [.ntu] s (clearSource k s) := by
  unfold clearSource
  split
  · exact .refl _ s
  · exact setSource_agrees ..

theorem takeClearNotice_agrees (x : Nat) (s : State) : Agrees [.ntu] s (takeClearNotice x s).state := by
  unfold takeClearNotice
  split
  · exact .refl _ s
  · exact Agrees.foldl (fun t k => clearSource_agrees k t) _ s

/-! ### The commands -/

/-- A command that a queue took as its own event answers a next state, and leaves alone what it may not touch. -/
theorem taken_agrees {c : List Field} {i : Instr} {run : Nat → State → Taken} {s t : State} (a : List Field)
    (h : ∀ room, Agrees a s (run room s).state) (ac : a ++ Field.agent ⊆ c)
    (e : (Host.Outcome.next (takeCommand i run s) : Outcome) = .next t) : Agrees c s t := by
  cases e
  exact takeCommand_agrees (fun room => (h room).mono (fun _ m => ac (List.mem_append_left _ m)))
    (fun _ m => ac (List.mem_append_right _ m))

/-- A command leaves every field alone that it may not touch. -/
theorem exec_agrees (i : Instr) {s t : State} (h : exec i s = .next t) : Agrees (Instr.touches i) s t := by
  cases i with
  | powerOnReset => cases h; exact hardValues_agrees ..
  | pinReset => cases h; exact hardValues_agrees ..
  | resetEnd m a =>
    dsimp only [Instr.touches]
    cases h
    show Agrees _ s (if _ then _ else _)
    split
    · exact hardValues_agrees ..
    · exact .refl _ s
  | initializationEnd =>
    dsimp only [Instr.touches]
    cases h
    show Agrees _ s (if _ then _ else _)
    split
    · exact (((setPart_agrees ..).mono (by decide)).step (startTimers_agrees _)).step (presentAll_agrees _)
    · exact .refl _ s
  | restartInitializationEnd =>
    dsimp only [Instr.touches]
    cases h
    show Agrees _ s (if _ then _ else _)
    split
    · exact ((((setPart_agrees ..).mono (by decide)).step (startTimers_agrees _)).step
        (restartCellChecks_agrees _)).step (presentAll_agrees _)
    · exact .refl _ s
  | phyLossOfLink p => cases h; exact changePort_agrees ..
  | phyLinkReport p => cases h; exact changePort_agrees ..
  | sttLinkDown p =>
    dsimp only [Instr.touches]
    cases h
    show Agrees _ s (if _ then _ else _)
    split
    · dsimp only
      split
      · exact (setFlight_agrees ..).mono (by decide)
      · exact ((setFlight_agrees ..).mono (by decide)).step (stationLinkDown_agrees ..)
    · exact .refl _ s
  | clsLinkDown l p =>
    dsimp only [Instr.touches]
    change execClsLinkDown l p s = _ at h
    unfold execClsLinkDown at h
    split at h <;> cases h
    · exact .refl _ s
    · rename_i s1 e
      exact (((takeLinkEvent_agrees e).mono (by decide)).step (linkDownAt_agrees ..)).step (presentUncovered_agrees _)
  | clsLinkUp l p =>
    dsimp only [Instr.touches]
    change execClsLinkUp l p s = _ at h
    unfold execClsLinkUp at h
    split at h <;> cases h
    · exact .refl _ s
    · rename_i s1 e
      exact (((takeLinkEvent_agrees e).mono (by decide)).step (linkUpAt_agrees ..)).step (presentUncovered_agrees _)
  | fsqLinkDown p =>
    dsimp only [Instr.touches]
    cases h
    show Agrees _ s (if _ then _ else _)
    split
    · exact ((setFlight_agrees ..).mono (by decide)).step (discardPort_agrees ..)
    · exact .refl _ s
  | frameReceived p b =>
    dsimp only [Instr.touches]
    change execFrameReceived p b s = _ at h
    unfold execFrameReceived at h
    split at h <;> cases h
    · exact .refl _ s
    · exact .refl _ s
    · exact (addDrop_agrees ..).mono (by decide)
    · exact receiveFrame_agrees ..
  | addSpan g =>
    dsimp only [Instr.touches]
    change execAddSpan g s = _ at h
    unfold execAddSpan at h
    split at h <;> cases h
    · exact .refl _ s
    · rename_i s1 e
      exact ((takeSpan_agrees e).mono (by decide)).step (setCvm_agrees ..)
  | removeSpan g =>
    dsimp only [Instr.touches]
    change execRemoveSpan g s = _ at h
    unfold execRemoveSpan at h
    split at h <;> cases h
    · exact .refl _ s
    · rename_i s1 e
      exact ((takeSpan_agrees e).mono (by decide)).step (setCvm_agrees ..)
  | coverageEpochExpiry =>
    dsimp only [Instr.touches]
    change execCoverageEpochExpiry s = _ at h
    unfold execCoverageEpochExpiry at h
    split at h <;> cases h
    · exact .refl _ s
    · split
      · exact ((setCvm_agrees ..).mono (by decide)).step (swapMap_agrees _)
      · exact (setCvm_agrees ..).mono (by decide)
  | mapSwappedReevaluation l =>
    dsimp only [Instr.touches]
    cases h
    show Agrees _ s (if _ then _ else _)
    split
    · exact ((setFlight_agrees ..).mono (by decide)).step (reevaluate_agrees ..)
    · exact .refl _ s
  | supervisionExpiry l =>
    dsimp only [Instr.touches]
    change execSupervisionExpiry l s = _ at h
    unfold execSupervisionExpiry at h
    split at h <;> cases h
    · exact .refl _ s
    · exact superviseLink_agrees ..
  | holdExpiry l =>
    dsimp only [Instr.touches]
    change execHoldExpiry l s = _ at h
    unfold execHoldExpiry at h
    split at h <;> cases h
    · exact .refl _ s
    · exact (((setLink_agrees ..).mono (by decide)).step (raise_agrees ..)).step (presentUncovered_agrees _)
  | agingTimerExpiry =>
    dsimp only [Instr.touches]
    change execAgingTimerExpiry s = _ at h
    unfold execAgingTimerExpiry at h
    split at h <;> cases h
    · exact .refl _ s
    · split
      · exact ((setStt_agrees ..).step (setStt_agrees ..)).mono (by decide)
      · split
        · exact ((setStt_agrees ..).step (setStt_agrees ..)).mono (by decide)
        · exact (((setStt_agrees ..).step (sttStats_agrees ..)).mono (by decide)).step (raise_agrees ..)
  | agingSweepVisit =>
    dsimp only [Instr.touches]
    change execAgingSweepVisit s = _ at h
    unfold execAgingSweepVisit at h
    split at h <;> cases h
    · exact .refl _ s
    · exact (ageAt_agrees ..).step (advanceAging_agrees ..)
  | purgeWalkVisit =>
    dsimp only [Instr.touches]
    change execPurgeWalkVisit s = _ at h
    unfold execPurgeWalkVisit at h
    split at h <;> cases h
    · exact .refl _ s
    · exact (purgeAt_agrees ..).step (advancePurge_agrees ..)
  | reportPeriodExpiry =>
    dsimp only [Instr.touches]
    change execReportPeriodExpiry s = _ at h
    unfold execReportPeriodExpiry at h
    split at h <;> cases h
    · exact .refl _ s
    · split
      · exact ((setRcn_agrees ..).step (setRcn_agrees ..)).mono (by decide)
      · split
        · exact ((setRcn_agrees ..).step (setRcn_agrees ..)).mono (by decide)
        · exact (((setRcn_agrees ..).step (rcnStats_agrees ..)).mono (by decide)).step (raise_agrees ..)
  | supervisionSweepVisit =>
    dsimp only [Instr.touches]
    change execSupervisionSweepVisit s = _ at h
    unfold execSupervisionSweepVisit at h
    split at h <;> cases h
    · exact .refl _ s
    · split
      · exact (advanceReeferSweep_agrees ..).mono (by decide)
      · exact (visitReefer_agrees ..).step (advanceReeferSweep_agrees ..)
  | batchTimerExpiry =>
    dsimp only [Instr.touches]
    change execBatchTimerExpiry s = _ at h
    unfold execBatchTimerExpiry at h
    split at h <;> cases h
    · exact .refl _ s
    · split
      · exact (setRcn_agrees ..).mono (by decide)
      · exact ((setRcn_agrees ..).mono (by decide)).step (swapDue_agrees _)
  | enqueue k =>
    dsimp only [Instr.touches]
    change execEnqueue k s = _ at h
    unfold execEnqueue at h
    split at h <;> cases h
    · exact .refl _ s
    · exact ((setFlight_agrees ..).mono (by decide)).step (takeEnqueue_agrees ..)
  | transmissionEnd p =>
    dsimp only [Instr.touches]
    change execTransmissionEnd p s = _ at h
    unfold execTransmissionEnd at h
    split at h <;> cases h
    · exact .refl _ s
    · split
      · exact (setQueues_agrees ..).mono (by decide)
      · exact endTransmission_agrees ..
  | refillExpiry b =>
    dsimp only [Instr.touches]
    cases h
    show Agrees _ s (if _ then _ else _)
    split
    · dsimp only
      split
      · exact setBucket_agrees ..
      · exact (setBucket_agrees ..).step (select_agrees ..)
    · exact .refl _ s
  | holdoffExpiry k =>
    dsimp only [Instr.touches]
    change execHoldoffExpiry k s = _ at h
    unfold execHoldoffExpiry at h
    split at h <;> cases h
    · exact .refl _ s
    · exact ((setSource_agrees ..).mono (by decide)).step (issue_agrees ..)
  | commandFrameTake =>
    dsimp only [Instr.touches]
    change execCommandFrameTake s = _ at h
    unfold execCommandFrameTake at h
    split at h <;> cases h
    · exact ((setMga_agrees ..).mono (by decide)).step (beginFrame_agrees ..)
    · exact .refl _ s
  | ident => exact taken_agrees [] (fun _ => .refl _ s) (by dsimp only [Instr.touches]; decide) h
  | setIdent x => exact taken_agrees _ (fun _ => takeSetIdent_agrees x s) (by dsimp only [Instr.touches]; decide) h
  | setPort p m q o => exact taken_agrees _ (fun _ => takeSetPort_agrees p m q o s) (by dsimp only [Instr.touches]; decide) h
  | setGroup g b m v => exact taken_agrees _ (fun _ => takeSetGroup_agrees g b m v s) (by dsimp only [Instr.touches]; decide) h
  | setClass g c b m v d o => exact taken_agrees _ (fun _ => takeSetClass_agrees g c b m v d o s) (by dsimp only [Instr.touches]; decide) h
  | readClass g c => exact taken_agrees _ (fun _ => takeReadClass_agrees g c s) (by dsimp only [Instr.touches]; decide) h
  | setDomain d e t x q => exact taken_agrees _ (fun _ => takeSetDomain_agrees d e t x q s) (by dsimp only [Instr.touches]; decide) h
  | readDomain d => exact taken_agrees _ (fun _ => takeReadDomain_agrees d s) (by dsimp only [Instr.touches]; decide) h
  | setStation x p => exact taken_agrees _ (fun _ => takeSetStation_agrees x p s) (by dsimp only [Instr.touches]; decide) h
  | clearStation x => exact taken_agrees _ (fun _ => takeClearStation_agrees x s) (by dsimp only [Instr.touches]; decide) h
  | readStation x => exact taken_agrees _ (fun _ => takeReadStation_agrees x s) (by dsimp only [Instr.touches]; decide) h
  | listStations c a => exact taken_agrees _ (fun room => takeListStations_agrees c a room s) (by dsimp only [Instr.touches]; decide) h
  | setLearning m p c => exact taken_agrees _ (fun _ => takeSetLearning_agrees m p c s) (by dsimp only [Instr.touches]; decide) h
  | setCrane l x pf p hm per lt lp hd r b o =>
    dsimp only [Instr.touches]
    exact taken_agrees _ (fun _ => takeSetCrane_agrees l x pf p hm per lt lp hd r b o s) (by decide) h
  | clearCrane l =>
    dsimp only [Instr.touches]
    refine taken_agrees [.stt, .links, .ntu, .ctb, .flight] (fun _ => ?_) (by decide) h
    unfold takeClearCrane
    split
    · split
      · exact .refl _ s
      · show Agrees _ s (unbindLink _ s)
        unfold unbindLink
        dsimp only
        split
        · exact ((((sendSpanFor_agrees ..).mono (by decide)).step (unbindStation_agrees ..)).step
            (setLink_agrees ..)).step (presentUncovered_agrees _)
        · exact (((unbindStation_agrees ..).mono (by decide)).step (setLink_agrees ..)).step
            (presentUncovered_agrees _)
    · exact .refl _ s
  | readCrane l c => exact taken_agrees _ (fun _ => takeReadCrane_agrees l c s) (by dsimp only [Instr.touches]; decide) h
  | setGeometry o l y => exact taken_agrees [.cvm] (fun _ => setCvm_agrees ..) (by dsimp only [Instr.touches]; decide) h
  | setWindow a b c d e f => exact taken_agrees _ (fun _ => takeSetWindow_agrees a b c d e f s) (by dsimp only [Instr.touches]; decide) h
  | streamCells c n v => exact taken_agrees _ (fun _ => takeStreamCells_agrees c n v s) (by dsimp only [Instr.touches]; decide) h
  | readCells b c n => exact taken_agrees _ (fun room => takeReadCells_agrees b c n room s) (by dsimp only [Instr.touches]; decide) h
  | copyActive => exact taken_agrees [.cvm] (fun _ => setCvm_agrees ..) (by dsimp only [Instr.touches]; decide) h
  | commitMap =>
    dsimp only [Instr.touches]
    change execCommitMap s = _ at h
    unfold execCommitMap at h
    split at h <;> cases h
    · exact .refl _ s
    · exact ((setCvm_agrees ..).mono (by decide)).step (setMga_agrees ..)
  | setEpoch p => exact taken_agrees [.cvm] (fun _ => setCvm_agrees ..) (by dsimp only [Instr.touches]; decide) h
  | setReefer a b c d e f g y => exact taken_agrees _ (fun _ => takeSetReefer_agrees a b c d e f g y s) (by dsimp only [Instr.touches]; decide) h
  | readReefer x => exact taken_agrees _ (fun _ => takeReadReefer_agrees x s) (by dsimp only [Instr.touches]; decide) h
  | listReefers a f => exact taken_agrees _ (fun room => takeListReefers_agrees a f room s) (by dsimp only [Instr.touches]; decide) h
  | forgetReefer x => exact taken_agrees _ (fun _ => takeForgetReefer_agrees x s) (by dsimp only [Instr.touches]; decide) h
  | setRate k i w r b o => exact taken_agrees _ (fun _ => takeSetRate_agrees k i w r b o s) (by dsimp only [Instr.touches]; decide) h
  | setQueue p q l => exact taken_agrees _ (fun _ => takeSetQueue_agrees p q l s) (by dsimp only [Instr.touches]; decide) h
  | setSched p b d => exact taken_agrees _ (fun _ => takeSetSched_agrees p b d s) (by dsimp only [Instr.touches]; decide) h
  | setReserve r c => exact taken_agrees _ (fun _ => takeSetReserve_agrees r c s) (by dsimp only [Instr.touches]; decide) h
  | readCounters x c => exact taken_agrees _ (fun room => takeReadCounters_agrees x c room s) (by dsimp only [Instr.touches]; decide) h
  | setNotice x m l => exact taken_agrees _ (fun _ => takeSetNotice_agrees x m l s) (by dsimp only [Instr.touches]; decide) h
  | setNoticeDest p x t b y => exact taken_agrees _ (fun _ => takeSetNoticeDest_agrees p x t b y s) (by dsimp only [Instr.touches]; decide) h
  | readNotice x c => exact taken_agrees _ (fun _ => takeReadNotice_agrees x c s) (by dsimp only [Instr.touches]; decide) h
  | clearNotice x => exact taken_agrees _ (fun _ => takeClearNotice_agrees x s) (by dsimp only [Instr.touches]; decide) h
  | restart =>
    dsimp only [Instr.touches]
    change execRestart s = _ at h
    unfold execRestart at h
    split at h <;> cases h
    · exact .refl _ s
    · split
      · exact completeCommand_restart_agrees ..
      · exact (completeCommand_agrees ..).mono (by decide)
  | secondsCounterTick =>
    dsimp only [Instr.touches]
    cases h
    show Agrees _ s (if _ then _ else _)
    have k : ∀ n m, Agrees [.seconds, .freeUse] s { s with seconds := n, freeUse := m } := by
      refine fun n m => ⟨?_⟩; intro f hf; cases f <;> first | rfl | exact absurd (by decide) hf
    split
    · exact .refl _ s
    · split
      · exact k _ _
      · exact k _ _

end Sys2Proof.Machine
end

