-- ==== Sys2Proof/Laws/Commands.lean ====
section
/-! SUPPORT. What taking a management command comes to: where the agent has come to the command, the owner's effect
and the end of the command; where it has not, nothing. -/

namespace Sys2Proof.Machine

theorem executionAt_of_awaits {i : Instr} {s : State} {e : Execution} (h : Awaits s e i) :
    executionAt i s = some e := by
  obtain ⟨h1, h2⟩ := h
  simp [executionAt, h1, h2]

/-- A command that the agent has come to is taken: its owner's effect, then its end. -/
theorem takeCommand_of_awaits {i : Instr} {run : Nat → State → Taken} {s : State} {e : Execution}
    (h : Awaits s e i) :
    takeCommand i run s =
      completeCommand false e (run e.room s).status (run e.room s).result (run e.room s).state := by
  simp [takeCommand, executionAt_of_awaits h]

/-- A command that the agent has not come to changes nothing (log 8). -/
theorem takeCommand_of_not_awaits {i : Instr} {run : Nat → State → Taken} {s : State}
    (h : ∀ e, ¬Awaits s e i) : takeCommand i run s = s := by
  have : executionAt i s = none := by
    unfold executionAt
    split
    · rename_i e he
      split
      · rename_i hi
        exact absurd ⟨he, hi⟩ (h e)
      · rfl
    all_goals rfl
  simp [takeCommand, this]

/-- A frame whose every command has its entry is settled. -/
theorem Execution.settle_of_complete (n : Nat) {e : Execution} (h : e.count ≤ e.entries.length) :
    e.settle n = e := by cases n <;> simp [Execution.settle, h]

/-- A frame that has come to a command that an owner takes is settled. -/
theorem Execution.settle_of_awaited (n : Nat) {e : Execution} (h : e.awaited.isSome = true) : e.settle n = e := by
  cases n with
  | zero => rfl
  | succ n =>
    unfold Execution.awaited at h
    unfold Execution.settle
    split at h
    · cases h
    · rename_i hc
      rw [if_neg hc]
      split at h
      · rename_i hu; rw [hu]
      all_goals cases h

@[simp] theorem Execution.push_count (e : Execution) (st : Status) (r : List Byte) : (e.push st r).count = e.count :=
  rfl

@[simp] theorem Execution.push_entries (e : Execution) (st : Status) (r : List Byte) :
    (e.push st r).entries = e.entries ++ [⟨e.code, st, r⟩] := rfl

@[simp] theorem Execution.push_room (e : Execution) (st : Status) (r : List Byte) :
    (e.push st r).room = e.room - r.length := rfl

/-- Settling a frame for at most the number of its missing entries ends with every entry or at a command that an
owner takes. -/
theorem Execution.settle_ends (n : Nat) (e : Execution) (h : e.count ≤ e.entries.length + n) :
    (e.settle n).count ≤ (e.settle n).entries.length ∨ (e.settle n).awaited.isSome = true := by
  induction n generalizing e with
  | zero => exact .inl h
  | succ n ih =>
    unfold Execution.settle
    split
    · rename_i hc; exact .inl hc
    · rename_i hc
      have hp : ∀ st, (e.push st []).count ≤ (e.push st []).entries.length + n := by
        intro st; simp; omega
      split
      · exact ih _ (hp _)
      · exact ih _ (hp _)
      · exact ih _ (hp _)
      · rename_i i hu
        refine .inr ?_
        simp [Execution.awaited, hc, hu]

/-! ### What a frame holds next -/

/-- A payload that holds a whole command next (R169). -/
theorem Execution.whole_of_rest (e : Execution) {code n : Byte} {args more : List Byte}
    (h : e.rest = code :: n :: (args ++ more)) (hl : args.length = n.toNat) : e.whole = some (code, args, more) := by
  unfold Execution.whole
  rw [h]
  simp only []
  rw [if_pos (by rw [List.length_append]; omega), ← hl]
  simp

theorem Status.fails_iff (st : Status) : (st.fails = true ↔ st ≠ .ok ∧ st ≠ .clamped ∧ st ≠ .partialFit) := by
  cases st <;> simp [Status.fails]

/-- What the agent finds next where the payload holds a whole command (R169). -/
theorem Execution.upcoming_of_rest (e : Execution) {code n : Byte} {args more : List Byte}
    (h : e.rest = code :: n :: (args ++ more)) (hl : args.length = n.toNat)
    (hs : ¬(e.stopOnError = true ∧ e.failed = true)) :
    e.upcoming = match Decode.command code args with
        | .badCode => .badCode
        | .short => .short
        | .command i => .command i := by
  have hw := Execution.whole_of_rest e h hl
  have hs' : (e.stopOnError && e.failed) = false := by simpa using hs
  cases hd : Decode.command code args <;> simp [Execution.upcoming, hs', hw, hd]

theorem Execution.awaited_of_upcoming (e : Execution) (h : e.entries.length < e.count) {i : Instr}
    (hu : e.upcoming = .command i) : e.awaited = some i := by
  unfold Execution.awaited
  rw [if_neg (by omega), hu]

theorem Execution.settle_of_command (n : Nat) (e : Execution) {i : Instr} (hu : e.upcoming = .command i) :
    e.settle n = e := by
  cases n with
  | zero => rfl
  | succ n => unfold Execution.settle; rw [hu]; split <;> rfl

/-- What every entry without a result keeps, settling keeps (R169). -/
theorem Execution.settle_preserves (P : Execution → Prop)
    (h1 : ∀ e st, (st = .short ∨ st = .badCode ∨ st = .skipped) → P e → e.entries.length < e.count →
      P (e.push st [])) : ∀ n e, P e → P (e.settle n) := by
  intro n
  induction n with
  | zero => exact fun e h => h
  | succ n ih =>
    intro e h
    unfold Execution.settle
    split
    · exact h
    · split
      · exact ih _ (h1 e _ (by simp) h (by omega))
      · exact ih _ (h1 e _ (by simp) h (by omega))
      · exact ih _ (h1 e _ (by simp) h (by omega))
      · exact h

end Sys2Proof.Machine
end

