-- ==== Sys2Proof/Laws/Reports.lean ====
section
/-! SUPPORT. Counting and reporting change the notice unit, the counters and the enqueues in flight alone: one lemma
for each operation that counts a drop, moves a per-port counter or tells the notice unit of an event. -/

namespace Sys2Proof.Machine

theorem ReportsOnly.refl (s : State) : ReportsOnly s s := rfl

theorem ReportsOnly.trans {s t u : State} (h : ReportsOnly s t) (g : ReportsOnly t u) : ReportsOnly s u := by
  unfold ReportsOnly at h g ⊢
  rw [g, h]

theorem setCounter_reportsOnly (p : Port) (c : Fin 12) (x : Counter) (s : State) :
    ReportsOnly s (s.setCounter p c x) := rfl

theorem setSource_reportsOnly (k : SourceNo) (x : Source) (s : State) : ReportsOnly s (s.setSource k x) := rfl

theorem setNtu_reportsOnly (n : Ntu) (s : State) : ReportsOnly s (s.setNtu n) := rfl

theorem handOff_reportsOnly (r : EnqueueRequest) (s : State) : ReportsOnly s (handOff r s) := rfl

theorem addDrop_reportsOnly (r : Fin 20) (n : Nat) (s : State) : ReportsOnly s (addDrop r n s) := rfl

theorem countPort_reportsOnly (p : Port) (c : Fin 12) (n : Nat) (s : State) :
    ReportsOnly s (countPort p c n s).1 := by
  simp only [countPort]
  split
  · exact setCounter_reportsOnly p c _ s
  · exact (setCounter_reportsOnly p c _ s).trans (setSource_reportsOnly _ _ _)

theorem issueWith_reportsOnly {f : Port → Fin 12 → Nat → State → State}
    (hf : ∀ p c n s, ReportsOnly s (f p c n s)) (k : SourceNo) (s : State) : ReportsOnly s (issueWith f k s) := by
  simp only [issueWith]
  split
  · exact .refl s
  · split
    · exact handOff_reportsOnly _ s
    · exact ((setNtu_reportsOnly _ s).trans (addDrop_reportsOnly _ _ _)).trans (hf _ _ _ _)

theorem bumpFuel_reportsOnly (fuel : Nat) (p : Port) (c : Fin 12) (n : Nat) (s : State) :
    ReportsOnly s (bumpFuel fuel p c n s) := by
  induction fuel generalizing p c n s with
  | zero => exact countPort_reportsOnly p c n s
  | succ fuel ih =>
    simp only [bumpFuel]
    split
    · exact (countPort_reportsOnly p c n s).trans (issueWith_reportsOnly ih _ _)
    · exact countPort_reportsOnly p c n s

theorem bump_reportsOnly (p : Port) (c : Fin 12) (n : Nat) (s : State) : ReportsOnly s (bump p c n s) :=
  bumpFuel_reportsOnly 2 p c n s

theorem issue_reportsOnly (k : SourceNo) (s : State) : ReportsOnly s (issue k s) :=
  issueWith_reportsOnly bump_reportsOnly k s

theorem raise_reportsOnly (k : SourceNo) (d : Detail) (s : State) : ReportsOnly s (raise k d s) := by
  simp only [raise]
  split
  · exact (setSource_reportsOnly k _ s).trans (issue_reportsOnly k _)
  · exact setSource_reportsOnly k _ s

theorem present_reportsOnly (k : SourceNo) (condition : Bool) (s : State) : ReportsOnly s (present k condition s) := by
  simp only [present]
  split
  · split
    · exact setSource_reportsOnly k _ s
    · exact (setSource_reportsOnly k _ s).trans (issue_reportsOnly k _)
  · split
    · exact setSource_reportsOnly k _ s
    · exact .refl s

theorem portDownDrop_reportsOnly (p : Port) (s : State) : ReportsOnly s (portDownDrop p s) :=
  (addDrop_reportsOnly _ _ s).trans (bump_reportsOnly _ _ _ _)

/-! ## What each operation does to a source and a counter -/

theorem addDrop_source (r : Fin 20) (n : Nat) (s : State) (k : SourceNo) :
    (addDrop r n s).source k = s.source k := rfl

theorem addDrop_counter (r : Fin 20) (n : Nat) (s : State) (p : Port) (c : Fin 12) :
    (addDrop r n s).counter p c = s.counter p c := rfl

/-- Only COUNTER-WRAP is told of anything when a per-port counter rises. -/
theorem countPort_source (p : Port) (c : Fin 12) (n : Nat) (s : State) (k : SourceNo) (hk : k ≠ 22) :
    (countPort p c n s).1.source k = s.source k := by
  simp only [countPort]
  split
  · rfl
  · exact State.source_setSource_of_ne _ _ hk

theorem issueWith_source {f : Port → Fin 12 → Nat → State → State} {k : SourceNo}
    (hf : ∀ p c n s, (f p c n s).source k = s.source k) (j : SourceNo) (s : State) :
    (issueWith f j s).source k = s.source k := by
  simp only [issueWith]
  split
  · rfl
  · split
    · rfl
    · rw [hf]; rfl

theorem bump_source (p : Port) (c : Fin 12) (n : Nat) (s : State) (k : SourceNo) (hk : k ≠ 22) :
    (bump p c n s).source k = s.source k := by
  have h0 : ∀ p c n s, (bumpFuel 0 p c n s).source k = s.source k := fun p c n s => countPort_source p c n s k hk
  have step : ∀ m, (∀ p c n s, (bumpFuel m p c n s).source k = s.source k) →
      ∀ p c n s, (bumpFuel (m + 1) p c n s).source k = s.source k := by
    intro m h p c n s
    have hc := countPort_source p c n s k hk
    show (if (countPort p c n s).2 then issueWith (bumpFuel m) Src.counterWrap (countPort p c n s).1
      else (countPort p c n s).1).source k = _
    split
    · exact (issueWith_source h _ _).trans hc
    · exact hc
  exact step 1 (step 0 h0) p c n s

theorem issue_source (j : SourceNo) (s : State) (k : SourceNo) (hk : k ≠ 22) :
    (issue j s).source k = s.source k := issueWith_source (fun p c n s => bump_source p c n s k hk) j s

theorem raise_source_of_ne {k j : SourceNo} (d : Detail) (s : State) (h : j ≠ k) (hj : j ≠ 22) :
    (raise k d s).source j = s.source j := by
  simp only [raise]
  split
  · rw [issue_source _ _ _ hj]; exact State.source_setSource_of_ne _ _ h
  · exact State.source_setSource_of_ne _ _ h

theorem present_source_of_ne {k j : SourceNo} (c : Bool) (s : State) (h : j ≠ k) (hj : j ≠ 22) :
    (present k c s).source j = s.source j := by
  simp only [present]
  split
  · split
    · exact State.source_setSource_of_ne _ _ h
    · rw [issue_source _ _ _ hj]; exact State.source_setSource_of_ne _ _ h
  · split
    · exact State.source_setSource_of_ne _ _ h
    · rfl

/-- A condition that has been presented stands in the source's pending (R158). -/
theorem present_pending {k : SourceNo} (c : Bool) (s : State) (hk : k ≠ 22) :
    ((present k c s).source k).pending = c := by
  simp only [present]
  split
  · split
    · rw [State.source_setSource]; simp_all
    · rw [issue_source _ _ _ hk, State.source_setSource]; simp_all
  · split
    · rw [State.source_setSource]; simp_all
    · cases c <;> simp_all

end Sys2Proof.Machine
end

