-- ==== Sys2Proof/Laws/Counts.lean ====
section
/-! SUPPORT. What counting and reporting can do, once for each operation: which sources, which counters and which drop
reasons it leaves, that it hands on notice frames alone, and what the operation itself counts. -/

set_option Elab.async false

namespace Sys2Proof.Machine

theorem HandsOnNotices.refl (s : State) : HandsOnNotices s s := ⟨[], by simp, by simp⟩

theorem HandsOnNotices.trans {s t u : State} (h : HandsOnNotices s t) (g : HandsOnNotices t u) :
    HandsOnNotices s u := by
  obtain ⟨a, ha, ha'⟩ := h
  obtain ⟨b, hb, hb'⟩ := g
  refine ⟨a ++ b, by rw [hb, ha, List.append_assoc], ?_⟩
  intro r hr
  exact (List.mem_append.1 hr).elim (ha' r) (hb' r)

theorem HandsOnNotices.of_eq {s t : State} (h : t.flight.enqueues = s.flight.enqueues) : HandsOnNotices s t :=
  ⟨[], by simpa using h, by simp⟩

/-- What a count or a report can change beside what it counts itself: COUNTER-WRAP, where a counter wraps, and the
port-down counts and the statistics of a notice frame that is lost. -/
structure Noted (s t : State) : Prop where
  sources  : ∀ k, k ≠ 22 → t.source k = s.source k
  counters : ∀ q k, k ≠ 10 → t.counter q k = s.counter q k
  drops    : ∀ r, r ≠ 9 → t.ctb.drops.get r = s.ctb.drops.get r
  dest     : t.ntu.dest = s.ntu.dest ∧ t.ntu.enqueued = s.ntu.enqueued
  handed   : HandsOnNotices s t
  frame    : ReportsOnly s t

theorem Noted.refl (s : State) : Noted s s :=
  ⟨fun _ _ => rfl, fun _ _ _ => rfl, fun _ _ => rfl, ⟨rfl, rfl⟩, .refl s, .refl s⟩

theorem Noted.trans {s t u : State} (h : Noted s t) (g : Noted t u) : Noted s u :=
  ⟨fun k hk => (g.sources k hk).trans (h.sources k hk), fun q k hk => (g.counters q k hk).trans (h.counters q k hk),
    fun r hr => (g.drops r hr).trans (h.drops r hr), ⟨g.dest.1.trans h.dest.1, g.dest.2.trans h.dest.2⟩,
    h.handed.trans g.handed, h.frame.trans g.frame⟩

/-! ### A counter that rises -/

theorem countPort_counter (p : Port) (c : Fin 12) (n : Nat) (s : State) (q : Port) (k : Fin 12) :
    (countPort p c n s).1.counter q k =
      if k = c ∧ q = p then
        ⟨((s.counter p c).value + n) % 4294967296,
          (s.counter p c).wrapped || decide (4294967295 < (s.counter p c).value + n)⟩
      else s.counter q k := by
  simp only [countPort]
  split
  · rename_i h
    have h' : (s.counter p c).value + n ≤ 4294967295 := h
    rw [State.counter_setCounter]
    rw [Nat.mod_eq_of_lt (by omega)]
    have : ¬ 4294967295 < (s.counter p c).value + n := by omega
    simp [this, and_comm]
  · rename_i h
    have h' : 4294967295 < (s.counter p c).value + n := Nat.lt_of_not_le h
    show ((s.setCounter p c _).counter q k) = _
    rw [State.counter_setCounter]
    simp [h', and_comm]
    rfl

/-- What a rising counter changes beside itself, before any notice frame: COUNTER-WRAP, where it wraps. -/
theorem countPort_ctb (p : Port) (c : Fin 12) (n : Nat) (s : State) :
    (countPort p c n s).1.ctb.drops = s.ctb.drops ∧ (countPort p c n s).1.flight = s.flight ∧
      (countPort p c n s).1.ntu.dest = s.ntu.dest ∧ (countPort p c n s).1.ntu.enqueued = s.ntu.enqueued ∧
      (countPort p c n s).1.ports = s.ports := by
  simp only [countPort]
  split <;> exact ⟨rfl, rfl, rfl, rfl, rfl⟩

theorem countPort_noted (p : Port) (n : Nat) (s : State) : Noted s (countPort p 10 n s).1 where
  sources := fun k hk => countPort_source p 10 n s k hk
  counters := fun q k hk => by rw [countPort_counter, if_neg (fun h => hk h.1)]
  drops := fun r _ => by rw [(countPort_ctb p 10 n s).1]
  dest := ⟨(countPort_ctb p 10 n s).2.2.1, (countPort_ctb p 10 n s).2.2.2.1⟩
  handed := .of_eq (by rw [(countPort_ctb p 10 n s).2.1])
  frame := countPort_reportsOnly p 10 n s

theorem addDrop_drops (r : Fin 20) (n : Nat) (s : State) (k : Fin 20) :
    (addDrop r n s).ctb.drops.get k = if k = r then min 4294967295 (s.ctb.drops.get r + n) else s.ctb.drops.get k :=
  vset_get ..

theorem addDrop_noted (n : Nat) (s : State) : Noted s (addDrop 9 n s) where
  sources := fun _ _ => rfl
  counters := fun _ _ _ => rfl
  drops := fun r hr => by rw [addDrop_drops, if_neg hr]
  dest := ⟨rfl, rfl⟩
  handed := .of_eq rfl
  frame := addDrop_reportsOnly 9 n s

theorem issueWith_noted {f : Port → Fin 12 → Nat → State → State} (hf : ∀ p n s, Noted s (f p 10 n s)) (k : SourceNo)
    (s : State) : Noted s (issueWith f k s) := by
  unfold issueWith
  split
  · exact .refl s
  · split
    · exact ⟨fun _ _ => rfl, fun _ _ _ => rfl, fun _ _ => rfl, ⟨rfl, rfl⟩,
        ⟨_, rfl, fun r hr => by rw [List.mem_singleton.1 hr]; exact ⟨rfl, rfl⟩⟩, handOff_reportsOnly _ s⟩
    · refine Noted.trans (t := s.setNtu { s.ntu with lost := countUp s.ntu.lost 1 }) ?_
        (Noted.trans (addDrop_noted 1 _) (hf _ _ _))
      exact ⟨fun _ _ => rfl, fun _ _ _ => rfl, fun _ _ => rfl, ⟨rfl, rfl⟩, .of_eq rfl, rfl⟩

theorem bumpFuel_noted (fuel : Nat) : ∀ p n s, Noted s (bumpFuel fuel p 10 n s) := by
  induction fuel with
  | zero => exact countPort_noted
  | succ fuel ih =>
    intro p n s
    unfold bumpFuel
    split
    · exact (countPort_noted p n s).trans (issueWith_noted ih _ _)
    · exact countPort_noted p n s

theorem issue_noted (k : SourceNo) (s : State) : Noted s (issue k s) := issueWith_noted (bumpFuel_noted 2) k s

/-- A counter that rises is counted, and then at most the notice frame of COUNTER-WRAP follows. -/
theorem bump_noted (p : Port) (c : Fin 12) (n : Nat) (s : State) : Noted (countPort p c n s).1 (bump p c n s) := by
  unfold bump bumpFuel
  split
  · exact issueWith_noted (bumpFuel_noted 1) _ _
  · exact .refl _

/-- An event at an edge source changes its record, and then at most its notice frame follows (R157, R159). -/
theorem raise_noted (k : SourceNo) (d : Detail) (s : State) :
    Noted (s.setSource k ((s.source k).event d)) (raise k d s) := by
  unfold raise
  dsimp only
  split
  · exact issue_noted k _
  · exact .refl _

/-- Where no notice frame is lost, issuing one hands it on and counts nothing (R159, R160). -/
theorem issueWith_ctb {f : Port → Fin 12 → Nat → State → State} (k : SourceNo) (s : State) (h : NoticesGoOut s) :
    (issueWith f k s).ctb = s.ctb ∧ (issueWith f k s).ntu = s.ntu := by
  unfold issueWith
  split
  · exact ⟨rfl, rfl⟩
  · rename_i d hd
    rw [if_pos (h.resolve_left (by simp [hd]))]
    exact ⟨rfl, rfl⟩

theorem NoticesGoOut.congr {s t : State} (h : NoticesGoOut s) (d : t.ntu.dest = s.ntu.dest) (p : t.ports = s.ports) :
    NoticesGoOut t := by
  unfold NoticesGoOut State.usable State.port at *
  rw [d, p]
  exact h

/-- Where no notice frame is lost, or the counter does not wrap, a rising counter is all that is counted. -/
theorem bump_ctb (p : Port) (c : Fin 12) (n : Nat) (s : State)
    (h : NoticesGoOut s ∨ (s.counter p c).value + n ≤ 4294967295) :
    (bump p c n s).ctb = (countPort p c n s).1.ctb ∧ (bump p c n s).ntu = (countPort p c n s).1.ntu := by
  unfold bump bumpFuel
  split
  · rename_i w
    have g : NoticesGoOut s := h.resolve_right (fun g => by
      have : (countPort p c n s).2 = false := by
        simp only [countPort]
        rw [if_pos (show (s.counter p c).value + n ≤ Config.max32 from g)]
      rw [this] at w
      exact absurd w (by decide))
    exact issueWith_ctb _ _ (g.congr (countPort_ctb p c n s).2.2.1 (countPort_ctb p c n s).2.2.2.2)
  · exact ⟨rfl, rfl⟩

/-- Every counter but the tx port-down discards, where a lost notice may count in turn, rises by what is counted. -/
theorem bump_counter (p : Port) (c : Fin 12) (n : Nat) (s : State) (hc : c ≠ 10) :
    CounterRises p c n s (bump p c n s) := by
  unfold CounterRises
  rw [(bump_noted p c n s).counters p c hc, countPort_counter, if_pos ⟨rfl, rfl⟩]

theorem bump_counter_of_ne {p q : Port} {c k : Fin 12} (n : Nat) (s : State) (hk : k ≠ 10) (h : ¬(k = c ∧ q = p)) :
    (bump p c n s).counter q k = s.counter q k := by
  rw [(bump_noted p c n s).counters q k hk, countPort_counter, if_neg h]

theorem bump_drops (p : Port) (c : Fin 12) (n : Nat) (s : State) {r : Fin 20} (hr : r ≠ 9) :
    (bump p c n s).ctb.drops.get r = s.ctb.drops.get r := by
  rw [(bump_noted p c n s).drops r hr, (countPort_ctb p c n s).1]

theorem bump_handed (p : Port) (c : Fin 12) (n : Nat) (s : State) : HandsOnNotices s (bump p c n s) :=
  (HandsOnNotices.of_eq (by rw [(countPort_ctb p c n s).2.1])).trans (bump_noted p c n s).handed

/-- While COUNTER-WRAP is pending no second frame is due, so a counter that rises is counted and no more. -/
theorem bumpFuel_of_pending (fuel : Nat) (s : State) (h : (s.source 22).pending = true) (p : Port) (c : Fin 12)
    (n : Nat) : bumpFuel (fuel + 1) p c n s = (countPort p c n s).1 := by
  unfold bumpFuel
  rw [if_neg]
  simp only [countPort]
  split
  · simp
  · show ¬(!(s.source 22).pending && _) = true
    rw [h]
    simp

theorem issueWith_of_pending (k : SourceNo) (s : State) (h : (s.source 22).pending = true) :
    issueWith (bumpFuel 1) k s = issue k s := by
  unfold issue issueWith
  split
  · rfl
  · split
    · rfl
    · have g : ((addDrop 9 1 (s.setNtu { s.ntu with lost := countUp s.ntu.lost 1 })).source 22).pending = true := h
      exact (bumpFuel_of_pending 0 _ g _ _ _).trans (bumpFuel_of_pending 1 _ g _ _ _).symm

/-! ### Drops -/

/-- What counting one drop at a port's counter and a drop reason does (R164, R165). -/
theorem countsDrop_some (p : Port) (c : Fin 12) (r : Fin 20) (s : State) (hc : c ≠ 10) (hr : r ≠ 9) :
    CountsDrop p (some c) r s (bump p c 1 (addDrop r 1 s)) where
  port := fun k hk => by
    cases hk
    exact bump_counter p c 1 _ hc
  reason := by
    unfold DropRises
    rw [bump_drops _ _ _ _ hr, addDrop_drops, if_pos rfl]
  counters := fun q k hk h => by
    rw [bump_counter_of_ne 1 _ hk (fun e => h e.2 (by rw [e.1]))]
    rfl
  drops := fun k hk h9 => by rw [bump_drops _ _ _ _ h9, addDrop_drops, if_neg hk]
  sources := fun k hk => by rw [bump_source _ _ _ _ _ hk]; rfl
  handed := bump_handed p c 1 (addDrop r 1 s)
  frame := (addDrop_reportsOnly r 1 s).trans (bump_reportsOnly p c 1 _)

theorem countsDrop_none (p : Port) (r : Fin 20) (s : State) : CountsDrop p none r s (addDrop r 1 s) where
  port := fun _ hk => nomatch hk
  reason := by
    unfold DropRises
    rw [addDrop_drops, if_pos rfl]
  counters := fun _ _ _ _ => rfl
  drops := fun k hk _ => by rw [addDrop_drops, if_neg hk]
  sources := fun _ _ => rfl
  handed := .of_eq rfl
  frame := addDrop_reportsOnly r 1 s

/-- What a port-down drop does. -/
theorem portDownDrop_droppedPortDown (p : Port) (s : State) : DroppedPortDown p s (portDownDrop p s) where
  counts := fun h => by
    have g := bump_ctb p 10 1 (addDrop 9 1 s)
      (h.imp (fun h => h.congr rfl rfl) (fun h => by show (s.counter p 10).value + 1 ≤ _; omega))
    have e : (portDownDrop p s).ctb = (countPort p 10 1 (addDrop 9 1 s)).1.ctb := g.1
    have c : ∀ q, (portDownDrop p s).counter q 10 = (countPort p 10 1 (addDrop 9 1 s)).1.counter q 10 := fun q =>
      congrArg (fun x : Ctb => (x.ports.get q).get 10) e
    refine ⟨?_, ?_, fun q hq => ?_⟩
    · show ((portDownDrop p s).counter p 10).value = _
      rw [c, countPort_counter, if_pos ⟨rfl, rfl⟩]
      rfl
    · show (portDownDrop p s).ctb.drops.get 9 = _
      rw [e, (countPort_ctb p 10 1 (addDrop 9 1 s)).1, addDrop_drops, if_pos rfl]
    · rw [c, countPort_counter, if_neg (fun h => hq h.2)]
      rfl
  counters := fun q k hk => (bump_counter_of_ne 1 _ hk (fun e => hk e.1)).trans rfl
  drops := fun r hr => (bump_drops p 10 1 _ hr).trans (by rw [addDrop_drops, if_neg hr])
  sources := fun k hk => (bump_source p 10 1 _ k hk).trans rfl
  dest := ((bump_noted p 10 1 (addDrop 9 1 s)).dest.1).trans (countPort_ctb p 10 1 (addDrop 9 1 s)).2.2.1
  handed := bump_handed p 10 1 (addDrop 9 1 s)
  frame := portDownDrop_reportsOnly p s

/-- What a list of port-down drops does. -/
theorem portDownDrops_droppedAtPorts (ps : List QPort) (s : State) :
    DroppedAtPorts (ps.map QPort.port) s (ps.foldl (fun t q => portDownDrop (QPort.port q) t) s) := by
  induction ps generalizing s with
  | nil => rfl
  | cons q ps ih => exact ⟨_, portDownDrop_droppedPortDown _ s, ih _⟩

/-- Frames dropped at ports change notices and counters alone, and hand on notices alone. -/
theorem DroppedAtPorts.reports {ps : List Port} {s t : State} (h : DroppedAtPorts ps s t) :
    ReportsOnly s t ∧ HandsOnNotices s t := by
  induction ps generalizing s with
  | nil => cases h; exact ⟨.refl _, .refl _⟩
  | cons p ps ih =>
    obtain ⟨u, hu, h⟩ := h
    exact ⟨hu.frame.trans (ih h).1, hu.handed.trans (ih h).2⟩

/-! ### Events -/

theorem Source.event_eq (x : Source) (d : Detail) : x.event d =
    if x.pending then { x with count := min 255 (x.count + 1) }
    else { x with pending := true, detail := some d, count := 1 } :=
  rfl

/-- What an event at an edge source other than COUNTER-WRAP does (R157, R159). -/
theorem raise_eventRaised (k : SourceNo) (d : Detail) (s : State) (hk : k ≠ 22) : EventRaised k d s (raise k d s) where
  event := by
    unfold TookEvent
    rw [(raise_noted k d s).sources k hk, State.source_setSource_self, Source.event_eq]
  sources := fun _ hj h22 => raise_source_of_ne d s hj h22
  counters := fun q c hc => ((raise_noted k d s).counters q c hc).trans rfl
  drops := fun r hr => ((raise_noted k d s).drops r hr).trans rfl
  handed := (HandsOnNotices.of_eq rfl).trans (raise_noted k d s).handed
  frame := raise_reportsOnly k d s

/-! ### Reception -/

theorem ReportsOnly.ports {s t : State} (h : ReportsOnly s t) : t.ports = s.ports := by rw [h]

/-- Counting a received frame and setting the neighbour address is all that `countReceived` does (R24, R27). -/
theorem countReceived_counted (p : Port) (raw : List Byte) (s : State) :
    CountedOnly p raw s (countReceived p (frameBody raw) s) := by
  obtain ⟨a, ha⟩ : ∃ a, a = bump p 1 (frameBody raw).length s := ⟨_, rfl⟩
  obtain ⟨b, hb⟩ : ∃ b, b = bump p 0 1 a := ⟨_, rfl⟩
  have R : ReportsOnly s b := by
    rw [hb, ha]
    exact (bump_reportsOnly p 1 (frameBody raw).length s).trans (bump_reportsOnly p 0 1 _)
  have e : countReceived p (frameBody raw) s =
      b.setPort p { b.port p with neighbour := sourceMac (frameBody raw) } := by
    rw [hb, ha]; rfl
  rw [e]
  refine ⟨⟨?_, ?_⟩, ?_, ?_, ?_, ?_, ?_, ?_⟩
  · show (b.counter p 0).value = _
    have h := bump_counter p 0 1 a (by decide)
    unfold CounterRises at h
    rw [hb, h, ha, bump_counter_of_ne _ _ (by decide) (fun e => absurd e.1 (by decide))]
  · show (b.counter p 1).value = _
    rw [hb, bump_counter_of_ne _ _ (by decide) (fun e => absurd e.1 (by decide)), ha]
    exact bump_counter p 1 _ s (by decide)
  · unfold LearnsNeighbour
    show vset b.ports p { b.ports.get p with neighbour := sourceMac (frameBody raw) } = _
    rw [R.ports]; rfl
  · intro q k hk h
    show b.counter q k = _
    rw [hb, bump_counter_of_ne _ _ hk (by tauto), ha, bump_counter_of_ne _ _ hk (by tauto)]
  · intro r hr
    show b.ctb.drops.get r = _
    rw [hb, ha]
    exact (bump_drops _ _ _ _ hr).trans (bump_drops _ _ _ _ hr)
  · intro k hk
    show b.source k = _
    rw [hb, ha]
    exact (bump_source _ _ _ _ _ hk).trans (bump_source _ _ _ _ _ hk)
  · show HandsOnNotices s b
    rw [hb, ha]
    exact (bump_handed p 1 _ s).trans (bump_handed p 0 1 _)
  · have : b = _ := R
    rw [this]; rfl

theorem frameCost_eq (b : BucketNo) (n : Nat) (p : Port) (s : State) :
    costOf (s.bucket b) n (s.port p).overhead = frameCost b n p s := by
  unfold costOf frameCost
  split <;> simp

/-- A frame that conforms is charged (R149, R152). -/
theorem offer_conforms {b : BucketNo} {n : Nat} {p : Port} {s : State} (h : Conforms b n p s) :
    offer b n p s = (true, charged b n p s) := by
  unfold offer charged
  dsimp only
  by_cases g : (s.bucket b).rate = 0
  · simp [g]
  · rw [frameCost_eq, if_neg g, if_pos (h.resolve_left g), if_neg g]

/-- A frame that does not conform leaves the credit (R152). -/
theorem offer_not_conforms {b : BucketNo} {n : Nat} {p : Port} {s : State} (h : ¬Conforms b n p s) :
    offer b n p s = (false, heldBack b n p s) := by
  unfold Conforms at h
  push Not at h
  unfold offer heldBack
  dsimp only
  rw [frameCost_eq, if_neg h.1, if_neg (not_le.2 h.2)]
  unfold Bucket.cmax
  split <;> rfl

/-- What counting a received frame leaves alone. -/
theorem CountedOnly.same {p : Port} {raw : List Byte} {s u : State} (h : CountedOnly p raw s u) :
    u.fsq = s.fsq ∧ u.links = s.links ∧ u.idc = s.idc ∧ u.sid = s.sid ∧ (∀ q, (u.port q).mode = (s.port q).mode) ∧
      (∀ q, (u.port q).overhead = (s.port q).overhead) ∧ 
      (∀ q, (u.port q).permitted = (s.port q).permitted) ∧ u.mga = s.mga := by
  have f := h.frame
  refine ⟨by rw [f], by rw [f], by rw [f], by rw [f], ?_, ?_, ?_, by rw [f]⟩ <;>
  · intro q
    have n : u.ports = _ := h.neighbour
    unfold State.port
    rw [n, vset_get]
    split
    · rename_i e; subst e; rfl
    · rfl

/-- Counting a received frame leaves what a policer makes of it. -/
theorem CountedOnly.conforms {p : Port} {raw : List Byte} {s u : State} (h : CountedOnly p raw s u) (b : BucketNo)
    (n : Nat) (q : Port) : Conforms b n q u ↔ Conforms b n q s := by
  have g := h.same
  have e : u.bucket b = s.bucket b := by unfold State.bucket; rw [g.1]
  unfold Conforms frameCost
  rw [e, g.2.2.2.2.2.1]

theorem CountedOnly.boundLink {p : Port} {raw : List Byte} {s u : State} (h : CountedOnly p raw s u) (x : Sid) :
    boundLink u x = boundLink s x := by
  have g := h.same
  unfold Machine.boundLink State.link
  rw [g.2.1]

/-- The lowest bound link of a SID is the one that `boundLink` finds (R40). -/
theorem boundLink_some {s : State} {x : Sid} {l : LinkNo} (h : (s.link l).state ≠ .unbound ∧ (s.link l).config.sid = x)
    (m : ∀ m : LinkNo, m.val < l.val → ¬((s.link m).state ≠ .unbound ∧ (s.link m).config.sid = x)) :
    boundLink s x = some l := by
  unfold boundLink
  rw [List.find?_eq_some_iff_append]
  refine ⟨by simp [h], ?_⟩
  refine ⟨(List.finRange 24).take l.val, (List.finRange 24).drop (l.val + 1), ?_, ?_⟩
  · clear h m; revert l; decide
  · intro a ha
    have : a.val < l.val := by
      rw [List.mem_take_iff_getElem] at ha
      obtain ⟨i, hi, e⟩ := ha
      simp at e
      subst e
      simp at hi
      show i < _
      omega
    have := m a this
    simp only [Bool.not_eq_true', Bool.and_eq_false_iff, bne_eq_false_iff_eq, beq_eq_false_iff_ne]
    tauto

theorem boundLink_none {s : State} {x : Sid} (h : ∀ l, ¬((s.link l).state ≠ .unbound ∧ (s.link l).config.sid = x)) :
    boundLink s x = none := by
  unfold boundLink
  rw [List.find?_eq_none]
  intro l _
  have := h l
  simp
  tauto

/-- A frame that passes every reception check of a RUNNING part is counted and goes to its side's classification. -/
theorem received_form {p : Port} {raw : List Byte} {kind : Kind} {s : State} (h : Received p raw kind s)
    (hr : s.part = .running) : exec (.frameReceived p raw) s = .next (match Port.quay p with
      | some q => receiveUplink (readFrame (frameBody raw) kind) q (countReceived p (frameBody raw) s)
      | none => receiveDownlink (readFrame (frameBody raw) kind) p (countReceived p (frameBody raw) s)) := by
  show execFrameReceived p raw s = _
  unfold execFrameReceived
  rw [hr]
  simp only []
  unfold receiveFrame
  have hk : formOf (frameBody raw) = some kind := by
    unfold formOf
    have := h.form
    rw [if_pos ⟨this.1, this.2.1⟩, this.2.2]
    cases kind <;> rfl
  rw [if_neg (by simp [passesFrameCheck, h.check, h.length.1, h.length.2]), hk]
  simp only []
  unfold receiveForm
  dsimp only
  have u := countReceived_counted p raw s
  rw [if_neg (by simp [payloadLengthFits, ← h.payload]), if_neg (by rw [h.direction]; cases Port.isQuay p <;> simp)]
  refine (congrArg Host.Outcome.next (if_neg ?_)).trans ?_
  · intro e
    rw [u.same.2.2.2.2.1 p] at e
    rcases h.mode with m | m
    · rw [m] at e; cases e
    · rw [m.1] at e; rw [show Mode.craneOnly.passes kind = kind.craneOnly from rfl, m.2] at e; cases e
  · cases Port.quay p <;> rfl

theorem quay_port (q : QPort) : Port.quay (QPort.port q) = some q := by revert q; decide

theorem quay_none {p : Port} (h : Port.isQuay p = false) : Port.quay p = none := by revert p; decide

/-- A frame that is counted and then dropped under one reason. -/
theorem CountedOnly.then_drop {p : Port} {raw : List Byte} {s u : State} (h : CountedOnly p raw s u) {r : Fin 20}
    (hr : r ≠ 9) {d : State} (g : CountsDrop p none r u d) : DroppedAtReception p raw r s d := by
  have R : ReportsOnly u d := g.frame
  refine ⟨?_, ?_, ?_, ?_, ?_, h.handed.trans g.handed, ?_⟩
  · have h1 := h.counted
    unfold CountedIn CounterRises at *
    rw [g.counters p 0 (by decide) (fun _ => nofun), g.counters p 1 (by decide) (fun _ => nofun)]
    exact h1
  · have := h.neighbour
    unfold LearnsNeighbour at *
    rw [R.ports]; exact this
  · have := g.reason
    unfold DropRises at *
    rw [this, h.drops r hr]
  · intro q k hk hq
    rw [g.counters q k hk (fun _ => nofun)]
    exact h.counters q k hk hq
  · intro k hk h9
    rw [g.drops k hk h9]
    exact h.drops k h9
  · have f := h.frame
    unfold ReportsOnly at R
    rw [R, f]

/-- An event raised after a drop at reception. -/
theorem DroppedAtReception.then_event {p : Port} {raw : List Byte} {r : Fin 20} (hr : r ≠ 9) {s d t : State}
    (h : DroppedAtReception p raw r s d) {k : SourceNo} {x : Detail} (g : EventRaised k x d t) :
    DroppedAtReception p raw r s t := by
  have R : ReportsOnly d t := g.frame
  refine ⟨?_, ?_, ?_, ?_, ?_, h.handed.trans g.handed, ?_⟩
  · have h1 := h.counted
    unfold CountedIn CounterRises at *
    rw [g.counters p 0 (by decide), g.counters p 1 (by decide)]
    exact h1
  · have := h.neighbour
    unfold LearnsNeighbour at *
    rw [R.ports]; exact this
  · have := h.reason
    unfold DropRises at *
    rw [g.drops r hr, this]
  · intro q j hk hq
    rw [g.counters q j hk]
    exact h.counters q j hk hq
  · intro j hk h9
    rw [g.drops j h9]
    exact h.drops j hk h9
  · have f := h.frame
    unfold ReportsOnly at R
    rw [R, f]

end Sys2Proof.Machine
end

