-- ==== Sys2Proof/Laws/Effects.lean ====
section
/-! SUPPORT. What shared operations of the blocks can do, once for each: a removal at the station table, a delivery of
downlink control, and a swap of the batch buffers. -/

namespace Sys2Proof.Machine

/-! ## The station table -/

theorem presentStationFull_presented (s : State) : StationFullPresented (presentStationFull s) := by
  have h : (presentStationFull s).stt = s.stt := by
    have h := congrArg State.stt (present_reportsOnly 6 (stationFull s) s)
    exact h
  unfold StationFullPresented stationFull
  rw [h]
  exact present_pending _ s (by decide)

/-- A removal of any dynamic record for a SID removes it, and leaves STATION-FULL presented where there was one, or
where it was presented (R47, R49). -/
theorem removeDynamicOf_stt (sid : Sid) (s : State) :
    (removeDynamicOf sid s).stt = { s.stt with
      dynamics := match findDynamic s sid with
        | some (d, _) => Table.erase s.stt.dynamics d
        | none => s.stt.dynamics } ∧
    (StationFullPresented s ∨ findDynamic s sid ≠ none → StationFullPresented (removeDynamicOf sid s)) ∧
    (findDynamic s sid = none → removeDynamicOf sid s = s) ∧ ReportsOnly
      { s with stt := (removeDynamicOf sid s).stt } (removeDynamicOf sid s) := by
  unfold removeDynamicOf
  cases findDynamic s sid with
  | none => exact ⟨rfl, fun h => h.resolve_right (by simp), fun _ => rfl, rfl⟩
  | some x =>
    have h := present_reportsOnly 6 (stationFull (s.setStt { s.stt with dynamics := Table.erase s.stt.dynamics x.1 }))
      (s.setStt { s.stt with dynamics := Table.erase s.stt.dynamics x.1 })
    have e : (removeDynamic x.1 s).stt = { s.stt with dynamics := Table.erase s.stt.dynamics x.1 } := by
      show (present _ _ _).stt = _
      rw [h]
      rfl
    refine ⟨e, fun _ => presentStationFull_presented _, fun h => absurd h (by simp), ?_⟩
    show ReportsOnly { s with stt := (removeDynamic x.1 s).stt } _
    rw [e]
    exact h

/-! ## Downlink control -/

/-- A delivery counts each port that is not usable as port down, and hands the frame on for the others (R78). -/
theorem deliverControl_eq (x : Link) (f : Frame) (s : State) :
    ∃ v, DroppedAtPorts ((x.deliveryPorts.filter (fun q => !s.usable (QPort.port q))).map QPort.port) s v ∧
      deliverControl x f s =
        if x.deliveryPorts.filter (fun q => s.usable (QPort.port q)) = [] then v
        else { v with flight := { v.flight with enqueues := v.flight.enqueues ++
          [{ queues := (x.deliveryPorts.filter (fun q => s.usable (QPort.port q))).map (fun q => (QPort.port q, .c))
             kind := f.kind, body := .forwarded f.bytes }] } } :=
  ⟨_, portDownDrops_droppedAtPorts _ s, rfl⟩

/-! ## The batch buffers -/

theorem Rcn.swapped_filling (r : Rcn) : r.swapped.filling = ⟨.filling, []⟩ := by
  unfold Rcn.filling Rcn.swapped
  by_cases h : r.bufferA.state = .filling <;> simp [h]

theorem Rcn.swapped_other (r : Rcn) : r.swapped.other = ⟨.sending, r.filling.entries⟩ := by
  unfold Rcn.other Rcn.filling Rcn.swapped
  by_cases h : r.bufferA.state = .filling <;> simp [h]

theorem Rcn.swapped_idleSending (r : Rcn) :
    r.swapped.idleSending.filling = ⟨.filling, []⟩ ∧ r.swapped.idleSending.other = ⟨.idle, []⟩ ∧
      r.swapped.sendingEntries = r.filling.entries ∧ r.swapped.idleSending.batchTimer = none ∧
      r.swapped.idleSending.sendDue = false := by
  unfold Rcn.idleSending Rcn.sendingEntries Rcn.filling Rcn.other Rcn.swapped
  by_cases h : r.bufferA.state = .filling <;> simp [h]

/-- A presentation of a condition that does not hold changes the source alone (R158). -/
theorem present_false (k : SourceNo) (s : State) :
    present k false s = { s with ntu := { s.ntu with sources := (present k false s).ntu.sources } } ∧
      ∀ j, j ≠ k → (present k false s).source j = s.source j := by
  simp only [present, Bool.false_and, Bool.not_false, Bool.true_and, if_false, Bool.false_eq_true]
  split
  · exact ⟨rfl, fun j hj => State.source_setSource_of_ne _ _ hj⟩
  · exact ⟨rfl, fun _ _ => rfl⟩

/-- The part after steps 1 to 4 of a swap (R132), with BATCH-OVERFLOW presented (R133). -/
theorem presentBatchOverflow_swapped (s : State) :
    presentBatchOverflow (s.setRcn s.rcn.swapped) = present 12 false (s.setRcn s.rcn.swapped) := by
  have h : batchOverflow (s.setRcn s.rcn.swapped) = false := by
    show (decide (48 ≤ s.rcn.swapped.filling.entries.length) && _) = false
    rw [Rcn.swapped_filling]
    rfl
  rw [presentBatchOverflow, h]

/-- What carrying out a swap does (R132, R134, R136). -/
theorem carryOutSwap_swapCarriedOut (s : State) : SwapCarriedOut s (carryOutSwap s) := by
  have hp := present_pending (k := 12) false (s.setRcn s.rcn.swapped) (by decide)
  obtain ⟨he, hs⟩ := present_false 12 (s.setRcn s.rcn.swapped)
  unfold carryOutSwap
  simp only [presentBatchOverflow_swapped]
  generalize present 12 false (s.setRcn s.rcn.swapped) = u at he hs hp
  have hu : ∀ p, u.usable p = s.usable p := fun p => by rw [he]; rfl
  have hb : batchTrunk u = if (s.domain s.rcn.settings.domain).trunk = .t0 then 12 else 13 := by
    rw [he]
    show (s.domain s.rcn.settings.domain).trunk.port = _
    cases (s.domain s.rcn.settings.domain).trunk <;> rfl
  have hr : u.rcn = s.rcn.swapped := congrArg State.rcn he
  unfold SwapCarriedOut
  rw [hb, hu]
  dsimp only
  generalize (if (s.domain s.rcn.settings.domain).trunk = .t0 then (12 : Port) else 13) = trunk
  by_cases h : s.usable trunk = true
  · rw [if_pos h]
    have ht : ∀ r, (handOff r u).rcn = s.rcn.swapped := fun _ => hr
    refine ⟨by rw [ht, Rcn.swapped_filling], by rw [ht]; rfl, by rw [ht]; rfl, hp, u, ?_, hs,
      fun _ => ⟨?_, by rw [ht, Rcn.swapped_other], by rw [ht]; rfl, fun k => ?_⟩, fun h' => ?_⟩
    · rw [ht]; exact he
    · have hf : u.flight = s.flight := by rw [he]; rfl
      have hi : u.sid = s.sid := by rw [he]; rfl
      simp only [handOff, State.setFlight, hf, hi]
      rfl
    · rw [ht, show s.rcn.swapped.reefers = Table.mapValues s.rcn.reefers leaveFilling from rfl, Table.get_mapValues]
      congr 1
      funext ⟨sid, st, x, m, b, n, place⟩
      cases place <;> rfl
    · rw [h] at h'; cases h'
  · rw [if_neg h]
    have hd := portDownDrop_droppedPortDown trunk u
    have hv : (portDownDrop trunk u).rcn = s.rcn.swapped := (congrArg State.rcn hd.frame).trans hr
    generalize portDownDrop trunk u = v at hd hv
    have ht : (discardSending v).rcn = { s.rcn.swapped.idleSending with
        reefers := Table.mapValues s.rcn.swapped.reefers (markUnsent s.rcn.swapped.sendingEntries)
        stats := { s.rcn.stats with batchesDiscarded := countUp s.rcn.stats.batchesDiscarded 1 } } := by
      rw [← hv]
      simp only [discardSending, State.setRcn]
      rw [hv]
      rfl
    obtain ⟨i1, i2, i3, i4, i5⟩ := Rcn.swapped_idleSending s.rcn
    refine ⟨by rw [ht]; exact i1, ?_, ?_, ?_, { u with rcn := (discardSending v).rcn }, ?_, hs,
      fun h' => absurd h' h, fun _ => ⟨?_, by rw [ht]; exact i2, by rw [ht]; rfl, fun k => ?_⟩⟩
    · rw [ht]; exact i4
    · rw [ht]; exact i5
    · exact (congrArg Source.pending (hd.sources 12 (by decide))).trans hp
    · conv => lhs; rw [he]
      rfl
    · have hf : ∀ r, v.setRcn r = { u with
          rcn := r, ntu := v.ntu, ctb := v.ctb, flight := { u.flight with enqueues := v.flight.enqueues } } := by
        intro r
        conv => lhs; rw [hd.frame]
        rfl
      exact ⟨hd.counts, hd.counters, hd.drops, hd.sources, hd.dest, hd.handed, hf _⟩
    · rw [ht, i3]
      show Table.get (Table.mapValues (Table.mapValues s.rcn.reefers leaveFilling) _) k = _
      rw [Table.get_mapValues, Table.get_mapValues, Option.map_map]
      congr 1
      funext ⟨sid, st, x, m, b, n, place⟩
      by_cases hm : ∃ e ∈ s.rcn.filling.entries, e.sid = sid <;>
        cases place <;> simp [leaveFilling, markUnsent, List.mem_map, hm]

end Sys2Proof.Machine
end

