-- ==== Sys2Proof/Tests/Slice0.lean ====
section
/-! SUPPORT. Tests of the model: values the spec writes out, and for every statement a concrete state and operands
that meet its hypotheses. The expected values are the spec's own: the section is named beside each. -/

namespace Sys2Proof.Tests

open Sys2Proof.Machine

set_option Elab.async false

/-! ## Helpers -/

/-- The part RUNNING with every link DOWN. -/
def base : State := { State.reset with part := .running }

/-- The part RUNNING with every port usable. -/
def up : State := { base with ports := base.ports.map (fun r => { r with link := .up }) }

/-- A frame whose one command is the given one, at the point where the agent has come to it. -/
def frameOf (i : Instr) : Execution :=
  let c := (Encode.command i).getD (0, [])
  { arrival := 12, station := 0xFFFFFF00, peer := 7, stopOnError := false, tag := 1, count := 1
    rest := c.1 :: be1 c.2.length ++ c.2, failed := false, entries := [], room := 1892 }

/-- A state whose agent has come to a command. -/
def taking (i : Instr) (s : State) : State := { s with mga := { s.mga with phase := .executing (frameOf i) } }

theorem awaits_taking {i : Instr} {s : State} (h : (frameOf i).awaited = some i) :
    Awaits (taking i s) (frameOf i) i := ⟨rfl, h⟩

theorem awaits_all (l : List Instr) (s : State) (h : ∀ i ∈ l, (frameOf i).awaited = some i) :
    ∀ i ∈ l, Awaits (taking i s) (frameOf i) i := fun i hi => awaits_taking (h i hi)

/-- The state a command answers. -/
def after (i : Instr) (s : State) : State :=
  match exec i s with
  | .next t => t
  | .fault _ => s
  | .refused _ => s

/-- The bytes of a frame, with its check sequence, from kind code, byte 15, cycle, SIDs and payload (R177). -/
def arriving (kind dir cycle : Nat) (station peer : Sid) (payload : List Byte) : List Byte :=
  let b := withAddresses 0x024B51300000 0x020000000001
    (be2 0x8A5C ++ be1 (16 + kind) ++ be1 dir ++ be1 cycle ++ be1 0 ++ sidBytes station ++ sidBytes peer ++
      be2 payload.length ++ payload)
  b ++ fcsBytes b

/-- A link of crane SID 0A3F.1C20 with peer 0A3F.0001, P = 20, Lk = 2, K = 5, H = 10, primary Q5, segment 14. -/
def craneLink (state : LinkState) : Link :=
  { state := state, config := ⟨0x0A3F1C20, some 0x0A3F0001, 4, 20, 2, 5, 10⟩, missed := 0, cycle := some 250
    position := some 4300, segment := some 14, primary := 5, context := none, reverted := none
    slot := some [1, 2, 3], counts := .zero
    timer := if state = .live ∨ state = .late then some 20 else none }

/-! ## Words, check sequences and formats -/

/-- "123456789". -/
def digits : List Byte := [0x31, 0x32, 0x33, 0x34, 0x35, 0x36, 0x37, 0x38, 0x39]

/-- The two check sequences of spec chapter 11 on their catalogue check string. -/
theorem test_check_sequences : crc32 digits = 0xCBF43926 ∧ crc16 digits = 0x31C3 := by decide +kernel

/-- Argument bytes of one command of each owner, written out by R180. -/
theorem test_decode_words :
    Decode.command 0x02 [0x0A, 0x3F, 0x1C, 0x20] = .command (.setIdent 0x0A3F1C20) ∧
    Decode.command 0x03 [5, 1, 255, 63] = .command (.setPort 5 1 255 63) ∧
    Decode.command 0x05 [0, 1, 0x1C, 0, 0, 0xFF, 1, 2, 4] = .command (.setClass 0 1 0x1C00 0x00FF 1 2 4) ∧
    Decode.command 0x07 [2, 1, 0, 0x0F, 0xFF, 1] = .command (.setDomain 2 1 0 0x0FFF 1) ∧
    Decode.command 0x09 [0x0A, 0x3F, 0x21, 0, 9] = .command (.setStation 0x0A3F2100 9) ∧
    Decode.command 0x0E [5, 0x0A, 0x3F, 0x1C, 0x20, 1, 0, 0, 0, 7, 4, 0, 20, 2, 5, 10, 200, 1, 0x2C, 0] =
      .command (.setCrane 5 0x0A3F1C20 1 7 4 20 2 5 10 200 300 0) ∧
    Decode.command 0x12 [0, 10, 0, 12, 0, 2, 1, 1] = .command (.setWindow 10 12 0 2 1 1) ∧
    Decode.command 0x13 [1, 1, 0x47, 0x02] = .command (.streamCells 1 1 [⟨4, 7, .marginal⟩]) ∧
    Decode.command 0x14 [1, 0, 1, 0] = .command (.readCells 1 0 256) ∧
    Decode.command 0x17 [0, 50] = .command (.setEpoch 50) ∧
    Decode.command 0x1A [0x0F, 0xFF, 5] = .command (.listReefers 4095 5) ∧
    Decode.command 0x1C [4, 15, 1, 12, 0x05, 0xDC, 1] = .command (.setRate 4 15 1 12 1500 1) ∧
    Decode.command 0x20 [5, 1] = .command (.readCounters 5 1) ∧
    Decode.command 0x22 [1, 0x0A, 0x3F, 0, 1, 0, 0x20, 10] = .command (.setNoticeDest 1 0x0A3F0001 0 0x20 10) ∧
    Decode.command 0x25 [] = .command .restart ∧ Decode.command 0x25 [7] = .command .restart ∧
    Decode.command 0x00 [] = .badCode ∧ Decode.command 0x26 [] = .badCode ∧
    Decode.command 0x02 [1, 2, 3] = .short := by decide +kernel

/-- An ill-formed command for each check of WellFormed.lean is refused. -/
theorem test_wellFormed_refuses :
    Instr.wf (.addSpan 256) = false ∧ Instr.wf (.removeSpan 256) = false ∧
    Instr.wf (.setPort 256 0 0 0) = false ∧ Instr.wf (.setPort 0 256 0 0) = false ∧
    Instr.wf (.setPort 0 0 256 0) = false ∧ Instr.wf (.setPort 0 0 0 256) = false ∧
    Instr.wf (.setGroup 256 0 0 0) = false ∧ Instr.wf (.setGroup 0 0 0 256) = false ∧
    Instr.wf (.setClass 0 256 0 0 0 0 0) = false ∧ Instr.wf (.setClass 0 0 0 0 0 0 256) = false ∧
    Instr.wf (.readClass 0 256) = false ∧ Instr.wf (.setDomain 0 0 256 0 0) = false ∧
    Instr.wf (.readDomain 256) = false ∧ Instr.wf (.setStation 0 256) = false ∧
    Instr.wf (.listStations 0 65536) = false ∧ Instr.wf (.setLearning 0 65536 0) = false ∧
    Instr.wf (.setCrane 0 0 0 0 0 65536 0 0 0 0 0 0) = false ∧
    Instr.wf (.setCrane 0 0 0 0 0 0 0 0 0 0 0 256) = false ∧ Instr.wf (.clearCrane 256) = false ∧
    Instr.wf (.readCrane 0 256) = false ∧ Instr.wf (.setGeometry 0 65536 0) = false ∧
    Instr.wf (.setWindow 0 0 256 0 0 0) = false ∧ Instr.wf (.streamCells 0 2 [⟨0, 0, .clear⟩]) = false ∧
    Instr.wf (.streamCells 256 0 []) = false ∧
    Instr.wf (.streamCells 0 127 (List.replicate 127 ⟨0, 0, .clear⟩)) = false ∧
    Instr.wf (.readCells 0 0 65536) = false ∧
    Instr.wf (.setEpoch 65536) = false ∧ Instr.wf (.setReefer 0 0 0 0 65536 0 0 0) = false ∧
    Instr.wf (.listReefers 0 256) = false ∧ Instr.wf (.setRate 0 0 0 0 65536 0) = false ∧
    Instr.wf (.setQueue 0 0 65536) = false ∧ Instr.wf (.setSched 0 0 256) = false ∧
    Instr.wf (.setReserve 65536 0) = false ∧ Instr.wf (.readCounters 256 0) = false ∧
    Instr.wf (.setNotice 0 0 256) = false ∧ Instr.wf (.setNoticeDest 256 0 0 0 0) = false ∧
    Instr.wf (.readNotice 256 0) = false ∧ Instr.wf (.clearNotice 256) = false := by decide +kernel

/-! ## The spec's worked examples -/

/-- The table of R2: presented values, what is stored, and whether it was clamped. -/
theorem test_stored_cells :
    [(4, 7), (4, 4), (13, 4), (13, 13), (15, 15), (15, 9), (9, 14)].map
        (fun v : Fin 16 × Fin 16 => (storedCell ⟨v.1, v.2, .dead⟩, cellClamped ⟨v.1, v.2, .dead⟩)) =
      [(⟨some 4, some 7, .dead⟩, false), (⟨some 4, none, .dead⟩, true), (⟨none, some 4, .dead⟩, true),
        (⟨none, none, .dead⟩, true), (⟨none, none, .dead⟩, false), (⟨none, some 9, .dead⟩, false),
        (⟨some 9, none, .dead⟩, true)] := by decide +kernel

/-- The window of spec 1.3: segments 10..12, lanes 0..2, SEGMENT-FIRST, DESCENDING. -/
def window : Window := ⟨10, 12, 0, 2, .segmentFirst, .descending⟩

/-- The nine cells of that window in order, and the wrap to the first (spec 1.3). -/
theorem test_window_order :
    (List.range 10).map (window.after window.firstCell) =
      [(12, 0), (11, 0), (10, 0), (12, 1), (11, 1), (10, 1), (12, 2), (11, 2), (10, 2), (12, 0)] ∧
    window.wraps window.firstCell 8 = 0 ∧ window.wraps window.firstCell 9 = 1 := by decide +kernel

/-- A state with that window. -/
def windowed : State := { up with cvm := { up.cvm with window := window, writeCursor := some (11, 1) } }

/-- The status code and the result in the reply to a frame of one command (R171, R180), and the state it leaves. -/
def answered (i : Instr) (s : State) : Nat × List Byte :=
  match (after i (taking i s)).flight.enqueues.getLast? with
  | some { body := .originated _ b, .. } => ((byteAt b 21).toNat, b.drop 24)
  | _ => (99, [])

/-- SET-WINDOW's two examples of spec 1.2, and its field order. -/
theorem test_setWindow :
    answered (.setWindow 300 400 0 7 0 0) up = (8, []) ∧
    answered (.setWindow 200 400 0 7 0 1) up = (1, [0, 200, 0, 255, 0, 7, 0, 1]) := by decide +kernel

/-- The second STREAM-CELLS of spec 1.3: six values from (11,1), one clamped, one wrap, the cursor at (11,0). -/
theorem test_streamCells :
    let v : CellValue := ⟨4, 7, .shadowed⟩
    let i : Instr := .streamCells 1 6 [v, v, ⟨6, 6, .clear⟩, v, v, ⟨8, 9, .dead⟩]
    let c := (after i (taking i windowed)).cvm
    answered i windowed = (1, [0, 6, 0, 1, 11, 0]) ∧ c.writeCursor = some (11, 0) ∧
      c.bank1.cell 12 2 = ⟨some 6, none, .clear⟩ ∧ c.bank1.cell 12 0 = ⟨some 8, some 9, .dead⟩ ∧
      c.bank1.cell 10 1 = ⟨some 4, some 7, .shadowed⟩ ∧ c.bank0.cells = [] := by decide +kernel

/-- The overlay counts of spec 1.6: B's span and A's at segments 1 and 0, then A's removed. -/
theorem test_spans :
    let o := addSpan 1 (addSpan 0 (Vector.replicate 256 0))
    (List.ofFn fun k : Fin 4 => o.get (k.castLE (by omega))) = [2, 2, 1, 0] ∧
      (List.ofFn fun k : Fin 4 => (removeSpan 0 o).get (k.castLE (by omega))) = [1, 1, 1, 0] := by decide +kernel

/-- The records of spec 2.3. -/
def idc23 : Idc :=
  { Idc.hard with
    groups := #v[⟨0x0A3F, 0, true⟩, ⟨0x0A00, 0x00FF, true⟩, ⟨0, 0, false⟩, ⟨0, 0xFFFF, true⟩]
    classes := ((((Vector.replicate 16 ⟨0, 0, false, 0, ⟨false, false, false⟩⟩).set 0
      ⟨0x1C00, 0x00FF, true, 2, ⟨false, false, true⟩⟩).set 1 ⟨0, 0xFFFF, true, 1, ⟨false, true, false⟩⟩).set 4
      ⟨0, 0xFFFF, true, 3, ⟨true, false, false⟩⟩).set 15 ⟨0, 0xFFFF, true, 0, ⟨false, false, false⟩⟩ }

/-- The table of spec 2.3: the domain and the options found for each SID. -/
theorem test_classification :
    [0x0A3F1C20, 0x0A3F2000, 0x0A120001, 0x77000001].map
        (fun x : Sid => (classify idc23 x).map (fun c => (c.domain.val, c.options))) =
      [some (2, ⟨false, false, true⟩), some (1, ⟨false, true, false⟩), some (3, ⟨true, false, false⟩),
        some (0, ⟨false, false, false⟩)] := by decide +kernel

/-- The two frames of spec 3.3 against a record, M = 2: what each is judged against the record as it stands. -/
theorem test_learning :
    let s (q : QPort) (g age : Nat) := { up with stt := { up.stt with dynamics := [(5, ⟨9, q, g, age⟩)] } }
    (learn 9 3 10 (s 2 8 3)).stt.dynamics = [(5, ⟨9, 3, 10, 3⟩)] ∧
      (learn 9 2 5 (s 3 10 3)).stt.dynamics = [(5, ⟨9, 3, 10, 3⟩)] ∧
      (learn 9 2 5 (s 3 10 3)).stt.stats.competing = 1 ∧
      (learn 9 2 5 (s 2 8 3)).stt.dynamics = [(5, ⟨9, 2, 5, 3⟩)] ∧
      (learn 9 3 10 (s 2 5 3)).stt.dynamics = [(5, ⟨9, 3, 10, 3⟩)] := by decide +kernel

/-- The table of spec 4.3: the last accepted cycle, the frame's cycle, and the judgement. -/
theorem test_cycleFilter :
    [(250, 251), (251, 251), (251, 3), (3, 200), (3, 130), (130, 3)].map
        (fun v : Nat × Nat => judgeCycle { craneLink .live with cycle := some v.1 } v.2) =
      [.accepted, .duplicate, .accepted, .stale, .accepted, .stale] := by decide +kernel

/-- Two rows of spec 4.4: link 9 with missed 1 goes LATE, and with missed 4 lapses and removes its span. -/
theorem test_supervision :
    let s (st : LinkState) (m : Nat) := up.setLink 9 { craneLink st with missed := m }
    let t := after (.supervisionExpiry 9) (s .live 1)
    let u := after (.supervisionExpiry 9) (s .late 4)
    (t.link 9).state = .late ∧ (t.link 9).missed = 2 ∧ (t.link 9).timer = some 20 ∧ (t.link 9).counts.late = 1 ∧
      (t.source 0).pending = true ∧ (u.link 9).state = .lapsed ∧ (u.link 9).missed = 5 ∧
      (u.link 9).timer = none ∧ u.flight.spans = [.remove 14] ∧ (u.source 1).pending = true := by decide +kernel

/-- R100: with the primary port down and its announcement still in flight, an expiry that changes no state presents no
CRANE-UNCOVERED, and one that makes the link LATE presents it. -/
theorem test_supervision_uncovered :
    let s (m : Nat) := (up.setPort 5 { up.port 5 with link := .down }).setLink 9
      { craneLink .live with missed := m, primary := 5 }
    let t := after (.supervisionExpiry 9) (s 0)
    let u := after (.supervisionExpiry 9) (s 1)
    craneUncovered (s 0) = true ∧ (t.link 9).missed = 1 ∧ (t.source 5).pending = false ∧
      (u.link 9).state = .late ∧ (u.source 5).pending = true := by decide +kernel

/-- The table of spec 5.1: the segment before, the position, the segment after; and the cap at 255. -/
theorem test_hysteresis :
    [(4, 2510), (4, 2525), (5, 2495), (5, 2470), (4, 500)].map
        (fun v : Nat × Nat => segmentOf ⟨1000, 300, 20⟩ (some v.1) v.2) = [4, 5, 5, 4, 0] ∧
      segmentOf ⟨0, 50, 20⟩ none 65535 = 255 := by decide +kernel

/-- The map of the sequence of spec 5.4, lane 0. -/
def craneMap : Cvm :=
  { up.cvm with
    valid := true
    bank0 := { up.cvm.bank0 with cells :=
      [(24, ⟨some 3, some 4, .clear⟩), (32, ⟨some 4, some 3, .clear⟩), (40, ⟨some 5, some 4, .clear⟩),
        (48, ⟨some 6, some 7, .clear⟩), (56, ⟨some 8, some 9, .clear⟩)] } }

/-- Rows of spec 5.4: at 40 ms a segment change keeps Q3, at 300 ms it starts a handover to Q5 with a copy, at
1100 ms a redirect to Q8, at 1300 ms the hold expiry reverts. -/
theorem test_handover :
    let x : Link := { craneLink .live with primary := 3, segment := some 3 }
    let report (pos : Nat) (x : Link) :=
      positionReport 2 (readFrame (frameBody (arriving 2 0 0 0x0A3F1C20 0 (be2 pos))) .positionReport) 5
        { (up.setLink 2 x) with cvm := craneMap }
    let a := report 1230 x
    let b := report 1525 { x with segment := some 4 }
    let c := report 2125 { x with segment := some 6, primary := 5, context := some ⟨5, 7, 200⟩ }
    let d := after (.holdExpiry 2) (up.setLink 2 { x with primary := 5, context := some ⟨5, 8, 200⟩ })
    (a.link 2).segment = some 4 ∧ (a.link 2).primary = 3 ∧ (a.link 2).context = none ∧
      a.flight.spans = [.remove 3, .add 4] ∧ (b.link 2).context = some ⟨3, 5, 200⟩ ∧
      b.flight.enqueues.map (·.queues) = [[(5, .c)]] ∧ (c.link 2).context = some ⟨5, 8, 200⟩ ∧
      (c.link 2).counts.redirected = 1 ∧ (d.link 2).context = none ∧ (d.link 2).primary = 5 ∧
      (d.link 2).reverted = some 8 ∧ (d.source 4).detail = some (.reverted 2 8) := by decide +kernel

/-- The alarm list of spec 6.4: codes 23, 17, 40, 41, 42, 0. -/
theorem test_alarmList : alarmList [23, 17, 40, 41, 42, 0] [] false = ([23, 17, 40, 41], true) := by decide +kernel

/-- The allowances of spec 7.2: a crane over segment 40 and then none; a DEAD cell whose primary is DOWN. -/
theorem test_allowance :
    let r (g a : Nat) : Readings := ⟨.cooling, some g, some a, none, none, none, [], 0⟩
    let m (c : Nat) : Cvm :=
      { up.cvm with
        valid := true, overlay := vset up.cvm.overlay 40 c
        bank0 := { up.cvm.bank0 with cells := [(323, ⟨some 7, none, .shadowed⟩), (421, ⟨some 9, none, .dead⟩)] } }
    let s := { up with cvm := m 1 }
    (allowance s (r 40 3), silentThreshold s (r 40 3)) = (6, 9) ∧
      (allowance { up with cvm := m 0 } (r 40 3), silentThreshold { up with cvm := m 0 } (r 40 3)) = (4, 7) ∧
      (allowance s (r 52 5), silentThreshold s (r 52 5)) = (7, 10) := by decide +kernel

/-- The policer and the shaper of spec 8.5: a report charged and one refused, and the refills of codes 205, 201
and 12. -/
theorem test_buckets :
    let s (c : Int) := up.setBucket 34 ⟨205, 200, false, c, true⟩
    ((offer 34 96 8 (s 3200)).1, ((offer 34 96 8 (s 3200)).2.bucket 34).credit) = (true, 1664) ∧
      (offer 34 96 8 (s 178)).1 = false ∧ (after (.refillExpiry 34) (s 128)).bucket 34 = ⟨205, 200, false, 138, true⟩ ∧
      refillOf 201 = 2 ∧ refillOf 12 = 1200 := by decide +kernel

/-- Rows of spec 8.2: R = 256; the queue's cells, the frame's cells and the free cells decide. -/
theorem test_admission :
    let s (free cells : Nat) :=
      { (up.setQueues 2 { PortQueues.hard with queueD := ⟨1024, [.frame 0 cells 0]⟩ }) with
        fsq := { (up.setQueues 2 { PortQueues.hard with queueD := ⟨1024, [.frame 0 cells 0]⟩ }).fsq with free := free } }
    judgeQueue (s 270 1016) .data 5 (2, .d) = .admitted ∧ judgeQueue (s 265 1021) .data 4 (2, .d) = .queueFull ∧
      judgeQueue (s 259 0) .data 4 (3, .d) = .queueFull ∧
      judgeQueue (s 257 0) .craneControl 2 (5, .c) = .admitted := by decide +kernel

/-- The counter of spec 9.3: 4,294,967,000 and 1,500 bytes. -/
theorem test_counterWrap :
    let t := bump 5 1 1500 (base.setCounter 5 1 ⟨4294967000, false⟩)
    t.counter 5 1 = ⟨1204, true⟩ ∧ (t.source 22).detail = some (.counter 5 1) := by decide +kernel

/-- SET-STATION at a full static collection (spec 10.3), and READ-CELLS at its field widths (spec 11.4). -/
theorem test_replies :
    answered (.setStation 0x0A3F2100 9)
        { up with stt := { up.stt with statics := (List.range 64).map (fun k => (k, ⟨BitVec.ofNat 32 (k + 1), .static 0⟩)) } }
      = (6, []) ∧
    (answered (.readCells 0 0 256) up).1 = 0 ∧ (answered (.readCells 0 0 256) up).2.length = 524 := by decide +kernel

/-! ## Witnesses: the step, the bytes of commands, resets

Each theorem `witness_<Name>` gives states and operands that meet the hypotheses of `Obligations.<Name>`, clause by
clause, with boundary values. -/

/-- The part between the beginning and the end of a hard reset. -/
def inReset : State := { base with part := .inReset }

/-- The part RESTARTING, with a bound link that stands in segment 14. -/
def restarting : State := softRestart (up.setLink 3 (craneLink .live))

theorem witness_StepRunsFrontCommand :
    base.pending = [] ∧ ({ base with pending := [.copyActive] } : State).pending ≠ [] := by decide +kernel

theorem witness_IdentityChangesOnlyAtItsCommands :
    (exec (.resetEnd true 5) inReset = .next (after (.resetEnd true 5) inReset) ∧
      (after (.resetEnd true 5) inReset).straps ≠ inReset.straps ∧
      (after (.resetEnd true 5) inReset).sid ≠ inReset.sid) ∧
    (after (.setIdent 9) (taking (.setIdent 9) up)).sid ≠ up.sid ∧
    (after .powerOnReset { up with sid := 9, idc := idc23 }).sid ≠ 9 ∧
    (after .pinReset { up with sid := 9, idc := idc23 }).idc ≠ idc23 ∧
    (after (.setGroup 3 1 2 1) (taking (.setGroup 3 1 2 1) up)).idc ≠ up.idc ∧
    (after (.setClass 3 3 1 2 1 7 7) (taking (.setClass 3 3 1 2 1 7 7) up)).idc ≠ up.idc ∧
    (after (.setDomain 7 1 1 0xFFF 1) (taking (.setDomain 7 1 1 0xFFF 1) up)).idc ≠ up.idc :=
  ⟨⟨rfl, by decide +kernel⟩, by decide +kernel⟩

theorem witness_ActiveMapChangesOnlyAtSwapOrHardReset :
    (exec .copyActive (taking .copyActive up) = .next (after .copyActive (taking .copyActive up)) ∧
      Instr.copyActive ≠ .powerOnReset ∧ Instr.copyActive ≠ .pinReset ∧ (∀ m a, Instr.copyActive ≠ .resetEnd m a) ∧
      Instr.copyActive ≠ .coverageEpochExpiry) ∧
    (exec .coverageEpochExpiry up = .next (after .coverageEpochExpiry up) ∧ up.cvm.swapPending = false ∧
      up.cvm.epochTimer = none) :=
  ⟨⟨rfl, by decide, by decide, (fun _ _ h => nomatch h), by decide⟩, rfl, rfl, rfl⟩

/-- Commands whose arguments stand at the ends of their ranges. -/
def boundaryCommands : List Instr :=
  [.ident, .setIdent 0xFFFFFFFF, .setPort 255 255 255 255, .setGroup 0 0 0 0, .setClass 255 0 0xFFFF 0 255 0 255,
    .setDomain 0 0 0 0xFFFF 255, .listStations 1 65535, .setLearning 255 65535 0,
    .setCrane 255 0 0 0xFFFFFFFF 255 65535 0 255 255 255 65535 255, .readCrane 0 0, .setGeometry 65535 0 65535,
    .setWindow 65535 0 255 0 255 0, .streamCells 0 0 [], .streamCells 255 1 [⟨15, 0, .dead⟩],
    .streamCells 1 126 (List.replicate 126 ⟨0, 15, .clear⟩), .readCells 255 0 65535, .restart,
    .setReefer 255 0 255 0 65535 0 255 0, .setRate 255 0 255 0 65535 255, .setNoticeDest 255 0 0 255 255]

theorem witness_EncodedCommandsDecode :
    ∀ i ∈ boundaryCommands, i.wf = true ∧ (Encode.command i).isSome = true := by decide +kernel

theorem witness_ShortAndUnknownCommands :
    (Instr.wf (.setIdent 1) = true ∧ Encode.command (.setIdent 1) = some (0x02, [0, 0, 0, 1]) ∧
      3 < [0, 0, 0, 1].length ∧ 0 < [0, 0, 0, 1].length) ∧
    ((0 : Byte) = 0 ∧ 0x25 < (0x26 : Byte).toNat ∧ 0x25 < (0xFF : Byte).toNat) := by decide +kernel

theorem witness_HardResetsSetEveryBlock :
    inReset.part = .inReset ∧ (after .powerOnReset up).part = .inReset ∧ (after .pinReset up).part = .inReset := by
  decide +kernel

theorem witness_EntryToRunningStartsTheBlocks :
    State.reset.part = .starting ∧ restarting.part = .restarting ∧
      (restarting.link 3).state ≠ .unbound ∧ (restarting.link 3).segment.isSome = true ∧
      (restarting.link 4).state = .unbound := by decide +kernel

/-- RESTART as the first of two commands. -/
def restartFirst : Execution := { frameOf .restart with count := 2 }

theorem witness_RestartIsOrderedOrRefused :
    (Awaits { up with mga := ⟨[], .executing restartFirst⟩ } restartFirst .restart ∧
      restartFirst.entries.length + 1 ≠ restartFirst.count) ∧
    (Awaits (taking .restart up) (frameOf .restart) .restart ∧
      (frameOf .restart).entries.length + 1 = (frameOf .restart).count ∧
      (taking .restart up).usable (frameOf .restart).arrival = true) ∧
    (Awaits (taking .restart base) (frameOf .restart) .restart ∧
      (taking .restart base).usable (frameOf .restart).arrival = false) :=
  ⟨⟨⟨rfl, by decide +kernel⟩, by decide +kernel⟩, ⟨awaits_taking (by decide +kernel), by decide +kernel⟩,
    awaits_taking (by decide +kernel), by decide +kernel⟩

/-! ## Witnesses: ports and reception -/

/-- A data frame as it arrives: from station 0A3F.2000 on a quay port (`dir` 5, grade 5) or to it (`dir` 128). -/
def dataFrame (dir : Nat) : List Byte := arriving 0 dir 0 0x0A3F2000 7 [1, 2, 3]

/-- A frame of a number of zero bytes. -/
def zeros (n : Nat) : List Byte := List.replicate n 0 ++ fcsBytes (List.replicate n 0)

/-- A frame whose EtherType is the part's and whose other fields are given as bytes 14 and 15. -/
def formed (b14 b15 len : Nat) (size : Nat) : List Byte :=
  let b := List.replicate 12 0 ++ be2 0x8A5C ++ be1 b14 ++ be1 b15 ++ List.replicate 10 0 ++ be2 len ++
    List.replicate (size - 28) 0
  b ++ fcsBytes b

theorem fcsBytes_length (b : List Byte) : (fcsBytes b).length = 4 := by simp [fcsBytes, be4]

theorem frameBody_append (b : List Byte) : frameBody (b ++ fcsBytes b) = b := by
  simp [frameBody, fcsBytes_length]

theorem fcsMatches_append (b : List Byte) : fcsMatches (b ++ fcsBytes b) = true := by
  simp [fcsMatches, frameBody_append, fcsBytes_length]

/-- Frames at both ends of the length range, and just outside it, with a check sequence that matches. -/
theorem witness_ReceptionChecks_lengths (n : Nat) :
    fcsMatches (zeros n) = true ∧ (frameBody (zeros n)).length = n :=
  ⟨fcsMatches_append _, by simp [zeros, frameBody_append]⟩

theorem witness_ReceptionChecksDropInOrder :
    (State.reset.part = .starting ∧ inReset.part = .inReset ∧ restarting.part = .restarting ∧ up.part = .running) ∧
    (fcsMatches (dataFrame 5 ++ [0]) = false ∧ fcsMatches [1, 2, 3] = false) ∧
    (fcsMatches (zeros 64) = true ∧ etherTypeOf (frameBody (zeros 64)) ≠ 0x8A5C) ∧
    (let raw := formed 32 0 0 64;
      fcsMatches raw = true ∧ etherTypeOf (frameBody raw) = 0x8A5C ∧ versionOf (frameBody raw) = 2) ∧
    (let raw := formed 25 0 0 64;
      fcsMatches raw = true ∧ etherTypeOf (frameBody raw) = 0x8A5C ∧ versionOf (frameBody raw) = 1 ∧
        kindCodeOf (frameBody raw) = 9) ∧
    (let raw := formed 24 0 37 64;
      fcsMatches raw = true ∧ etherTypeOf (frameBody raw) = 0x8A5C ∧ versionOf (frameBody raw) = 1 ∧
        kindCodeOf (frameBody raw) = 8 ∧ (frameBody raw).length ≠ max 64 (28 + payloadLengthOf (frameBody raw))) ∧
    (let raw := formed 16 128 37 65;
      fcsMatches raw = true ∧ (frameBody raw).length = max 64 (28 + payloadLengthOf (frameBody raw)) ∧
        (byteAt (frameBody raw) 15).getMsbD 0 ≠ (!Port.isQuay 11) ∧
        (byteAt (frameBody raw) 15).getMsbD 0 = (!Port.isQuay 12)) ∧
    (let raw := formed 16 0 36 64;
      fcsMatches raw = true ∧ (frameBody raw).length = max 64 (28 + payloadLengthOf (frameBody raw)) ∧
        (byteAt (frameBody raw) 15).getMsbD 0 = (!Port.isQuay 0) ∧ kindCodeOf (frameBody raw) ∉ [1, 2, 4, 5] ∧
        ((up.setPort 0 { up.port 0 with mode := .disabled }).port 0).mode = .disabled ∧
        ((up.setPort 0 { up.port 0 with mode := .craneOnly }).port 0).mode = .craneOnly) := by decide +kernel

theorem mode_up : ∀ p, (up.port p).mode = .full := by decide +kernel

/-- The data frame passes every reception check at Q5. -/
theorem received_data : Received 5 (dataFrame 5) .data up :=
  ⟨by decide +kernel, by decide +kernel, by decide +kernel, by decide +kernel, by decide +kernel, .inl (mode_up _)⟩

/-- The data frame passes every reception check at T0. -/
theorem received_down : Received 12 (dataFrame 128) .data up :=
  ⟨by decide +kernel, by decide +kernel, by decide +kernel, by decide +kernel, by decide +kernel, .inl (mode_up _)⟩

theorem witness_UplinkDataIsLearntAndForwarded :
    up.part = .running ∧ Received (QPort.port 5) (dataFrame 5) .data up ∧
      (classify up.idc (readFrame (frameBody (dataFrame 5)) .data).station).map (fun c => c.domain) = some 0 ∧
      (up.domain 0).enabled = true ∧ (up.bucket (ingressBucket 5 3)).rate = 0 :=
  ⟨rfl, received_data, by decide +kernel⟩

/-- A frame of a kind to or from the crane of `craneLink`: from a quay port (`dir` 0) or to it (128). -/
def kindFrame (dir : Nat) (kind : Kind) : List Byte := arriving kind.code dir 251 0x0A3F1C20 7 [1, 2, 3]

theorem received_kind (kind : Kind) (s : State) (h : ∀ p, (s.port p).mode = .full) :
    Received 5 (kindFrame 0 kind) kind s ∧ Received 12 (kindFrame 128 kind) kind s := by
  cases kind <;>
    exact ⟨⟨by decide +kernel, by decide +kernel, by decide +kernel, by decide +kernel, by decide +kernel, .inl (h _)⟩,
      ⟨by decide +kernel, by decide +kernel, by decide +kernel, by decide +kernel, by decide +kernel, .inl (h _)⟩⟩

/-- The ingress policer of Q5 for a kind group at rate 1, with a credit: a frame of length 64 costs 1,024. -/
def ingressCredit (g : Fin 4) (c : Int) (s : State) : State := s.setBucket (ingressBucket 5 g) ⟨1, 64, false, c, true⟩

/-- Classes with the reefer option. -/
def reeferClasses : Idc :=
  { up.idc with classes := up.idc.classes.map (fun c => { c with options := ⟨false, true, false⟩ }) }

/-- A frame of every kind at Q5 and at T0: with link 3 bound to its SID and with no bound link, with and without the
reefer option, in a class that is not uplink-only; and a credit of 1,023, of 1,024, and an open policer. -/
theorem witness_UplinkDataIsLearntAndForwarded_kinds :
    (∀ kind, (Received 5 (kindFrame 0 kind) kind up ∧ Received 12 (kindFrame 128 kind) kind up) ∧
      (readFrame (frameBody (kindFrame 0 kind)) kind).peer ≠ up.sid ∧
      (readFrame (frameBody (kindFrame 128 kind)) kind).station ≠ up.sid ∧
      (readFrame (frameBody (kindFrame 0 kind)) kind).station = 0x0A3F1C20) ∧
    ((up.setLink 3 (craneLink .live)).part = .running ∧ ((up.setLink 3 (craneLink .live)).link 3).state ≠ .unbound ∧
      ((up.setLink 3 (craneLink .live)).link 3).config.sid = 0x0A3F1C20 ∧
      (∀ m : LinkNo, m.val < 3 → ((up.setLink 3 (craneLink .live)).link m).state = .unbound) ∧
      ∀ l, (up.link l).state = .unbound) ∧
    (classify up.idc 0x0A3F1C20).map (fun c => (c.domain, c.options)) = some (0, ⟨false, false, false⟩) ∧
    (classify reeferClasses 0x0A3F1C20).map (fun c => (c.domain, c.options)) = some (0, ⟨false, true, false⟩) ∧
    (up.domain 0).enabled = true ∧ Port.isQuay 12 = false :=
  ⟨fun kind => ⟨received_kind kind up mode_up, by cases kind <;> decide +kernel⟩, by decide +kernel⟩

/-- A credit below the cost of 1,024 does not conform, also above the burst; a credit of the cost and an open policer
do. -/
theorem witness_Conforms (g : Fin 4) :
    ¬Conforms (ingressBucket 5 g) 64 5 (ingressCredit g 1023 up) ∧
    Conforms (ingressBucket 5 g) 64 5 (ingressCredit g 1024 up) ∧
    ¬Conforms (ingressBucket 5 g) 65 5 (ingressCredit g 1024 up) ∧ Conforms (ingressBucket 5 g) 64 5 up := by
  revert g
  unfold Conforms
  decide +kernel

theorem witness_ClassificationDropsInOrder :
    (let s : State := { up with idc := { up.idc with groups := Vector.replicate 4 ⟨0, 0, false⟩ } };
      s.part = .running ∧ Received 5 (dataFrame 5) .data s ∧
        classify s.idc (readFrame (frameBody (dataFrame 5)) .data).station = none) ∧
    (let s : State := { up with idc := idc23 };
      Received 5 (dataFrame 5) .data s ∧
        (classify s.idc (readFrame (frameBody (dataFrame 5)) .data).station).map
          (fun c => (s.domain c.domain).enabled) = some false) ∧
    (let s : State := { up with idc := { up.idc with
        classes := up.idc.classes.map (fun c => { c with options := ⟨true, false, false⟩ }) } };
      Received 12 (dataFrame 128) .data s ∧ Port.isQuay 12 = false ∧
        (classify s.idc (readFrame (frameBody (dataFrame 128)) .data).station).map
          (fun c => ((s.domain c.domain).enabled, c.options.uplinkOnly)) = some (true, true)) :=
  ⟨⟨rfl, { received_data with }, by decide +kernel⟩, ⟨{ received_data with }, by decide +kernel⟩,
    { received_down with }, by decide +kernel⟩

/-- A command frame to the part, with a payload of a number of bytes: from Q5 (`dir` 0) or from T0 (128). -/
def commandFrame (dir n : Nat) : List Byte :=
  if dir = 0 then arriving 4 0 0 7 0xFFFFFF00 (List.replicate n 1)
  else arriving 4 128 0 0xFFFFFF00 7 (List.replicate n 1)

/-- The frames that wait at the agent in a witness. -/
def waiting (n : Nat) : State := { up with mga := ⟨List.replicate n ⟨12, 0, 0, [0, 0, 0, 1]⟩, .idle⟩ }

/-- What a command frame's witness needs beside its reception. -/
def judged (p : Port) (raw : List Byte) (s : State) : Bool × Nat × Nat :=
  ((s.port p).permitted, (readFrame (frameBody raw) .managementCommand).payload.length, s.mga.queue.length)

theorem received_command (n : Nat) :
    Received 5 (commandFrame 0 3) .managementCommand (waiting n) ∧
    Received 12 (commandFrame 128 3) .managementCommand (waiting n) ∧
    Received 12 (commandFrame 128 4) .managementCommand (waiting n) :=
  ⟨⟨by decide +kernel, by decide +kernel, by decide +kernel, by decide +kernel, by decide +kernel, .inl (mode_up _)⟩,
    ⟨by decide +kernel, by decide +kernel, by decide +kernel, by decide +kernel, by decide +kernel, .inl (mode_up _)⟩,
    ⟨by decide +kernel, by decide +kernel, by decide +kernel, by decide +kernel, by decide +kernel, .inl (mode_up _)⟩⟩

theorem witness_CommandFramesAreJudged :
    ((waiting 0).part = .running ∧
      (readFrame (frameBody (commandFrame 0 3)) .managementCommand).peer = (waiting 0).sid ∧
      (readFrame (frameBody (commandFrame 128 4)) .managementCommand).station = (waiting 0).sid ∧
      ((waiting 0).bucket (ingressBucket 5 3)).rate = 0) ∧
    (judged 5 (commandFrame 0 3) (waiting 0)).1 = false ∧
    judged 12 (commandFrame 128 3) (waiting 4) = (true, 3, 4) ∧
    judged 12 (commandFrame 128 4) (waiting 4) = (true, 4, 4) ∧
    judged 12 (commandFrame 128 4) (waiting 3) = (true, 4, 3) := by decide +kernel

/-- A command frame from Q5 of length 64 at a policer whose credit is 1,023 or 1,024. -/
theorem witness_CommandFramesAreJudged_policer :
    (∀ c : Int, Received (QPort.port 5) (commandFrame 0 3) .managementCommand (ingressCredit 3 c up)) ∧
    (ingressCredit 3 1023 up).part = .running ∧ (frameBody (commandFrame 0 3)).length = 64 ∧
    (readFrame (frameBody (commandFrame 0 3)) .managementCommand).peer = (ingressCredit 3 1023 up).sid ∧
    ¬Conforms (ingressBucket 5 3) 64 5 (ingressCredit 3 1023 up) ∧
    (∀ q, Port.quay 5 = some q → Conforms (ingressBucket q 3) 64 5 (ingressCredit 3 1024 up)) ∧
    Port.quay 12 = none :=
  ⟨fun _ => { (received_command 0).1 with }, rfl, by decide +kernel, by decide +kernel, (witness_Conforms 3).1,
    fun q h => by cases h; exact (witness_Conforms 3).2.1, rfl⟩

/-! ## Witnesses: crane links -/

/-- A state whose link 3 is the crane link in a state, with the map of `craneMap` valid. -/
def linked (state : LinkState) : State := { (up.setLink 3 (craneLink state)) with cvm := craneMap }

/-- A frame of crane control for that link, with a cycle and a number of payload bytes, to or from a peer. -/
def control (cycle n : Nat) (peer : Sid) : Frame :=
  { bytes := List.replicate (28 + n) 0, kind := .craneControl, down := false, grade := 0, cycle := cycle
    station := 0x0A3F1C20, peer := peer, payload := List.replicate n 0 }

/-- The distances 1 and 127 accepted, 0 a duplicate, 128 and 255 stale, against cycle 250; and a WAITING or LAPSED
link. -/
theorem witness_CycleFilterJudgesUplinkControl :
    [251, 121, 250, 122, 249].map (fun c => ((control c 0 0).cycle + 256 - 250) % 256) = [1, 127, 0, 128, 255] ∧
    (∀ st ∈ [LinkState.waiting, .live, .late, .lapsed],
      ((linked st).link 3).state = st ∧ ((linked st).link 3).state ≠ .unbound ∧
        ((linked st).link 3).cycle = some 250) ∧ (linked .live).usable 12 = true := by decide +kernel

/-- A state with a port DOWN. -/
def withDown (p : Port) (s : State) : State := s.setPort p { s.port p with link := .down }

/-- The trunk port of the frame and of the advisory DOWN, no notice destination and one behind the other trunk port.
-/
theorem witness_CycleFilterJudgesUplinkControl_trunk :
    (∀ st ∈ [LinkState.waiting, .live, .late, .lapsed], (withDown 12 (linked st)).usable 12 = false ∧
      ((withDown 12 (linked st)).link 3).state = st ∧ (withDown 12 (linked st)).ntu.dest.sid = none) ∧
    (∃ c, classify (withDown 12 (linked .late)).idc 0x0A3F1C20 = some c ∧
      ((withDown 12 (linked .late)).domain c.domain).trunk = .t0) ∧
    (let s : State := { withDown 12 (linked .late) with ntu := { up.ntu with dest := ⟨some 9, .t1, 0, 10⟩ } };
      NoticesGoOut s ∧ s.usable 12 = false) :=
  ⟨by decide +kernel, ⟨_, rfl, by decide +kernel⟩, .inr (by decide +kernel), by decide +kernel⟩

/-- A link policer of rate 1 with a credit. -/
def linkCredit (c : Int) : State := (linked .live).setBucket (linkBucket 3) ⟨1, 64, false, c, true⟩

/-- A link of primary port 5, during a handover to port 7 where that is given, with ports DOWN. -/
def dualCast (h : Option Handover) (down : List Port) : State :=
  down.foldl (fun s p => withDown p s) ((linked .live).setLink 3 { craneLink .live with context := h })

/-- The ports that take the frame and those that count it as port down, from none of a dual-cast link's ports to both,
and a single port that is DOWN; a notice destination is absent. -/
theorem witness_DownlinkControlIsCheckedAndDelivered_ports :
    [([], [5, 7], []), ([5], [7], [5]), ([7], [5], [7]), ([7, 5], [], [5, 7])].all (fun x =>
      let s := dualCast (some ⟨5, 7, 200⟩) x.1
      (s.link 3).primary == 5 && (s.link 3).state == .live && s.ntu.dest.sid == none &&
        ([5, 7].filter (fun q : QPort => s.usable (QPort.port q)) == x.2.1) &&
        ([5, 7].filter (fun q : QPort => !s.usable (QPort.port q)) == x.2.2)) = true ∧
    (dualCast none [5]).usable (QPort.port ((dualCast none [5]).link 3).primary) = false := by decide +kernel

theorem witness_DownlinkControlIsCheckedAndDelivered :
    (∀ n ∈ [0, 256, 257], (control 0 n 0x0A3F0001).kind = .craneControl ∧ (control 0 n 0).payload.length = n) ∧
    ((linked .lapsed).link 3).state = .lapsed ∧ ((linked .live).link 3).state ≠ .lapsed ∧
    ((linked .live).link 3).config.peer = some 0x0A3F0001 ∧ (0x0A3F0001 : Sid) ≠ (control 0 0 9).peer ∧
    (0x0A3F0001 : Sid) = (control 0 0 0x0A3F0001).peer ∧ ((linked .live).bucket (linkBucket 3)).rate = 0 ∧
    -- a cost of 36 × 16 = 576 against the credits 575 and 576
    ((linkCredit 575).bucket (linkBucket 3)).rate ≠ 0 ∧ (control 0 8 0).bytes.length * 16 = 576 ∧
    ((linkCredit 575).bucket (linkBucket 3)).credit < 576 ∧
    576 ≤ ((linkCredit 576).bucket (linkBucket 3)).credit ∧
    (linked .live).usable (QPort.port ((linked .live).link 3).primary) = true := by decide +kernel

/-- A position report of a number of payload bytes. -/
def positioned (payload : List Byte) : Frame := { control 0 0 0 with kind := .positionReport, payload := payload }

/-- A report too short, one that keeps segment 14 (4,219 and 4,520 the ends it keeps, at h = 20), and two that leave
it (4,179 and 4,520). -/
theorem witness_PositionReportsMoveTheLink :
    ((linked .waiting).link 3).state ≠ .unbound ∧ (positioned [1]).payload.length < 2 ∧
    2 ≤ (positioned (be2 4519)).payload.length ∧ u16At (positioned (be2 4519)).payload 0 = 4519 ∧
    ((linked .live).link 3).segment = some 14 ∧ (linked .live).cvm.active.geometry = ⟨0, 300, 20⟩ ∧
    [4519, 4180, 4520, 4179].map (segmentOf ⟨0, 300, 20⟩ (some 14)) = [14, 14, 15, 13] := by decide +kernel

/-- What `CellCheckDecides` asks of a link that has settled its context: whether its standing port stays, whether
the first usable candidate is barred, and that candidate. -/
def checkHyps (l : LinkNo) (s : State) : Bool × Bool × Option QPort :=
  let y := s.link l
  let usable := fun (q : QPort) => s.usable (QPort.port q)
  let standing := match y.context with
    | some h => h.new
    | none => y.primary
  let c := candidates s y
  let first := match c.1, c.2 with
    | some a, b => if usable a then some a else b.filter usable
    | none, b => b.filter usable
  ((c.1 == some standing || c.2 == some standing) && usable standing,
    first == y.reverted && usable y.primary, first)

/-- The link at a segment, with a primary port, a context, a reverted target and a state; and a port DOWN. -/
def checked (g : Nat) (q : QPort) (h : Option Handover) (r : Option QPort) (st : LinkState) (down : QPort) : State :=
  let s := { (up.setLink 3 { craneLink st with segment := some g, primary := q, context := h, reverted := r }) with
    cvm := craneMap }
  s.setPort (QPort.port down) { s.port (QPort.port down) with link := .down }

theorem witness_CellCheckDecides :
    -- a standing port that stays, a barred target, and no candidate
    (checkHyps 3 (checked 4 3 none none .live 11)).1 = true ∧
    checkHyps 3 (checked 7 5 none (some 8) .live 11) = (false, true, some 8) ∧
    (checkHyps 3 (checked 9 5 none none .live 11)).2.2 = none ∧
    -- a context: the old port a target again, and a redirect
    checkHyps 3 (checked 3 3 (some ⟨3, 5, 200⟩) none .live 11) = (false, false, some 3) ∧
    checkHyps 3 (checked 7 5 (some ⟨5, 7, 200⟩) none .live 11) = (false, false, some 8) ∧
    -- a context whose old or new port is not usable
    (checked 7 5 (some ⟨5, 7, 200⟩) none .live 5).usable 5 = false ∧
    (checked 7 5 (some ⟨5, 7, 200⟩) none .live 7).usable 7 = false ∧
    -- no context: a WAITING link moves, a LIVE one hands over, a LIVE one with its primary down fails over
    checkHyps 3 (checked 5 3 none none .waiting 11) = (false, false, some 5) ∧
    checkHyps 3 (checked 5 3 none none .live 11) = (false, false, some 5) ∧
    checkHyps 3 (checked 5 3 none none .live 3) = (false, false, some 5) ∧
    (checked 5 3 none none .live 3).usable 3 = false ∧
    ((checked 5 3 none none .live 3).link 3).state ≠ .unbound := by decide +kernel

/-- Missed rises from 0 and 1 against the late limit 2, and from 3 and 4 against the lapse limit 5. -/
theorem witness_CraneTimersSuperviseAndRevert :
    (∀ st ∈ [LinkState.live, .late], ((linked st).link 3).timer = some 20 ∧ ((linked st).link 3).state = st ∧
      ((linked st).link 3).config.late = 2 ∧ ((linked st).link 3).config.lapse = 5) ∧
    [0, 1, 3, 4].map (fun m : Nat => (decide (5 ≤ m + 1), decide (2 ≤ m + 1))) =
      [(false, false), (false, true), (false, true), (true, true)] ∧
    (∀ m ∈ [0, 1, 3, 4], (((linked .live).setLink 3 { craneLink .live with missed := m }).link 3).missed = m) ∧
    ((checked 7 5 (some ⟨5, 7, 200⟩) none .live 11).link 3).context = some ⟨5, 7, 200⟩ := by decide +kernel

/-- Announcements of both kinds on their way to link 3, and a re-evaluation. -/
def announced (e : Bool) (p : Port) (h : Option Handover) : State :=
  let s := checked 7 5 h none .live 11
  { s with flight := { s.flight with linkEvents := [⟨e, 3, p⟩], reevaluations := [3] } }

theorem witness_EventsAtLinksRunTheCellCheck :
    (∀ e ∈ [true, false], ∀ p ∈ ([5, 7, 9, 12] : List Port), ∀ h ∈ [none, some (⟨5, 7, 200⟩ : Handover)],
      ((announced e p h).link 3).state ≠ .unbound ∧
        (announced e p h).flight.linkEvents.find? (fun v => v.link == 3) = some ⟨e, 3, p⟩ ∧
        ((announced e p h).link 3).context = h) ∧
    ((announced true 5 none).link 3).position = some 4300 ∧ 3 ∈ (announced true 5 none).flight.reevaluations := by
  decide +kernel

/-- A state that binds: classes of spec 2.3, link 3 bound to 0A3F.1C20, stations static and crane-bound. -/
def bindable (statics : Nat) : State :=
  { linked .live with
    idc := idc23
    stt := { up.stt with statics := (0, ⟨0x0A3F1C20, .crane 3⟩) :: (1, ⟨0x0A3F1C21, .static 0⟩) ::
      (List.range statics).map (fun k => (k + 2, ⟨BitVec.ofNat 32 (k + 1), .static 0⟩)) } }

/-- SET-CRANE commands: of a link, a SID and a late limit, in range and out of it. -/
def setting (l : Nat) (sid : Sid) : Instr := .setCrane l sid 1 7 11 250 8 16 32 240 64 1

/-- Refused ones first: link 24, home 12, period 0, peer flag 2, a zero SID, a zero peer; then accepted ones. -/
def craneSettings : List Instr :=
  [setting 24 1, .setCrane 0 1 0 0 12 20 2 5 10 0 64 0, .setCrane 0 1 0 0 0 0 2 5 10 0 64 0,
    .setCrane 0 1 2 0 0 20 2 5 10 0 64 0, setting 0 0, .setCrane 0 1 1 0 0 20 2 5 10 0 64 0,
    .setCrane 3 0x0A3F1C20 0 0 4 20 2 5 10 1 600 0,
    .setCrane 3 0x0A3F1C20 0 0 0 255 0 0 0 255 63 0, setting 0 0x0A3F1C20, setting 23 0x0A3F1C22,
    setting 23 0x0A3F1C21, setting 3 0x0A3F1C20, setting 3 0x0A3F1C21, setting 23 0x0A3F2000]

/-- A state that no run reaches: the SID 0A3F.1C22 is crane-bound to the UNBOUND link 23 (log 30). -/
def selfBound : State :=
  { bindable 0 with stt := { (bindable 0).stt with statics := [(1, ⟨0x0A3F1C22, .crane 23⟩)] } }

/-- The accepted updates of link 3 leave its home port 4, and move it to 0 and to 11. -/
theorem witness_SetCraneBindsOrUpdates :
    (∀ i ∈ craneSettings, Awaits (taking i (bindable 0)) (frameOf i) i) ∧
    Awaits (taking (setting 23 0x0A3F1C22) selfBound) (frameOf (setting 23 0x0A3F1C22)) (setting 23 0x0A3F1C22) ∧
    (selfBound.link 23).state = .unbound ∧
    findStatic selfBound 0x0A3F1C22 = some (1, ⟨0x0A3F1C22, .crane 23⟩) ∧
    (classify selfBound.idc 0x0A3F1C22).map (fun k => k.options.crane) = some true ∧
    (selfBound.source 6).pending = stationFull selfBound ∧
    (let s : State := { bindable 0 with stt := { (bindable 0).stt with dynamics := [(7, ⟨0x0A3F1C22, 4, 9, 2⟩)] } };
      findDynamic s 0x0A3F1C22 ≠ none) ∧
    ((bindable 0).link 3).config.home = 4 ∧
    ((bindable 0).link 3).state ≠ .unbound ∧ ((bindable 0).link 3).config.sid = 0x0A3F1C20 ∧
    ((bindable 0).link 23).state = .unbound ∧
    (classify (bindable 0).idc 0x0A3F2000).map (fun k => k.options.crane) = some false ∧
    [0x0A3F1C20, 0x0A3F1C21, 0x0A3F1C22].map
        (fun x : Sid => (classify (bindable 0).idc x).map (fun k => k.options.crane)) =
      [some true, some true, some true] ∧
    findStatic (bindable 0) 0x0A3F1C20 = some (0, ⟨0x0A3F1C20, .crane 3⟩) ∧
    findStatic (bindable 0) 0x0A3F1C21 = some (1, ⟨0x0A3F1C21, .static 0⟩) ∧
    (findStatic (bindable 0) 0x0A3F1C22 = none ∧ Table.lowestFree (bindable 0).stt.statics 64 = some 2) ∧
    (findStatic (bindable 62) 0x0A3F1C22 = none ∧ Table.lowestFree (bindable 62).stt.statics 64 = none) :=
  ⟨awaits_all _ _ (by decide +kernel), awaits_all [setting 23 0x0A3F1C22] _ (by decide +kernel) _ (by simp),
    by decide +kernel⟩

theorem witness_ClearAndReadCrane :
    (∀ i ∈ [Instr.clearCrane 24, .clearCrane 23, .clearCrane 3, .readCrane 24 0, .readCrane 23 1, .readCrane 3 1],
      (frameOf i).awaited = some i) ∧
    ((bindable 0).link 23).state = .unbound ∧ ((bindable 0).link 3).state ≠ .unbound ∧
    findStatic (bindable 0) ((bindable 0).link 3).config.sid = some (0, ⟨0x0A3F1C20, .crane 3⟩) := by decide +kernel

/-! ## Witnesses: reefers and steering -/

/-- A table of `n` records. -/
@[irreducible] def filled {α : Type} (n : Nat) (f : Nat → α) : Table α := (List.range n).map (fun k => (k, f k))

theorem filled_sorted {α : Type} (n : Nat) (f : Nat → α) : (filled n f).Pairwise (fun a b => a.1 < b.1) := by
  rw [filled]; exact List.pairwise_map.2 List.pairwise_lt_range

theorem filled_wf {α : Type} (n : Nat) (f : Nat → α) : Table.wf n (filled n f) :=
  ⟨filled_sorted n f, by
    intro e he
    rw [filled] at he
    obtain ⟨k, hk, rfl⟩ := List.mem_map.1 he
    exact List.mem_range.1 hk⟩

theorem filled_get {α : Type} (n k : Nat) (f : Nat → α) (h : k < n) : Table.get (filled n f) k = some (f k) :=
  (Table.get_eq_some _ _ _ (filled_sorted n f)).2 (by simpa [filled] using h)

theorem filled_freeFrom {α : Type} (n : Nat) (f : Nat → α) (fuel k : Nat) (h : k + fuel ≤ n) :
    Table.freeFrom (filled n f) fuel k = none := by
  induction fuel generalizing k with
  | zero => rfl
  | succ m ih =>
    rw [Table.freeFrom, filled_get n k f (by omega)]
    simpa using ih (k + 1) (by omega)

/-- A full collection has no free place. -/
theorem filled_full {α : Type} (n : Nat) (f : Nat → α) : Table.lowestFree (filled n f) n = none :=
  filled_freeFrom n f n 0 (by omega)

/-- A reefer record in a state, with a report counter, a missed count and a place. -/
def reefer (sid : Sid) (st : ReeferState) (counter missed : Nat) (heard : Bool) (place : BatchPlace) : Reefer :=
  { sid := sid, state := st, readings := ⟨.cooling, some 40, some 3, some (-180), some (-175), none, [17], counter⟩
    missed := missed, heard := heard, stamp := 0, place := place }

theorem reefer_lawful (sid : Sid) (st : ReeferState) (counter missed : Nat) (heard : Bool) (place : BatchPlace)
    (h : missed ≤ 15) (h' : heard = true → missed = 0) : (reefer sid st counter missed heard place).lawful where
  missed := h
  heard := h'
  alarms := (by decide : [17].length ≤ 4 ∧ [(17 : Byte)].Nodup ∧ 0 ∉ [(17 : Byte)] ∧ 255 ∉ [(17 : Byte)])
  segment := by intro g hg; cases hg; omega
  lane := by intro l hl; cases hl; omega

/-- A state with one reefer record, at place 12. -/
def oneReefer (r : Reefer) : State := { up with rcn := { up.rcn with reefers := [(12, r)] } }

/-- The records of a full reefer table. -/
def reeferAt (k : Nat) : Reefer := reefer (BitVec.ofNat 32 (k + 1)) .reporting 0 0 true .none

/-- A state with a full reefer table. -/
def manyReefers : State := { up with rcn := { up.rcn with reefers := filled 4096 reeferAt } }

theorem manyReefers_reefers : manyReefers.rcn.reefers = filled 4096 reeferAt := rfl

theorem reeferLaw_one (r : Reefer) (h : r.lawful) : ReeferLaw (oneReefer r) where
  places := ⟨List.pairwise_singleton _ _, by intro e he; cases List.mem_singleton.1 he; exact (by decide : 12 < 4096)⟩
  unique := List.nodup_singleton _
  records := by intro e he; cases List.mem_singleton.1 he; exact h

theorem reeferLaw_many : ReeferLaw manyReefers where
  places := by rw [manyReefers_reefers]; exact filled_wf 4096 reeferAt
  unique := by
    rw [manyReefers_reefers, filled, List.map_map]
    refine List.Nodup.map_on ?_ List.nodup_range
    intro a ha b hb hab
    rw [List.mem_range] at ha hb
    have := congrArg BitVec.toNat hab
    simp only [Function.comp, reeferAt, reefer, BitVec.toNat_ofNat] at this
    omega
  records := by
    intro e he
    rw [manyReefers_reefers, filled, List.mem_map] at he
    obtain ⟨k, -, rfl⟩ := he
    exact reefer_lawful _ _ _ _ _ _ (by omega) (fun _ => rfl)

/-- A report body with a counter, unit state and alarm codes (R178), and its check sequence. -/
def reportBody (counter unit : Nat) (alarms : List Byte) : List Byte :=
  let b := be2 counter ++ be1 unit ++ be2 40 ++ be1 3 ++ signed2 (-180) ++ signed2 (-175) ++ signed2 (-32768) ++
    be1 alarms.length ++ alarms
  b ++ be2 (crc16 b).toNat

/-- The reefer's report in a frame. -/
def reported (body : List Byte) : Frame :=
  { control 0 0 0 with kind := .reeferReport, station := 0x0A3F2400, payload := body }

theorem findReefer_many : findReefer manyReefers 0x0A3F2400 = none := by
  rw [findReefer, manyReefers_reefers, Table.find, List.find?_eq_none]
  intro e he h
  rw [filled, List.mem_map] at he
  obtain ⟨k, hk, rfl⟩ := he
  rw [List.mem_range] at hk
  have := congrArg BitVec.toNat (eq_of_beq h)
  have e : (0x0A3F2400 : Sid).toNat = 0x0A3F2400 := rfl
  simp only [reeferAt, reefer, BitVec.toNat_ofNat, e] at this
  omega

/-- The counter and the reading of a report body, when it passes its checks. -/
theorem witness_ReeferReportsAreTakenAtTheirRecords :
    (readReport (reportBody 100 1 []).dropLast = none ∧ readReport (reportBody 100 1 [] ++ [0]) = none ∧
      readReport (reportBody 100 5 []) = none ∧ readReport (List.replicate 12 0) = none) ∧
    [0, 1, 50, 82, 32767, 32768, 60000].map (fun c => (readReport (reportBody c 1 [88])).map (·.readings.counter)) =
      [some 0, some 1, some 50, some 82, some 32767, some 32768, some 60000] ∧
    -- against a stored counter of 50: the restart, d = 1, 0, 32767 and 32768
    [51, 50, 32817, 32818].map (fun n => (n + 65536 - 50) % 65536) = [1, 0, 32767, 32768] ∧
    ReeferLaw (oneReefer (reefer 0x0A3F2400 .reporting 50 3 false .none)) ∧
    findReefer (oneReefer (reefer 0x0A3F2400 .reporting 50 3 false .none)) (reported []).station =
      some (12, reefer 0x0A3F2400 .reporting 50 3 false .none) ∧
    (ReeferLaw (oneReefer (reefer 1 .silent 50 15 false .none)) ∧
      findReefer (oneReefer (reefer 1 .silent 50 15 false .none)) (reported []).station = none ∧
      Table.lowestFree (oneReefer (reefer 1 .silent 50 15 false .none)).rcn.reefers 4096 = some 0) ∧
    (ReeferLaw manyReefers ∧ findReefer manyReefers (reported []).station = none ∧
      Table.lowestFree manyReefers.rcn.reefers 4096 = none ∧ manyReefers.usable 12 = true) :=
  ⟨by decide +kernel, by decide +kernel, by decide,
    reeferLaw_one _ (reefer_lawful _ _ _ _ _ _ (by omega) (fun h => nomatch h)), by decide +kernel,
    ⟨reeferLaw_one _ (reefer_lawful _ _ _ _ _ _ (by omega) (fun h => nomatch h)), by decide +kernel⟩,
    reeferLaw_many, findReefer_many, manyReefers_reefers ▸ filled_full 4096 reeferAt, by decide +kernel⟩

/-- The values of a body at the ends of their ranges: absent and clamped temperatures, a segment and a lane out of
range, and five alarm codes with 0, 255 and a repeat among them. -/
theorem witness_ReeferReports_values :
    (let codes : List Byte := [9, 0, 9, 8, 255, 7, 6, 5];
      let b := be2 65535 ++ be1 4 ++ be2 300 ++ be1 8 ++ signed2 (-401) ++ signed2 801 ++ signed2 (-32768) ++
        be1 codes.length ++ codes;
      (readReport (b ++ be2 (crc16 b).toNat)).map (fun r => r.readings) =
        some ⟨.fault, some 255, none, some (-400), some 800, none, [9, 8, 7, 6], 65535⟩ ∧
        (readReport (b ++ be2 (crc16 b).toNat)).map (fun r => r.truncated) = some true) ∧
    (let b := be2 0 ++ be1 0 ++ be2 65535 ++ be1 7 ++ signed2 300 ++ signed2 (-500) ++ signed2 800 ++ be1 0;
      readReport (b ++ be2 (crc16 b).toNat) =
        some ⟨⟨.off, none, some 7, some 300, some (-500), some 800, [], 0⟩, false⟩) := by decide +kernel

/-- The reefer with a stored report of counter 50, in a state of the alarm policer (rate, credit) and with T0 usable
or not. -/
def alarming (st : ReeferState) (rate : Nat) (c : Int) (t0 : Bool) : State :=
  let s := (oneReefer (reefer 0x0A3F2400 st 50 0 true .none)).setBucket alarmBucket ⟨rate, 64, false, c, true⟩
  if t0 then s else withDown 12 s

/-- Against that record: a restart; a report that changes nothing significant; and one with the new code 88. -/
theorem witness_ReeferReports_alarms :
    (∀ st ∈ [ReeferState.reporting, .overdue], ∀ t0 ∈ [true, false],
      findReefer (alarming st 1 447 t0) (reported []).station = some (12, reefer 0x0A3F2400 st 50 0 true .none) ∧
        (alarming st 1 447 t0).usable 12 = t0) ∧
    (readReport (reportBody 0 1 [17])).map (·.readings.counter) = some 0 ∧
    (readReport (reportBody 51 1 [17])).map (·.readings) =
      some { (reefer 0x0A3F2400 .reporting 50 0 true .none).readings with counter := 51 } ∧
    (readReport (reportBody 51 1 [17, 88])).map (·.readings.alarms) = some [17, 88] ∧
    up.rcn.settings.threshold = 5 ∧ (reported []).bytes.length = 28 := by decide +kernel

/-- Supply air changed by 4 and 5 against the threshold 5; the alarm policer for a frame of 28 bytes, a cost of 448,
at a credit below it, at it, and open. -/
theorem witness_ReeferReports_thresholds :
    ((5 : Int) ≤ |(-170) - (-175)| ∧ ¬(5 : Int) ≤ |(-179) - (-175)|) ∧
    ¬Conforms alarmBucket 28 5 (alarming .reporting 1 447 true) ∧
    Conforms alarmBucket 28 5 (alarming .reporting 1 448 true) ∧
    Conforms alarmBucket 28 5 (alarming .reporting 0 0 false) := by
  unfold Conforms
  exact ⟨by norm_num, by decide +kernel⟩

/-- A state to steer in: 1 static on Q2, 0A3F.1C20 crane-bound to link 3, 3 dynamic on Q4, and a reefer at a cell
(Q5, Q4). -/
def steering : State :=
  { linked .live with
    stt := { up.stt with
      statics := [(0, ⟨1, .static 2⟩), (1, ⟨0x0A3F1C20, .crane 3⟩)], dynamics := [(7, ⟨3, 4, 9, 2⟩)] }
    rcn := { up.rcn with reefers := [(12, { reefer 5 .reporting 0 0 true .none with
      readings := ⟨.off, some 5, some 0, none, none, none, [], 0⟩ })] } }

/-- A frame for a station that every port carries. -/
def steered (sid : Sid) : Frame := { control 0 0 0 with kind := .managementCommand, station := sid }

theorem witness_SteeringFollowsTheRecords :
    (steered 1).kind.craneOnly = true ∧ findStatic steering 1 = some (0, ⟨1, .static 2⟩) ∧
    steering.usable (QPort.port 2) = true ∧ findStatic steering 0x0A3F1C20 = some (1, ⟨0x0A3F1C20, .crane 3⟩) ∧
    steering.usable (QPort.port (steering.link 3).primary) = true ∧
    (findStatic steering 3 = none ∧ findDynamic steering 3 = some (7, ⟨3, 4, 9, 2⟩) ∧
      steering.usable (QPort.port 4) = true) ∧
    (findStatic steering 5 = none ∧ findDynamic steering 5 = none ∧ steering.cvm.valid = true ∧
      (findReefer steering 5).map (fun x => (x.1, x.2.readings.segment, x.2.readings.lane)) =
        some (12, some 5, some 0) ∧
      ((steering.cvm.active.cell 5 0).primary.toList ++ (steering.cvm.active.cell 5 0).secondary.toList).filter
        (fun q => steering.usable (QPort.port q)) = [5, 4]) ∧
    (findStatic steering 6 = none ∧ findDynamic steering 6 = none ∧ findReefer steering 6 = none ∧
      (steering.bucket (floodBucket 0)).rate = 0 ∧
      ((List.finRange 12).filter (fun q => (steering.domain 0).flood.getLsbD q.val && steering.usable (QPort.port q))).length
        = 12 ∧
      (List.finRange 12).filter (fun q => (steering.domain 7).flood.getLsbD q.val && steering.usable (QPort.port q)) = [])
    := by decide +kernel

/-- A frame of a kind for a station. -/
def steeredAs (kind : Kind) (sid : Sid) : Frame := { steered sid with kind := kind }

/-- Kinds that a CRANE-ONLY port carries and kinds that it does not; record ports DOWN; a reefer whose cell has no
usable port, and one placed while no map is in use; and a flood policer of rate 1 whose credit is below and at the
cost of 448. -/
theorem witness_SteeringFollowsTheRecords_ports :
    ([Kind.craneControl, .positionReport, .managementCommand, .managementReply].map Kind.craneOnly =
        [true, true, true, true] ∧
      [Kind.data, .reeferReport, .notice, .linkAdvisory, .reeferBatch].map
        (fun k =>
          [Kind.craneControl, .positionReport, .managementCommand, .managementReply].contains (steeredAs k 6).kind) =
        [false, false, false, false, false]) ∧
    (let s := steering.setPort 2 { steering.port 2 with mode := .craneOnly };
      (s.port 2).mode = .craneOnly ∧ s.usable 2 = true ∧ findStatic s 1 = some (0, ⟨1, .static 2⟩)) ∧
    (∀ p ∈ ([2, 4, 5] : List Port), (withDown p steering).usable p = false) ∧
    (let s := withDown 4 (withDown 5 steering);
      s.cvm.valid = true ∧ (findReefer s 5).map (fun x => (x.1, x.2.readings.segment, x.2.readings.lane)) =
          some (12, some 5, some 0) ∧
        ((s.cvm.active.cell 5 0).primary.toList ++ (s.cvm.active.cell 5 0).secondary.toList).filter
          (fun q => s.usable (QPort.port q)) = []) ∧
    ({ steering with cvm := up.cvm } : State).cvm.valid = false ∧
    (let s := fun c : Int => steering.setBucket (floodBucket 0) ⟨1, 64, false, c, true⟩;
      ¬Conforms (floodBucket 0) 28 12 (s 447) ∧ Conforms (floodBucket 0) 28 12 (s 448) ∧
        (steered 6).bytes.length = 28) := by
  unfold Conforms
  decide +kernel

/-- The records of a full dynamic collection. -/
def stationAt (k : Nat) : DynRec := ⟨BitVec.ofNat 32 (k + 10), 4, 9, 2⟩

/-- A state with a full dynamic collection. -/
def manyStations : State := { up with stt := { up.stt with dynamics := filled 2048 stationAt } }

theorem manyStations_dynamics : manyStations.stt.dynamics = filled 2048 stationAt := rfl

theorem findDynamic_many : findDynamic manyStations 1 = none := by
  rw [findDynamic, manyStations_dynamics, Table.find, List.find?_eq_none]
  intro e he h
  rw [filled, List.mem_map] at he
  obtain ⟨k, hk, rfl⟩ := he
  rw [List.mem_range] at hk
  have := congrArg BitVec.toNat (eq_of_beq h)
  have e : (1 : Sid).toNat = 1 := rfl
  simp only [stationAt, BitVec.toNat_ofNat, e] at this
  omega

/-- Record 3 on Q4 at grade 9, age 2, M = 2: its own port; another port at grade 11 and 10; another at age 1. -/
theorem witness_LearningFollowsTheEvidence :
    findStatic steering 1 ≠ none ∧
    (findStatic steering 9 = none ∧ findDynamic steering 9 = none ∧
      Table.lowestFree steering.stt.dynamics 2048 = some 0) ∧
    (findStatic manyStations 1 = none ∧ findDynamic manyStations 1 = none ∧
      Table.lowestFree manyStations.stt.dynamics 2048 = none) ∧
    (findStatic steering 3 = none ∧ findDynamic steering 3 = some (7, ⟨3, 4, 9, 2⟩) ∧ (4 : QPort) ≠ 5 ∧
      9 + steering.stt.margin ≤ 11 ∧ 10 < 9 + steering.stt.margin) ∧
    (steering.source 6).pending = stationFull steering :=
  ⟨by decide +kernel, by decide +kernel, ⟨rfl, findDynamic_many, manyStations_dynamics ▸ filled_full 2048 stationAt⟩,
    by decide +kernel⟩

/-! ## Witnesses: the map -/

/-- A part that has a COMMIT-MAP in progress. -/
def committing : State :=
  { linked .live with
    cvm := { craneMap with swapPending := true, epochTimer := some 100 }
    mga := ⟨[], .held (frameOf .commitMap)⟩ }

theorem witness_SpanEventsAndTheSwap :
    ({ up with flight := { up.flight with spans := [.add 0] } } : State).flight.spans = .add 0 :: [] ∧
    ({ up with flight := { up.flight with spans := [.remove 255, .add 0] } } : State).flight.spans =
      .remove 255 :: [.add 0] ∧
    Awaits (taking .commitMap up) (frameOf .commitMap) .commitMap ∧
    (after .initializationEnd State.reset).cvm.epochTimer = some 100 ∧
    (after .initializationEnd State.reset).cvm.swapPending = false ∧
    committing.cvm.epochTimer = some 100 ∧ committing.cvm.swapPending = true ∧
    committing.mga.phase = .held (frameOf .commitMap) :=
  ⟨rfl, rfl, awaits_taking (by decide +kernel), by decide +kernel⟩

theorem witness_MapSettingsCommands :
    (∀ i ∈ [Instr.setGeometry 65535 49 256, .setGeometry 0 50 255, .setGeometry 0 1000 0, .setGeometry 0 1001 0,
        .copyActive, .setEpoch 9, .setEpoch 10, .setEpoch 1000, .setEpoch 1001, .setWindow 0 255 0 7 2 0,
        .setWindow 0 255 0 7 1 2, .setWindow 300 400 0 7 0 0, .setWindow 0 0 8 255 1 1, .setWindow 255 256 7 8 1 1,
        .setWindow 0 0 0 0 0 0], (frameOf i).awaited = some i) ∧
    (min 255 400 < 300 ∧ min 7 255 < 8 ∧ 255 ≤ min 255 256 ∧ 7 ≤ min 7 8) := by decide +kernel

/-- The laws of the map hold in the window's state, whose cursor stands in the window. -/
theorem mapLaw_windowed : MapLaw windowed where
  bank0 := ⟨by decide +kernel, fun _ h => absurd h List.not_mem_nil, by decide +kernel⟩
  bank1 := ⟨by decide +kernel, fun _ h => absurd h List.not_mem_nil, by decide +kernel⟩
  window := by decide +kernel
  write := by intro p h; cases h; exact ⟨by decide, by decide, by decide, by decide⟩
  read := by intro p h; exact nomatch h
  epoch := by decide +kernel

theorem witness_CellCommandsWalkTheWindow :
    (MapLaw (taking (.streamCells 0 1 [⟨4, 4, .clear⟩]) windowed)) ∧
    (∀ i ∈ [Instr.streamCells 0 0 [], .streamCells 0 1 [⟨4, 4, .clear⟩],
        .streamCells 1 64 (List.replicate 64 ⟨4, 7, .dead⟩), .streamCells 1 65 (List.replicate 65 ⟨4, 7, .dead⟩),
        .readCells 2 0 1, .readCells 0 0 0, .readCells 1 1 1, .readCells 1 0 256, .readCells 0 0 257],
      (frameOf i).awaited = some i ∧ 12 ≤ (frameOf i).room) :=
  ⟨{ mapLaw_windowed with }, by decide +kernel⟩

/-! ## Witnesses: the station table -/

/-- A part whose two sweeps and purge walk stand at a place, with timers running. -/
def walking (place : Nat) (remembered : Bool) (waiting : QuaySet) : State :=
  { steering with
    stt := { steering.stt with
      dynamics := [(7, ⟨3, 4, 9, 2⟩), (8, ⟨4, 4, 9, 1⟩)], agingTimer := some 300, sweep := some place
      remembered := remembered, walk := some ⟨place, 0x010⟩, waiting := waiting }
    rcn := { steering.rcn with periodTimer := some 120, sweep := some place, remembered := remembered }
    flight := { up.flight with stationDowns := [4, 12] } }

theorem witness_PeriodTimersBeginSweeps :
    (after .initializationEnd State.reset).stt.agingTimer = some 300 ∧
    (after .initializationEnd State.reset).stt.sweep = none ∧
    (after .initializationEnd State.reset).rcn.periodTimer = some 120 ∧
    (after .initializationEnd State.reset).rcn.sweep = none ∧
    (∀ b ∈ [true, false], (walking 0 b 0).stt.agingTimer = some 300 ∧ (walking 0 b 0).stt.sweep ≠ none ∧
      (walking 0 b 0).stt.remembered = b ∧ (walking 0 b 0).rcn.periodTimer = some 120 ∧
      (walking 0 b 0).rcn.sweep ≠ none ∧ (walking 0 b 0).rcn.remembered = b) := by decide +kernel

theorem witness_StationWalksVisitEachPlace :
    (∀ k ∈ [0, 7, 8, 2046, 2047], (walking k true 2).stt.sweep = some k ∧
      (walking k false 0).stt.walk = some ⟨k, 0x010⟩) ∧
    Table.get (walking 0 true 2).stt.dynamics 0 = none ∧
    Table.get (walking 7 true 2).stt.dynamics 7 = some ⟨3, 4, 9, 2⟩ ∧
    Table.get (walking 8 true 2).stt.dynamics 8 = some ⟨4, 4, 9, 1⟩ ∧
    (0x010 : QuaySet).getLsbD (4 : QPort).val = true ∧ (0x010 : QuaySet).getLsbD (5 : QPort).val = false ∧
    4 ∈ (walking 0 true 2).flight.stationDowns ∧ 12 ∈ (walking 0 true 2).flight.stationDowns ∧
    Port.quay 4 = some 4 ∧ Port.isQuay 12 = false ∧ (walking 0 true 2).stt.walk ≠ none ∧
    4 ∈ ({ walking 0 true 2 with stt := up.stt } : State).flight.stationDowns ∧ up.stt.walk = none := by decide +kernel

theorem witness_StationCommandsWriteAndRead :
    (∀ i ∈ [Instr.setStation 1 12, .setStation 1 11, .setStation 3 0, .clearStation 1, .clearStation 3,
        .readStation 1, .readStation 3, .readStation 0x0A3F1C20, .clearStation 0x0A3F1C20, .setStation 0x0A3F1C20 0,
        .readStation 9, .clearStation 9], (frameOf i).awaited = some i) ∧
    (findStatic steering 0x0A3F1C20 = some (1, ⟨0x0A3F1C20, .crane 3⟩) ∧
      findStatic steering 1 = some (0, ⟨1, .static 2⟩)) ∧
    (findStatic steering 3 = none ∧ findDynamic steering 3 = some (7, ⟨3, 4, 9, 2⟩) ∧
      Table.lowestFree steering.stt.statics 64 = some 2) ∧
    (findStatic steering 9 = none ∧ findDynamic steering 9 = none) ∧
    (steering.source 6).pending = stationFull steering ∧
    (findStatic (bindable 62) 9000 = none ∧ Table.lowestFree (bindable 62).stt.statics 64 = none) := by decide +kernel

theorem witness_ListCommandsReturnWholeRecords :
    ∀ i ∈ [Instr.listStations 0 63, .listStations 0 64, .listStations 1 0, .listStations 1 2047, .listStations 1 2048,
        .listStations 2 0, .listReefers 0 5, .listReefers 4095 0, .listReefers 4096 0, .listReefers 0 6],
      (frameOf i).awaited = some i ∧ 6 ≤ (frameOf i).room := by decide +kernel

theorem witness_SettingsCommandsWriteTheSettings :
    ∀ i ∈ [Instr.setLearning 7 0 0, .setLearning 8 9 1, .setLearning 254 3601 1, .setLearning 255 10 0,
        .setLearning 0 3600 0, .setReefer 0 0 0 0 0 255 255 0, .setReefer 50 8 8 60 600 1 7 1,
        .setReefer 51 9 9 61 601 0 0 0, .setReefer 1 1 1 1 10 2 0 0, .setReefer 1 1 1 1 9 0 8 0],
      (frameOf i).awaited = some i := by decide +kernel

/-! ## Witnesses: reefers and batches -/

/-- An entry of a batch buffer. -/
def entryOf (sid : Sid) : BatchEntry := ⟨sid, .reporting, .cooling, none, none, none, [], 0, 0, none, none⟩

/-- One reefer at place 12, the sweep at a place, and a FILLING buffer of `n` entries, which holds the reefer's own
first when it is IN-FILLING; allowance 3 and silent threshold 6, since no map is in use. -/
def sweeping (r : Reefer) (k n : Nat) (remembered : Bool) : State :=
  { up with rcn := { up.rcn with
      reefers := [(12, r)], sweep := some k, remembered := remembered
      bufferA := ⟨.filling, (List.range n).map (fun j =>
        entryOf (if j = 0 then r.sid else BitVec.ofNat 32 (0x70000000 + j)))⟩ } }

/-- A REPORTING, OVERDUE or SILENT record that was not heard, with a missed count. -/
def unheard (st : ReeferState) (missed : Nat) : Reefer := reefer 0x0A3F2400 st 50 missed false .unsent

theorem witness_SweepVisitSupervisesTheRecord :
    (steering.cvm.valid = true ∧ up.cvm.valid = false ∧ (unheard .silent 15).readings.segment = some 40 ∧
      (unheard .silent 15).readings.lane = some 3) ∧
    (∀ k ∈ [0, 12, 4094, 4095], (sweeping (unheard .reporting 2) k 0 true).rcn.sweep = some k) ∧
    Table.get (sweeping (unheard .reporting 2) 0 0 false).rcn.reefers 0 = none ∧
    (∀ m ∈ [2, 3, 4, 5, 14, 15], Table.get (sweeping (unheard .silent m) 12 47 false).rcn.reefers 12 =
      some (unheard .silent m) ∧ (unheard .silent m).heard = false) ∧
    (reefer 1 .reporting 0 0 true .none).heard = true ∧
    -- missed 2 and 3 at the allowance 3, missed 4 and 5 at the threshold 6
    (allowance (sweeping (unheard .reporting 2) 12 0 false) (unheard .reporting 2).readings = 3 ∧
      silentThreshold (sweeping (unheard .reporting 2) 12 0 false) (unheard .reporting 2).readings = 6) ∧
    -- retirement: on, with and without room in the buffer
    ((sweeping (unheard .silent 15) 12 47 false).rcn.settings.retire = true ∧
      (sweeping (unheard .silent 15) 12 47 false).rcn.filling.entries.length < 48 ∧
      ¬(sweeping (unheard .silent 15) 12 48 false).rcn.filling.entries.length < 48 ∧
      (unheard .silent 15).place = .unsent) := by decide +kernel

/-- A part with a batch timer running, a number of entries waiting, and the other buffer in a state. -/
def batching (n : Nat) (other : BufferState) (due : Bool) (place : BatchPlace) : State :=
  let s := sweeping (reefer 0x0A3F2400 .reporting 50 0 true place) 12 n false
  { s with rcn := { s.rcn with batchTimer := some 10, sendDue := due, bufferB := ⟨other, []⟩ } }

theorem witness_BatchBuffersFillAndSwap :
    (∀ n ∈ [0, 46, 47, 48], (batching n .idle false .unsent).rcn.filling.entries.length = n ∧
      Table.get (batching n .idle false .unsent).rcn.reefers 12 = some (reefer 0x0A3F2400 .reporting 50 0 true .unsent) ∧
      (batching n .idle false .unsent).rcn.other.state = .idle ∧
      (batching n .sending false .unsent).rcn.other.state = .sending ∧
      (batching n .sending false .unsent).rcn.batchTimer = some 10) ∧
    (reefer 1 .reporting 50 0 true (.inFilling 0)).stamp ≤ up.seconds ∧
    (batching 0 .idle false .unsent).rcn.filling.entries = [] ∧ (batching 1 .idle true .unsent).rcn.sendDue = true ∧
    (batching 1 .sending false .unsent).rcn.filling.entries ≠ [] ∧
    (batching 1 .sending false .unsent).rcn.sendDue = false ∧ (batching 1 .idle false .unsent).usable 12 = true ∧
    ({ batching 1 .idle false .unsent with ports := base.ports } : State).usable 12 = false ∧
    ({ batching 47 .idle false .unsent with ports := base.ports } : State).usable 12 = false := by decide +kernel

theorem witness_ReadAndForgetReefer :
    (∀ i ∈ [Instr.readReefer 0x0A3F2400, .forgetReefer 0x0A3F2400, .readReefer 1, .forgetReefer 1],
      (frameOf i).awaited = some i) ∧
    findReefer (batching 1 .idle false (.inFilling 0)) 1 = none ∧
    (findReefer (batching 1 .idle false (.inFilling 0)) 0x0A3F2400).map (fun x => (x.1, x.2.place, x.2.stamp)) =
      some (12, .inFilling 0, 0) ∧
    (findReefer (batching 1 .idle false .unsent) 0x0A3F2400).map (fun x => x.2.place) = some .unsent := by
  decide +kernel

/-! ## Witnesses: the frame store and queues -/

/-- Queues with the given entries of C, U, B and D. -/
def holding (c u b d : List Entry) : PortQueues :=
  { PortQueues.hard with queueC := ⟨512, c⟩, queueU := ⟨256, u⟩, queueB := ⟨1024, b⟩, queueD := ⟨1024, d⟩ }

theorem witness_AdmissionAndSelectionRules :
    (let e : List Entry := [.frame 0 1 64];
      ∀ x ∈ [(e, e, e, e, some QClass.c), ([], e, e, e, some .u), ([], [], e, e, some .b), ([], [], e, [], some .b),
          ([], [], [], e, some .d), ([], [], [], [], none)],
        let s := up.setQueues 2 (holding x.1 x.2.1 x.2.2.1 x.2.2.2.1);
        (eligible s 2 .c, eligible s 2 .u, eligible s 2 .b, eligible s 2 .d) =
            (x.1 != [], x.2.1 != [], x.2.2.1 != [], x.2.2.2.1 != []) ∧
          (chooseQueue s 2).map Prod.fst = x.2.2.2.2) ∧
    base.usable 2 = false ∧ up.usable 2 = true ∧
    ((up.setPort 2 { up.port 2 with mode := .craneOnly }).port 2).mode = .craneOnly ∧ Kind.data.craneOnly = false := by
  decide +kernel

/-- An IDLE transmitter with an entry: of an open shaper, of a shaper at credit 0 (eligible) and below it (not); a
transmitter that is SENDING; and a port that is not usable. -/
theorem witness_AdmissionAndSelectionRules_start :
    (let s := fun (c : Int) (rate : Nat) =>
        (up.setQueues 2 (holding [] [] [] [.frame 0 1 64])).setBucket (shaperBucket 2 .d) ⟨rate, 64, true, c, true⟩;
      ((s 0 1).queues 2).sending = none ∧ (s 0 1).usable 2 = true ∧
        (chooseQueue (s 0 1) 2).map Prod.fst = some .d ∧ (chooseQueue (s (-1) 0) 2).map Prod.fst = some .d ∧
        eligible (s (-1) 1) 2 .d = false ∧ (chooseQueue (s (-1) 1) 2).map Prod.fst = none) ∧
    (let s := up.setQueues 2 { holding [] [] [] [.frame 0 1 64, .frame 1 1 64] with sending := some .d };
      (s.queues 2).sending ≠ none ∧ (chooseQueue s 2).map Prod.fst = some .d) ∧
    (let s := base.setQueues 2 (holding [] [] [] [.frame 0 1 64]);
      s.usable 2 = false ∧ (chooseQueue s 2).map Prod.fst = some .d) := by decide +kernel

/-- A part whose FSQ has been handed one enqueue. -/
def handed (r : EnqueueRequest) (s : State) : State := { s with flight := { up.flight with enqueues := [r] } }

/-- The laws of the pool hold where nothing is stored. -/
theorem poolLaw_of_empty {s : State} (store : s.fsq.store = []) (free : s.fsq.free = 4096)
    (none_in : allEntries s = []) (idle : ∀ p, (s.queues p).sending = none)
    (cells : ∀ r ∈ s.flight.enqueues, r.body.holdsCells) (slots : ∀ l, (s.link l).slot = none) : PoolLaw s where
  places := by rw [store]; exact ⟨List.Pairwise.nil, fun _ h => absurd h List.not_mem_nil⟩
  total := by rw [store, free]; rfl
  counted := by rw [store]; exact fun _ h => absurd h List.not_mem_nil
  entries := by rw [none_in]; exact fun _ _ _ h => absurd h List.not_mem_nil
  sending := by intro p cls h; rw [idle p] at h; exact nomatch h
  flight := cells
  slots := by intro l bytes h; rw [slots l] at h; exact nomatch h

theorem poolLaw_handed (r : EnqueueRequest) (h : r.body.holdsCells) (v : Vector PortRec 14) (lim : Nat) :
    PoolLaw (handed r { (up.setQueues 2 { PortQueues.hard with queueD := ⟨lim, []⟩ }) with ports := v }) :=
  have hq : (List.finRange 14).map (fun p => ((up.setQueues 2 { PortQueues.hard with queueD := ⟨lim, []⟩ }).queues
      p).sending) = List.replicate 14 none := rfl
  poolLaw_of_empty rfl rfl rfl
    (fun p => List.eq_of_mem_replicate (hq ▸ List.mem_map.2 ⟨p, List.mem_finRange p, rfl⟩))
    (fun x hx => by cases List.mem_singleton.1 hx; exact h)
    (by decide +kernel : ∀ l, (up.link l).slot = none)

/-- A data frame for Q2's D queue and Q3's; for Q2's alone; a RESTART's reply for Q2's U queue; a batch for T0. -/
def requests : List EnqueueRequest :=
  [⟨[(2, .d), (3, .d)], .data, .forwarded (List.replicate 300 1)⟩, ⟨[(2, .d)], .data, .forwarded (List.replicate 64 1)⟩,
    ⟨[(2, .u)], .managementReply, .originated (.reply true) (List.replicate 52 1)⟩,
    ⟨[(12, .b)], .reeferBatch, .batch (List.replicate 52 1)⟩]

/-- Q2 CRANE-ONLY. -/
def craneOnlyPorts : Vector PortRec 14 := vset up.ports 2 { up.port 2 with mode := .craneOnly }

theorem witness_EnqueueStoresOnceForItsQueues :
    (∀ r ∈ requests, r.body.holdsCells) ∧
    (requests.map (fun r => (handed r up).flight.enqueues[0]? == some r)) = [true, true, true, true] ∧
    -- one queue full and one that admits; one queue full; a port down; a service mode
    (requests.map (fun r => r.queues.map (judgeQueue (handed r (up.setQueues 2
        { PortQueues.hard with queueD := ⟨1, []⟩ })) r.kind (cellsOf r.body.length)))).take 1 =
      [[.queueFull, .admitted]] ∧
    (requests.map (fun r => r.queues.map (judgeQueue (handed r (up.setQueues 2
        { PortQueues.hard with queueD := ⟨0, []⟩ })) r.kind (cellsOf r.body.length)))).take 3 =
      [[.queueFull, .admitted], [.queueFull], [.admitted]] ∧
    (requests.map (fun r => r.queues.map (judgeQueue (handed r { up with ports := craneOnlyPorts }) r.kind
        (cellsOf r.body.length)))).take 3 = [[.serviceMode, .admitted], [.serviceMode], [.admitted]] ∧
    (requests.map (fun r => r.queues.map (judgeQueue (handed r base) r.kind (cellsOf r.body.length)))).drop 2 =
      [[.portDown], [.portDown]] ∧ base.rcn.sendDue = false ∧ up.usable 12 = true := by
  refine ⟨?_, by decide +kernel⟩
  intro r hr
  simp only [requests, List.mem_cons, List.not_mem_nil, or_false] at hr
  rcases hr with rfl | rfl | rfl | rfl
  · exact List.cons_ne_nil _ _
  · exact List.cons_ne_nil _ _
  · exact True.intro
  · exact True.intro

/-- A frame that both of its queues refuse; a notice frame; no destination, and one behind a usable trunk port. -/
theorem witness_EnqueueStoresOnceForItsQueues_refusals :
    (requests.map (fun r => r.queues.map (judgeQueue (handed r base) r.kind (cellsOf r.body.length)))).take 2 =
      [[.portDown, .portDown], [.portDown]] ∧
    (let r : EnqueueRequest := ⟨[(12, .u)], .notice, .originated .notice (List.replicate 30 1)⟩;
      (handed r up).flight.enqueues[0]? = some r ∧ r.body.origin = .notice ∧ r.body.holdsCells ∧
        r.queues.map (judgeQueue (handed r up) r.kind (cellsOf r.body.length)) = [.admitted] ∧
        r.queues.map (judgeQueue (handed r base) r.kind (cellsOf r.body.length)) = [.portDown]) ∧
    (NoticesGoOut base ∧ NoticesGoOut { up with ntu := { up.ntu with dest := ⟨some 9, .t0, 0, 10⟩ } }) ∧
    PoolLaw (handed ⟨[(12, .u)], .notice, .originated .notice (List.replicate 30 1)⟩
      { (up.setQueues 2 { PortQueues.hard with queueD := ⟨1024, []⟩ }) with ports := base.ports }) :=
  ⟨by decide +kernel, ⟨rfl, rfl, True.intro, by decide +kernel⟩, ⟨.inl rfl, .inr (by decide +kernel)⟩,
    poolLaw_handed ⟨[(12, .u)], .notice, .originated .notice (List.replicate 30 1)⟩ True.intro _ _⟩

/-- A part whose port 2 is SENDING from a queue, with one frame stored. -/
def sendingFrom (cls : QClass) (e : Entry) (f : Stored) : State :=
  let s := up.setQueues 2 { (PortQueues.hard.set cls ⟨256, [e]⟩) with sending := some cls }
  { s with fsq := { s.fsq with store := [(0, f)], free := 4095 } }

theorem witness_TransmissionEndReleasesTheHead :
    (∀ refs ∈ [1, 2], ∀ o ∈ [Origin.forwarded, .reply true],
      let s := sendingFrom .u (.frame 0 1 64) ⟨[], 1, refs, .data, o⟩;
      (s.queues 2).sending = some .u ∧ ((s.queues 2).get .u).entries = [.frame 0 1 64] ∧
        Table.get s.fsq.store 0 = some ⟨[], 1, refs, .data, o⟩) ∧
    (let s := sendingFrom .b (.batch [1]) ⟨[], 1, 1, .data, .forwarded⟩;
      (s.queues 2).sending = some .b ∧ ((s.queues 2).get .b).entries = [.batch [1]] ∧ s.rcn.sendDue = false) := by
  decide +kernel

theorem witness_LinkDownDiscardsTheQueues :
    let s := { sendingFrom .u (.frame 0 1 64) ⟨[], 1, 1, .data, .forwarded⟩ with
      flight := { up.flight with queueDowns := [2, 3] } }
    2 ∈ s.flight.queueDowns ∧ 3 ∈ s.flight.queueDowns ∧ (s.queues 2).sending ≠ none ∧ (s.queues 3).sending = none ∧
      (s.queues 2).entries = [.frame 0 1 64] ∧ (s.queues 3).entries = [] ∧
      (∀ x ∈ (s.queues 2).entries, x.isBatch = false ∧ isRestartReply s x = false) ∧ s.ntu.dest.sid = none := by
  decide +kernel

/-- A batch entry in the port's queue with and without a swap that waits on it, and a RESTART's reply there. -/
theorem witness_DiscardsAndEnds_batches :
    (∀ due ∈ [true, false],
      let s : State := { sendingFrom .b (.batch [1]) ⟨[], 1, 1, .data, .forwarded⟩ with
        rcn := { up.rcn with sendDue := due }, flight := { up.flight with queueDowns := [2] } };
      s.rcn.sendDue = due ∧ (s.queues 2).sending = some .b ∧ ((s.queues 2).get .b).entries = [.batch [1]] ∧
        2 ∈ s.flight.queueDowns ∧ (∃ x ∈ (s.queues 2).entries, x.isBatch = true) ∧
        (∀ x ∈ (s.queues 2).entries, isRestartReply s x = false) ∧ 1 ≤ (s.queues 2).entries.length ∧
        s.ntu.dest.sid = none) ∧
    (let s : State := { sendingFrom .u (.frame 0 1 64) ⟨[], 1, 1, .managementReply, .reply true⟩ with
        flight := { up.flight with queueDowns := [2] } };
      2 ∈ s.flight.queueDowns ∧ ∃ x ∈ (s.queues 2).entries, isRestartReply s x = true) := by decide +kernel

/-- Credits 1,535, 1,536 and 1,599 against a cost of 96 × 16 = 1,536; a burst of 95 whose Cmax is below it. -/
theorem witness_BucketsRefillChargeAndAreWritten :
    (up.bucket 34).rate = 0 ∧
    (∀ n ∈ [(1535, 100), (1536, 100), (1520, 95)], let x := (up.setBucket 34 ⟨1, n.2, false, n.1, true⟩).bucket 34;
      x.rate ≠ 0 ∧ x.credit = n.1 ∧ x.burst = n.2 ∧ x.refill = true) ∧
    ((1535 : Int) < 96 * 16 ∧ (96 : Int) * 16 ≤ 1536 ∧ 95 * 16 < 96 * 16) ∧
    (∀ i ∈ [Instr.setRate 5 0 0 0 0 0, .setRate 0 48 0 0 0 0, .setRate 4 56 0 0 0 0, .setRate 3 1 0 0 0 0,
        .setRate 0 0 2 0 0 0, .setRate 0 0 1 0 0 2, .setRate 0 47 0 255 0 255, .setRate 1 23 1 240 64 1,
        .setRate 2 7 1 241 63 0, .setRate 3 0 1 0 64 0, .setRate 4 55 1 12 1500 1, .setRate 4 0 0 0 0 0],
      (frameOf i).awaited = some i) ∧
    ([(0, 47), (1, 23), (2, 7), (3, 0), (4, 55)].map
      (fun x : Nat × Nat => ([0, 48, 72, 80, 81].getD x.1 0 + x.2, decide (x.2 < [48, 24, 8, 1, 56].getD x.1 0))) =
      [(47, true), (71, true), (79, true), (80, true), (136, true)]) := by decide +kernel

theorem witness_QueueSettingsCommands :
    ∀ i ∈ [Instr.setQueue 14 0 0, .setQueue 0 4 0, .setQueue 13 3 4096, .setQueue 0 0 4097, .setQueue 0 0 65534,
        .setQueue 0 0 65535, .setSched 14 0 0, .setSched 13 15 0, .setSched 0 16 255, .setReserve 1024 0,
        .setReserve 1025 1, .setReserve 0 0], (frameOf i).awaited = some i := by decide +kernel

/-! ## Witnesses: notices and counters -/

/-- A part with a destination 9 behind T0, and POOL-LOW (20) and REEFER-SILENT (10) in a state. -/
def noticing (masked pending : Bool) : State :=
  let s := up.setSource 20 ⟨masked, 4, pending, 254, none, if pending && !masked then some 10 else none⟩
  let t := s.setSource 10 ⟨masked, 4, pending, if pending then 254 else 0, if pending then some (.sid 1) else none, none⟩
  { t with ntu := { t.ntu with dest := ⟨some 9, .t0, 0x20, 10⟩ } }

theorem witness_SourcesFollowTheirEvents :
    ((noticing false true).source 20).holdoff = some 10 ∧ (20 : SourceNo) ≠ 22 ∧ (10 : SourceNo) ≠ 22 ∧
    (∀ m ∈ [true, false], ∀ p ∈ [true, false], ((noticing m p).source 20).masked = m ∧
      ((noticing m p).source 20).pending = p ∧ ((noticing m p).source 10).masked = m ∧
      ((noticing m p).source 10).pending = p) ∧
    (noticing false false).ntu.dest.sid = some 9 ∧ up.ntu.dest.sid = none ∧ (noticing false false).usable 12 = true ∧
    ({ noticing false false with ports := base.ports } : State).usable 12 = false ∧
    ((noticing false false).counter 12 10).value < 4294967295 := by decide +kernel

theorem witness_NoticeCommandsWriteAndRead :
    (∀ i ∈ [Instr.setNotice 24 0 0, .setNotice 254 0 0, .setNotice 0 2 0, .setNotice 0 254 0, .setNotice 23 1 7,
        .setNotice 255 255 8, .setNotice 0 0 0, .setNoticeDest 2 1 0 0 1, .setNoticeDest 1 1 2 0 1,
        .setNoticeDest 1 0 0 0 1, .setNoticeDest 1 9 1 255 60, .setNoticeDest 0 0 0 0 61, .setNoticeDest 1 9 0 0 0,
        .readNotice 24 0, .readNotice 0 2, .readNotice 23 1, .readNotice 255 0, .clearNotice 24, .clearNotice 254,
        .clearNotice 0, .clearNotice 255, .clearNotice 20], (frameOf i).awaited = some i) ∧
    up.ntu.dest.sid = none ∧ up.usable 12 = true ∧ (noticing false true).ntu.dest.sid ≠ none := by decide +kernel

/-- Masked pending sources 10 and 20 that an unmasking of every source sets, behind a usable trunk port and a DOWN
one; and one whose lost frames would wrap the discards. -/
theorem witness_NoticeCommandsWriteAndRead_unmasking :
    (frameOf (.setNotice 255 0 0)).awaited = some (.setNotice 255 0 0) ∧
    ((List.finRange 24).filter (fun k =>
        ((noticing true true).source k).pending && ((noticing true true).source k).masked) = [10, 20]) ∧
    (noticing true true).ntu.dest.sid = some 9 ∧ (noticing true true).ntu.dest.trunk = .t0 ∧
    (noticing true true).usable 12 = true ∧ (withDown 12 (noticing true true)).usable 12 = false ∧
    (((withDown 12 (noticing true true)).setCounter 12 10 ⟨4294967293, false⟩).counter 12 10).value + 2 ≤
      4294967295 := by
  decide +kernel

/-- A counter at its maximum, one below it, and one byte count past a wrap. -/
theorem witness_CountersCountAndAreRead :
    (∀ i ∈ [Instr.readCounters 17 0, .readCounters 0 2, .readCounters 0 0, .readCounters 13 1, .readCounters 14 0,
        .readCounters 15 1, .readCounters 16 1], (frameOf i).awaited = some i ∧ 2 ≤ (frameOf i).room) ∧
    (1 : Fin 12) ≠ 10 ∧ ((up.setCounter 5 1 ⟨4294967295, false⟩).counter 5 1).value = 4294967295 ∧
    up.ntu.dest.sid = none ∧ 4294967295 < 4294967295 + 1 ∧ 4294967294 + 1 ≤ 4294967295 := by decide +kernel

/-- A count that wraps with COUNTER-WRAP unmasked, behind a destination whose trunk port is usable and one whose is
not. -/
theorem witness_CountersCountAndAreRead_wrap :
    let s := ((noticing false false).setCounter 5 1 ⟨4294967295, false⟩).setSource 22 ⟨false, 4, false, 0, none, none⟩
    4294967295 < (s.counter 5 1).value + 1 ∧ (s.counter 5 1).value + 1 < 8589934592 ∧ (s.source 22).pending = false ∧
      (s.source 22).masked = false ∧ NoticesGoOut s ∧ (withDown 12 s).usable s.ntu.dest.trunk.port = false ∧
      (bump 5 1 1 s).flight.enqueues.length = 1 := by
  unfold NoticesGoOut
  decide +kernel

/-! ## Witnesses: the agent and identity -/

/-- A part whose agent is free, with one frame of a payload from T0. -/
def received (payload : List Byte) : State := { up with mga := ⟨[⟨12, 0xFFFFFF00, 7, payload⟩], .idle⟩ }

/-- Counts 0, 1, 16 and 17; a frame whose only command is SHORT, and one that awaits its command. -/
theorem witness_CommandFrameTakeBeginsExecution :
    (∀ n ∈ ([0, 1, 16, 17] : List Nat), (received [0, 0, 9, BitVec.ofNat 8 n]).mga.phase = .idle ∧
      (received [0, 0, 9, BitVec.ofNat 8 n]).mga.queue.map (fun f => (byteAt f.payload 3).toNat) = [n] ∧
      (received [0, 0, 9, BitVec.ofNat 8 n]).usable 12 = true) ∧
    ((after .commandFrameTake (received [0, 0, 9, 1])).flight.enqueues.length = 1 ∧
      (after .commandFrameTake (received [0, 0, 9, 1])).mga.phase = .idle) ∧
    (after .commandFrameTake (received [1, 0, 9, 2, 0x26, 0, 1, 0])).flight.enqueues.length = 1 ∧
    (after .commandFrameTake (received [0, 0, 9, 2, 0x26, 0, 1, 0])).mga.phase ≠ .idle := by decide +kernel

/-- The first of three commands: failing with and without stop-on-error, and a result beyond the room. -/
theorem witness_CommandEndsWithItsEntry :
    (∀ b ∈ [true, false], let e := { frameOf .ident with count := 3, stopOnError := b, rest := [1, 0, 1, 0] };
      e.entries.length < e.count ∧ e.count ≤ 16 ∧ e.awaited = some .ident ∧ e.room = 1892 ∧
        (e.afterCommand .conflict []).entries.length = (if b then 3 else 1) ∧
        (e.afterCommand .ok [1]).entries.length = 1) ∧
    (Status.conflict ≠ .ok ∧ Status.conflict ≠ .clamped ∧ Status.conflict ≠ .partialFit) ∧
    up.usable 12 = true ∧ base.usable 12 = false := by decide +kernel

/-- A frame whose first command is whole and spells one, with an argument and with none; its commands that are
skipped, SHORT and of a code that names none; and a port of arrival that is not usable. -/
theorem witness_CommandFrameTakeBeginsExecution_first :
    (∀ p ∈ ([[0, 0, 9, 1, 1, 0], [0, 0, 9, 16, 2, 4, 0, 0, 0, 1, 0xFF]] : List (List Byte)),
      (received p).mga.queue.map (fun f => f.payload) = [p]) ∧
    Decode.command 1 [] = .command .ident ∧ Decode.command 2 [0, 0, 0, 1] = .command (.setIdent 1) ∧
    (let e := { frameOf .ident with count := 2 };
      ({ e with stopOnError := true, failed := true } : Execution).upcoming = .skipped ∧
        ({ e with rest := [1] } : Execution).upcoming = .short ∧
        ({ e with rest := [2, 4, 0, 0, 0] } : Execution).upcoming = .short ∧
        ({ e with rest := [0x26, 0] } : Execution).upcoming = .badCode ∧ e.upcoming = .command .ident ∧
        e.entries.length < e.count ∧ ({ e with count := 0 } : Execution).count ≤ e.entries.length) ∧
    ({ received [0, 0, 9, 1] with ports := base.ports } : State).usable 12 = false := by decide +kernel

/-- Two commands on after the one that ends, which fails or not, with and without stop-on-error. -/
theorem witness_CommandEndsWithItsEntry_next :
    (let e := { frameOf .ident with count := 3, rest := [1, 0, 2, 4, 0, 0, 0, 1, 7, 7] };
      e.rest = 1 :: 0 :: ([] ++ [2, 4, 0, 0, 0, 1, 7, 7]) ∧ ([] : List Byte).length = (0 : Byte).toNat ∧
        [2, 4, 0, 0, 0, 1, 7, 7] = (2 : Byte) :: 4 :: ([0, 0, 0, 1] ++ [7, 7]) ∧
        Decode.command 2 [0, 0, 0, 1] = .command (.setIdent 1) ∧ e.entries.length + 1 < e.count ∧
        ¬(e.stopOnError = true) ∧ ((e.afterCommand .conflict []).awaited = some (.setIdent 1)) ∧
        (({ e with stopOnError := true } : Execution).afterCommand .ok []).awaited = some (.setIdent 1)) := by
  decide +kernel

theorem witness_IdentityPortsAndSeconds :
    (∀ i ∈ [Instr.setGroup 4 0 0 0, .ident, .setIdent 0, .setIdent 1, .setPort 14 0 0 0, .setPort 0 3 0 0,
        .setPort 0 254 0 0, .setPort 0 0 2 0, .setPort 12 1 0 0, .setPort 13 2 1 63, .setPort 11 1 255 64,
        .setPort 0 255 0 255, .setPort 0 0 0 254], (frameOf i).awaited = some i) ∧
    base.part ≠ .inReset ∧ base.seconds < 4294967295 ∧ inReset.part = .inReset ∧
    4294967295 ≤ ({ base with seconds := 4294967295 } : State).seconds := by decide +kernel

theorem witness_IdentityRecordCommands :
    ∀ i ∈ [Instr.setGroup 3 0xFFFF 0 1, .setGroup 0 0 0 0, .setClass 4 0 0 0 0 0 0, .setClass 0 4 0 0 0 0 0,
        .setClass 0 0 0 0 0 8 0, .setClass 3 3 1 2 1 7 7, .setClass 0 0 0 0 0 0 8, .readClass 4 0, .readClass 0 4,
        .readClass 3 3, .setDomain 8 0 0 0 0, .setDomain 0 0 2 0 0, .setDomain 0 0 0 0 2, .setDomain 7 1 1 0x0FFF 1,
        .setDomain 0 0 0 0x1000 0, .readDomain 8, .readDomain 7], (frameOf i).awaited = some i := by decide +kernel

/-! ## Witnesses: the laws

One state meets every law with something in each block: a static, a crane-bound and a dynamic station, a LIVE crane
with its span counted, an IN-FILLING reefer, a frame being sent, sources pending, and a frame being executed. -/

def busy : State :=
  let q : PortQueues := { holding [] [] [] [.frame 0 1 64] with sending := some .d }
  let s := ((steering.setQueues 2 q).setBucket 34 ⟨205, 200, false, 178, true⟩).setSource 6
    ⟨false, 4, true, 1, none, some 10⟩
  let t := s.setSource 9 ⟨true, 7, true, 255, some (.sid 5), none⟩
  { t with
    pending := [.supervisionExpiry 3]
    cvm := { t.cvm with
      writeCursor := some (255, 7)
      overlay := vset (vset (vset t.cvm.overlay 13 1) 14 1) 15 1 }
    rcn := { t.rcn with
      reefers := [(12, reefer 0x0A3F2400 .overdue 50 5 false (.inFilling 0))]
      bufferA := ⟨.filling, [entryOf 0x0A3F2400]⟩, bufferB := ⟨.sending, [entryOf 0x0A3F2400]⟩ }
    fsq := { t.fsq with store := [(0, ⟨[1], 1, 1, .data, .forwarded⟩)], free := 4095 }
    mga := ⟨List.replicate 4 ⟨12, 0, 7, [0, 0, 0, 1]⟩, .executing (frameOf .ident)⟩ }

theorem step_busy : step busy = .next (after (.supervisionExpiry 3) { busy with pending := [] }) := rfl

theorem witness_StepsKeepTheMapLaw : MapLaw busy ∧ ∃ t, step busy = .next t := by
  refine ⟨⟨⟨by decide +kernel, ?_, by decide +kernel⟩, ⟨by decide +kernel, fun _ h => absurd h List.not_mem_nil,
    by decide +kernel⟩, by decide +kernel, ?_, (fun _ h => nomatch h), by decide +kernel⟩, _, step_busy⟩
  · intro e he
    have h : ∀ e ∈ busy.cvm.bank0.cells, e.2.secondary ≠ none ∧ e.2.primary ≠ e.2.secondary := by decide +kernel
    intro q hq hs
    exact (h e he).2 (hq.trans hs.symm)
  · intro p h
    cases h
    exact ⟨by decide, by decide, by decide, by decide⟩

theorem witness_StepsKeepTheStationLaw : StationLaw busy ∧ ∃ t, step busy = .next t :=
  ⟨⟨by decide +kernel, by decide +kernel, by decide +kernel, by decide +kernel⟩, _, step_busy⟩

theorem linkLaw_busy : LinkLaw busy := by
  have h : ∀ l, ((busy.link l).state ≠ .unbound → (busy.link l).config = (craneLink .live).config) ∧
      (busy.link l).timer.isSome = (busy.link l).state.spans ∧
      ((busy.link l).state.spans = true → (busy.link l).cycle.isSome = true) ∧ (busy.link l).missed = 0 ∧
      (busy.link l).context = none := by decide +kernel
  intro l
  obtain ⟨h1, h2, h3, h4, h5⟩ := h l
  refine ⟨fun hs => ?_, h2, h3, by rw [h4]; exact ⟨by omega, fun _ => by omega⟩, ?_⟩
  · rw [h1 hs]; decide
  · intro x hx; rw [h5] at hx; exact nomatch hx

theorem witness_StepsKeepTheLinkLaw : LinkLaw busy ∧ ∃ t, step busy = .next t := ⟨linkLaw_busy, _, step_busy⟩

theorem witness_StepsKeepTheOverlayLaw : LinkLaw busy ∧ OverlayLaw busy ∧ ∃ t, step busy = .next t := by
  have hn : busy.flight.spans = [] := rfl
  refine ⟨linkLaw_busy, ⟨?_, ?_⟩, _, step_busy⟩
  · rw [hn]; decide +kernel
  · intro g n
    rw [hn, List.take_nil]
    exact Int.add_nonneg (Int.natCast_nonneg _) (Int.le_refl 0)

theorem witness_StepsKeepTheReeferAndBatchLaws : ReeferLaw busy ∧ BatchLaw busy ∧ ∃ t, step busy = .next t := by
  refine ⟨⟨by decide +kernel, by decide +kernel, ?_⟩, ⟨by decide +kernel, by decide +kernel, by decide +kernel, ?_⟩,
    _, step_busy⟩
  · intro e he
    cases List.mem_singleton.1 he
    exact reefer_lawful _ _ _ _ _ _ (by omega) (fun h => nomatch h)
  · intro e he i
    cases List.mem_singleton.1 he
    cases i with
    | zero => exact ⟨fun _ => rfl, fun _ => rfl⟩
    | succ i => exact ⟨(fun h => nomatch h), (fun h => nomatch h)⟩

theorem creditFloor_busy : CreditFloor busy where
  credits := by decide +kernel
  overhead := by decide +kernel
  entries := by
    have h : ∀ p, (busy.queues p).entries = [] ∨ (busy.queues p).entries = [.frame 0 1 64] := by decide +kernel
    intro p cls e he
    have hm : e ∈ (busy.queues p).entries := by cases cls <;> simp_all [PortQueues.get, PortQueues.entries]
    rcases h p with h | h <;> rw [h] at hm
    · exact absurd hm List.not_mem_nil
    · rw [List.mem_singleton.1 hm]; decide
  flight := fun _ h => absurd h List.not_mem_nil
  slots := by
    have h : ∀ l, (busy.link l).slot = none ∨ (busy.link l).slot = some [1, 2, 3] := by decide +kernel
    intro l bytes hb
    rcases h l with h | h
    · rw [h] at hb; exact nomatch hb
    · rw [h] at hb; cases hb; decide
  buffers := by decide +kernel
  replies := by
    intro e h
    rcases h with h | h
    · cases h; decide +kernel
    · exact nomatch h

theorem witness_StepsKeepTheCreditLaw : CreditLaw busy ∧ CreditFloor busy ∧ ∃ t, step busy = .next t :=
  ⟨by unfold CreditLaw; decide +kernel, creditFloor_busy, _, step_busy⟩

theorem witness_StepsKeepThePoolLaw : PoolLaw busy ∧ ∃ t, step busy = .next t := by
  have hall : allEntries busy = [.frame 0 1 64] := by decide +kernel
  have hsend : ∀ p cls, (busy.queues p).sending = some cls → ((busy.queues p).get cls).entries ≠ [] := by
    have h : ∀ p, (busy.queues p).sending = none ∨
        ((busy.queues p).sending = some .d ∧ ((busy.queues p).get .d).entries ≠ []) := by decide +kernel
    intro p cls hp
    rcases h p with h | ⟨h, hd⟩
    · rw [h] at hp; exact nomatch hp
    · rw [h] at hp; cases hp; exact hd
  refine ⟨⟨by decide +kernel, by decide +kernel, by decide +kernel, ?_, hsend, fun _ h => absurd h List.not_mem_nil,
    ?_⟩, _, step_busy⟩
  · intro id n len h
    rw [hall] at h
    cases List.mem_singleton.1 h
    exact ⟨_, rfl, rfl⟩
  · have h : ∀ l, (busy.link l).slot = none ∨ (busy.link l).slot = some [1, 2, 3] := by decide +kernel
    intro l bytes hb
    rcases h l with h | h
    · rw [h] at hb; exact nomatch hb
    · rw [h] at hb; cases hb; exact List.cons_ne_nil _ _

theorem witness_StepsKeepTheNoticeLaw : NoticeLaw busy ∧ ∃ t, step busy = .next t := by
  have h : ∀ k, (1 ≤ (busy.source k).level ∧ (busy.source k).level ≤ 7 ∧ (busy.source k).count ≤ 255) ∧
      (isLevelSource k = true → (busy.source k).detail = none ∧
        (busy.source k).holdoff.isSome = (busy.source k).status) ∧
      (isLevelSource k = false → (busy.source k).holdoff = none ∧
        (busy.source k).detail.isSome = (busy.source k).pending ∧
        ((busy.source k).pending = true ↔ 1 ≤ (busy.source k).count)) := by decide +kernel
  exact ⟨fun k => ⟨(h k).1, (h k).2.1, (h k).2.2⟩, _, step_busy⟩

theorem witness_StepsKeepTheAgentLaw : AgentLaw busy ∧ ∃ t, step busy = .next t := by
  refine ⟨⟨by decide +kernel, ?_, fun _ h => nomatch h⟩, _, step_busy⟩
  intro e h
  cases h
  exact ⟨by decide, by decide +kernel⟩

end Sys2Proof.Tests
end

section
/-! The commands that write the map's settings: SET-GEOMETRY, COPY-ACTIVE, SET-EPOCH and SET-WINDOW (R5, R9 to R11).
Each effect is given once in closed form; where the agent has come to the command, `exec` ends it with that effect. -/

namespace Sys2Proof.Machine

/-! ### What a command's effect comes to -/

/-- A command that the agent has come to ends with its effect's status, result and part (R170). -/
theorem exec_of_awaits {i : Instr} {run : State → Taken} {s t : State} {e : Execution} {st : Status}
    {result : List Byte} (h : Awaits s e i) (hexec : exec i s = .next (takeCommand i (fun _ => run) s))
    (hrun : run s = ⟨st, result, t⟩) : exec i s = .next (completeCommand false e st result t) := by
  rw [hexec, takeCommand_of_awaits h, hrun]

/-- The status of a command taken, by the condition that leaves every value as it was presented (R170). -/
theorem taken_eq_ite {clamped : Bool} {P : Prop} [Decidable P] (h : clamped = false ↔ P) (result : List Byte)
    (s : State) : taken clamped result s = ⟨if P then .ok else .clamped, result, s⟩ := by
  by_cases hP : P
  · simp [taken, hP, h.2 hP]
  · simp [taken, hP, Bool.eq_true_of_not_eq_false (mt h.1 hP)]

/-- A value is kept exactly when it lies in its range. -/
theorem clampTo_eq_self_iff {lo hi n : Nat} (h : lo ≤ hi) : clampTo lo hi n = n ↔ lo ≤ n ∧ n ≤ hi := by
  unfold clampTo
  omega

/-! ### The shadow bank -/

/-- Changing the shadow bank changes the bank that is not active (R1). -/
theorem Cvm.setShadow_shadow (c : Cvm) (f : Bank → Bank) :
    c.setShadow (f c.shadow) =
      if c.activeIsOne then { c with bank0 := f c.bank0 } else { c with bank1 := f c.bank1 } := by
  cases h : c.activeIsOne <;> simp [Cvm.setShadow, Cvm.shadow, h]

/-- Copying the active bank into the shadow bank (R10). -/
theorem Cvm.setShadow_active (c : Cvm) :
    c.setShadow c.active =
      if c.activeIsOne then { c with bank0 := c.bank1 } else { c with bank1 := c.bank0 } := by
  cases h : c.activeIsOne <;> simp [Cvm.setShadow, Cvm.active, h]

/-! ### The effects -/

/-- The effect of SET-GEOMETRY (R9). -/
theorem takeSetGeometry_eq (o n h : Nat) (s : State) :
    takeSetGeometry o n h s =
      ⟨if 50 ≤ n ∧ n ≤ 1000 ∧ h ≤ 255 then .ok else .clamped, geometryBytes (storedGeometry o n h),
        s.setCvm (if s.cvm.activeIsOne then
          { s.cvm with bank0 := { s.cvm.bank0 with geometry := storedGeometry o n h } }
        else { s.cvm with bank1 := { s.cvm.bank1 with geometry := storedGeometry o n h } })⟩ := by
  have kept : ((storedGeometry o n h).length != n || (storedGeometry o n h).hysteresis != h) = false ↔
      50 ≤ n ∧ n ≤ 1000 ∧ h ≤ 255 := by
    simp [storedGeometry, clampTo_eq_self_iff, and_assoc]
  rw [takeSetGeometry, taken_eq_ite kept,
    Cvm.setShadow_shadow s.cvm (fun b => { b with geometry := storedGeometry o n h })]

/-- The effect of COPY-ACTIVE (R10). -/
theorem takeCopyActive_eq (s : State) :
    takeCopyActive s = ⟨.ok, [], s.setCvm (if s.cvm.activeIsOne then { s.cvm with bank0 := s.cvm.bank1 }
      else { s.cvm with bank1 := s.cvm.bank0 })⟩ := by
  rw [takeCopyActive, Cvm.setShadow_active]
  rfl

/-- The effect of SET-EPOCH (R11). -/
theorem takeSetEpoch_eq (p : Nat) (s : State) :
    takeSetEpoch p s = ⟨if 10 ≤ p ∧ p ≤ 1000 then .ok else .clamped, be2 (clampTo 10 1000 p),
      s.setCvm { s.cvm with epochPeriod := clampTo 10 1000 p }⟩ := by
  have kept : (clampTo 10 1000 p != p) = false ↔ 10 ≤ p ∧ p ≤ 1000 := by
    simp [clampTo_eq_self_iff]
  rw [takeSetEpoch, taken_eq_ite kept]

/-- The window that SET-WINDOW stores (R5). -/
def storedWindow (a b c d o x : Nat) : Window :=
  { segStart := a, segEnd := min 255 b, laneStart := c, laneEnd := min 7 d
    order := if o = 0 then .laneFirst else .segmentFirst
    direction := if x = 0 then .ascending else .descending }

/-- The order and the direction stand in the result as their codes were presented (R5). -/
theorem windowBytes_storedWindow {o x : Nat} (a b c d : Nat) (ho : o ≤ 1) (hx : x ≤ 1) :
    windowBytes (storedWindow a b c d o x) =
      be2 a ++ be2 (min 255 b) ++ be1 c ++ be1 (min 7 d) ++ be1 o ++ be1 x := by
  have order_code : (if (storedWindow a b c d o x).order = .laneFirst then 0 else 1) = o := by
    obtain rfl | rfl : o = 0 ∨ o = 1 := by omega
    all_goals rfl
  have direction_code : (if (storedWindow a b c d o x).direction = .ascending then 0 else 1) = x := by
    obtain rfl | rfl : x = 0 ∨ x = 1 := by omega
    all_goals rfl
  rw [windowBytes, order_code, direction_code]
  rfl

/-- SET-WINDOW refuses an order or a direction code that names none (R5). -/
theorem takeSetWindow_badCode {o x : Nat} (a b c d : Nat) (s : State) (h : 1 < o ∨ 1 < x) :
    takeSetWindow a b c d o x s = ⟨.badArgument, [], s⟩ := by
  rw [takeSetWindow, if_pos h]
  rfl

/-- SET-WINDOW refuses a start beyond its end as clamped (R5). -/
theorem takeSetWindow_reversed {a b c d o x : Nat} (s : State) (ho : o ≤ 1) (hx : x ≤ 1)
    (h : min 255 b < a ∨ min 7 d < c) : takeSetWindow a b c d o x s = ⟨.windowInvalid, [], s⟩ := by
  rw [takeSetWindow, if_neg (by omega), if_pos h]
  rfl

/-- SET-WINDOW replaces the window and marks both cursors fresh (R5). -/
theorem takeSetWindow_replaces {a b c d o x : Nat} (s : State) (ho : o ≤ 1) (hx : x ≤ 1)
    (hseg : a ≤ min 255 b) (hlane : c ≤ min 7 d) :
    takeSetWindow a b c d o x s =
      ⟨if b ≤ 255 ∧ d ≤ 7 then .ok else .clamped,
        be2 a ++ be2 (min 255 b) ++ be1 c ++ be1 (min 7 d) ++ be1 o ++ be1 x,
        s.setCvm { s.cvm with window := storedWindow a b c d o x, writeCursor := none, readCursor := none }⟩ := by
  have kept : (min 255 b != b || min 7 d != d) = false ↔ b ≤ 255 ∧ d ≤ 7 := by simp
  rw [takeSetWindow, if_neg (by omega), if_neg (by omega), ← windowBytes_storedWindow a b c d ho hx]
  exact taken_eq_ite kept _ _

/-! ### The obligation -/

/-- Settles O24: each command, where the agent has come to it, ends with its effect. -/
theorem mapSettingsCommands : Obligations.MapSettingsCommands := by
  refine ⟨⟨?setGeometry, ?copyActive, ?setEpoch⟩, fun a b c d o x s e h => ⟨?badCode, ?reversed, ?replaces⟩⟩
  case setGeometry => exact fun o n h s e he => exec_of_awaits he rfl (takeSetGeometry_eq o n h s)
  case copyActive => exact fun s e he => exec_of_awaits he rfl (takeCopyActive_eq s)
  case setEpoch => exact fun p s e he => exec_of_awaits he rfl (takeSetEpoch_eq p s)
  case badCode => exact fun hcode => exec_of_awaits h rfl (takeSetWindow_badCode a b c d s hcode)
  case reversed => exact fun ho hx hrev => exec_of_awaits h rfl (takeSetWindow_reversed s ho hx hrev)
  case replaces =>
    exact fun ho hx hseg hlane => exec_of_awaits h rfl (takeSetWindow_replaces s ho hx hseg hlane)

end Sys2Proof.Machine
end

section
/-! The station table (chapter 3): what learning, the aging sweep, the purge walk and a quay port's link-down make of
it (R48 to R54). Each operation has one equation for each case of its rule. An operation that inserts, changes or
removes a dynamic record presents STATION-FULL; what that presentation can change is said once (`TablePresented`). -/

namespace Sys2Proof.Machine

/-! ### A table that is changed and presented -/

theorem ReportsOnly.stt {s t : State} (h : ReportsOnly s t) : t.stt = s.stt := by rw [h]

/-- A station table that is replaced leaves what reports have changed. -/
theorem ReportsOnly.setStt {s t : State} (h : ReportsOnly s t) (x : Stt) : ReportsOnly (s.setStt x) (t.setStt x) := by
  unfold ReportsOnly at h
  rw [h]
  rfl

/-- STATION-FULL stands on the dynamic records and the notice unit alone. -/
theorem StationFullPresented.congr {s t : State} (h : StationFullPresented s)
    (hdynamics : t.stt.dynamics = s.stt.dynamics) (hntu : t.ntu = s.ntu) : StationFullPresented t := by
  unfold StationFullPresented stationFull State.source at *
  rw [hdynamics, hntu, h]

/-- The station table has become `x`, STATION-FULL is presented as it then stands, and nothing else has changed but
what that presentation reports (R49). -/
structure TablePresented (x : Stt) (s t : State) : Prop where
  stt       : t.stt = x
  presented : StationFullPresented t
  frame     : ReportsOnly (s.setStt x) t

theorem presentStationFull_tablePresented (x : Stt) (s : State) :
    TablePresented x s (presentStationFull (s.setStt x)) :=
  have frame := present_reportsOnly 6 (stationFull (s.setStt x)) (s.setStt x)
  ⟨frame.stt, presentStationFull_presented _, frame⟩

theorem putDynamic_tablePresented (k : Nat) (r : DynRec) (s : State) :
    TablePresented { s.stt with dynamics := Table.put s.stt.dynamics k r } s (putDynamic k r s) :=
  presentStationFull_tablePresented ..

/-- A record that is counted and then written changes the table once. -/
theorem putDynamic_counted (k : Nat) (r : DynRec) (f : SttStats → SttStats) (s : State) :
    TablePresented { s.stt with dynamics := Table.put s.stt.dynamics k r, stats := f s.stt.stats } s
      (putDynamic k r (s.sttStats f)) := presentStationFull_tablePresented _ s

/-- A record that is counted and then removed changes the table once. -/
theorem removeDynamic_counted (k : Nat) (f : SttStats → SttStats) (s : State) :
    TablePresented { s.stt with dynamics := Table.erase s.stt.dynamics k, stats := f s.stt.stats } s
      (removeDynamic k (s.sttStats f)) := presentStationFull_tablePresented _ s

/-! ### Learning (spec 3.3) -/

section Learning
variable {sid : Sid} {q : QPort} {g k : Nat} {r : DynRec} {s : State}

/-- A SID of the static collection is not learnt (R48). -/
theorem learn_of_static (h : findStatic s sid ≠ none) : learn sid q g s = s := by
  obtain ⟨x, hx⟩ := Option.ne_none_iff_exists'.1 h
  simp only [learn, hx]

/-- An unknown SID takes the lowest free place (R49). -/
theorem learn_inserts (hs : findStatic s sid = none) (hd : findDynamic s sid = none)
    (hk : Table.lowestFree s.stt.dynamics 2048 = some k) :
    TablePresented { s.stt with
      dynamics := Table.put s.stt.dynamics k ⟨sid, q, g, 3⟩
      stats := { s.stt.stats with inserts := countUp s.stt.stats.inserts 1 } } s (learn sid q g s) := by
  simp only [learn, hs, hd, Config.dynamicPlaces, hk]
  exact putDynamic_counted k _ (fun x => { x with inserts := countUp x.inserts 1 }) s

/-- An unknown SID at a full collection is a learn fail (R49). -/
theorem learn_of_full (hs : findStatic s sid = none) (hd : findDynamic s sid = none)
    (hk : Table.lowestFree s.stt.dynamics 2048 = none) : learn sid q g s = addDrop 10 1 s := by
  simp only [learn, hs, hd, Config.dynamicPlaces, hk]

/-- A known SID on its own port is refreshed, whatever the grade (R50). -/
theorem learn_refreshes (hs : findStatic s sid = none) (hd : findDynamic s sid = some (k, r)) (hport : r.port = q) :
    TablePresented { s.stt with dynamics := Table.put s.stt.dynamics k ⟨r.sid, q, g, 3⟩ } s (learn sid q g s) := by
  subst hport
  simp only [learn, hs, hd, learnCase, if_true]
  exact putDynamic_tablePresented ..

/-- A known SID moves to another port on a grade better by the margin, or when its record is old (R50). -/
theorem learn_moves (hs : findStatic s sid = none) (hd : findDynamic s sid = some (k, r)) (hport : r.port ≠ q)
    (hevidence : r.grade + s.stt.margin ≤ g ∨ r.age ≤ 1) :
    TablePresented { s.stt with
      dynamics := Table.put s.stt.dynamics k ⟨r.sid, q, g, 3⟩
      stats := { s.stt.stats with moves := countUp s.stt.stats.moves 1 } } s (learn sid q g s) := by
  have moved : learnCase s.stt.margin r q g = .moved := by
    unfold learnCase
    rw [if_neg hport.symm]
    split
    · rfl
    · rw [if_pos (hevidence.resolve_left ‹_›)]
  simp only [learn, hs, hd, moved]
  exact putDynamic_counted k _ (fun x => { x with moves := countUp x.moves 1 }) s

/-- On another port with neither, the record stays and the frame is counted as competing (R50). -/
theorem learn_competes (hs : findStatic s sid = none) (hd : findDynamic s sid = some (k, r)) (hport : r.port ≠ q)
    (hgrade : g < r.grade + s.stt.margin) (hage : 2 ≤ r.age) :
    learn sid q g s =
      s.setStt { s.stt with stats := { s.stt.stats with competing := countUp s.stt.stats.competing 1 } } := by
  have competing : learnCase s.stt.margin r q g = .competing := by
    unfold learnCase
    rw [if_neg hport.symm, if_neg (by omega), if_neg (by omega)]
  simp only [learn, hs, hd, competing, State.sttStats]

end Learning

/-- The station table may have changed, STATION-FULL stands presented if it did before, and nothing else has changed
but what reports change (R49). -/
structure KeepsPresented (s t : State) : Prop where
  presented : StationFullPresented s → StationFullPresented t
  frame     : ReportsOnly (s.setStt t.stt) t

theorem TablePresented.keepsPresented {x : Stt} {s t : State} (h : TablePresented x s t) : KeepsPresented s t :=
  ⟨fun _ => h.presented, h.stt ▸ h.frame⟩

/-- Every case of learning keeps STATION-FULL presented and changes nothing but the table and reports (R48 to R50). -/
theorem learn_keepsPresented (sid : Sid) (q : QPort) (g : Nat) (s : State) :
    KeepsPresented s (learn sid q g s) := by
  by_cases hs : findStatic s sid = none
  case neg => rw [learn_of_static hs]; exact ⟨id, rfl⟩
  case pos =>
    cases hd : findDynamic s sid with
    | none =>
      cases hk : Table.lowestFree s.stt.dynamics 2048 with
      | none => rw [learn_of_full hs hd hk]; exact ⟨fun h => h.congr rfl rfl, rfl⟩
      | some k => exact (learn_inserts hs hd hk).keepsPresented
    | some found =>
      obtain ⟨k, r⟩ := found
      by_cases hport : r.port = q
      · exact (learn_refreshes hs hd hport).keepsPresented
      · by_cases hevidence : r.grade + s.stt.margin ≤ g ∨ r.age ≤ 1
        · exact (learn_moves hs hd hport hevidence).keepsPresented
        · rw [learn_competes hs hd hport (by omega) (by omega)]
          exact ⟨fun h => h.congr rfl rfl, rfl⟩

/-- Settles O22: each clause is a case of learning, and the last two hold of every case. -/
theorem learningFollowsTheEvidence : Obligations.LearningFollowsTheEvidence := by
  intro sid q g s
  refine ⟨learn_of_static, fun hs hd => ⟨fun k hk => ?inserted, fun hk => ?full⟩,
    fun k r hs hd => ⟨fun hport => (learn_refreshes hs hd hport).stt,
      fun hport hevidence => (learn_moves hs hd hport hevidence).stt, fun hport hgrade hage => ?competing⟩,
    (learn_keepsPresented sid q g s).presented, (learn_keepsPresented sid q g s).frame⟩
  case inserted =>
    have inserted := learn_inserts (q := q) (g := g) hs hd hk
    exact ⟨inserted.stt, inserted.presented⟩
  case full =>
    rw [learn_of_full hs hd hk]
    exact ⟨rfl, (addDrop_drops 10 1 s 10).trans (if_pos rfl), rfl⟩
  case competing =>
    rw [learn_competes hs hd hport hgrade hage]
    exact ⟨rfl, rfl⟩

/-! ### The visits to a place (spec 3.4, 3.5) -/

/-- A visit has touched the dynamic records and the statistics of the station table, and else what reports change. -/
def RecordsVisited (s u : State) : Prop :=
  ∃ dynamics stats, ReportsOnly (s.setStt { s.stt with dynamics := dynamics, stats := stats }) u

section Visits
variable {k : Nat} {r : DynRec} {ports : QuaySet} {s : State}

/-- The aging sweep passes over a free place (R53). -/
theorem ageAt_free (h : Table.get s.stt.dynamics k = none) : ageAt k s = s := by
  simp only [ageAt, h]

/-- The aging sweep takes 1 from an age that stays above 0 (R53). -/
theorem ageAt_ages (h : Table.get s.stt.dynamics k = some r) (hage : 2 ≤ r.age) :
    ageAt k s = s.setStt { s.stt with dynamics := Table.put s.stt.dynamics k { r with age := r.age - 1 } } := by
  simp only [ageAt, h]
  exact if_neg (by omega)

/-- The aging sweep removes and counts a record whose age becomes 0 (R53). -/
theorem ageAt_removes (h : Table.get s.stt.dynamics k = some r) (hage : r.age ≤ 1) :
    TablePresented { s.stt with
      dynamics := Table.erase s.stt.dynamics k
      stats := { s.stt.stats with agingRemovals := countUp s.stt.stats.agingRemovals 1 } } s (ageAt k s) := by
  simp only [ageAt, h, if_pos hage]
  exact removeDynamic_counted k (fun x => { x with agingRemovals := countUp x.agingRemovals 1 }) s

theorem ageAt_recordsVisited (k : Nat) (s : State) : RecordsVisited s (ageAt k s) := by
  cases h : Table.get s.stt.dynamics k with
  | none => rw [ageAt_free h]; exact ⟨_, _, rfl⟩
  | some r =>
    by_cases hage : r.age ≤ 1
    · exact ⟨_, _, (ageAt_removes h hage).frame⟩
    · rw [ageAt_ages h (by omega)]; exact ⟨_, _, .refl _⟩

/-- A purge walk passes over a free place and over a record whose port is not in its set (R54). -/
theorem purgeAt_passes (h : ∀ r, Table.get s.stt.dynamics k = some r → ports.getLsbD r.port.val = false) :
    purgeAt k ports s = s := by
  cases hr : Table.get s.stt.dynamics k with
  | none => simp only [purgeAt, hr]
  | some r =>
    simp only [purgeAt, hr]
    exact if_neg (by rw [h r hr]; decide)

/-- A purge walk removes and counts a record whose port is in its set (R54). -/
theorem purgeAt_removes (h : Table.get s.stt.dynamics k = some r) (hport : ports.getLsbD r.port.val = true) :
    TablePresented { s.stt with
      dynamics := Table.erase s.stt.dynamics k
      stats := { s.stt.stats with purgeRemovals := countUp s.stt.stats.purgeRemovals 1 } } s
      (purgeAt k ports s) := by
  simp only [purgeAt, h, if_pos hport]
  exact removeDynamic_counted k (fun x => { x with purgeRemovals := countUp x.purgeRemovals 1 }) s

theorem purgeAt_recordsVisited (k : Nat) (ports : QuaySet) (s : State) : RecordsVisited s (purgeAt k ports s) := by
  by_cases h : ∀ r, Table.get s.stt.dynamics k = some r → ports.getLsbD r.port.val = false
  · rw [purgeAt_passes h]; exact ⟨_, _, rfl⟩
  · push Not at h
    obtain ⟨r, hr, hport⟩ := h
    exact ⟨_, _, (purgeAt_removes hr (by simpa using hport)).frame⟩

end Visits

/-! ### After a visit -/

/-- The aging sweep goes on to the next place; after the last one, an expiry remembered begins a sweep (R52, R53). -/
theorem advanceAging_eq (k : Nat) (s : State) :
    advanceAging k s = s.setStt { s.stt with
      sweep := if k < 2047 then some (k + 1) else if s.stt.remembered then some 0 else none
      remembered := s.stt.remembered && !(decide (2047 ≤ k) && s.stt.remembered) } := by
  unfold advanceAging
  by_cases hk : k < 2047
  · rw [if_pos (show k + 1 < Config.dynamicPlaces from Nat.succ_lt_succ hk)]
    simp [hk, Nat.not_le.2 hk]
  · rw [if_neg (show ¬k + 1 < Config.dynamicPlaces from fun h => hk (Nat.lt_of_succ_lt_succ h))]
    by_cases hr : s.stt.remembered = true <;> simp [hk, hr, Nat.le_of_not_lt hk]

/-- A purge walk goes on to the next place; after the last one, a walk for the waiting set begins (R54). -/
theorem advancePurge_eq (w : Walk) (s : State) :
    advancePurge w s = s.setStt { s.stt with
      walk := if w.next < 2047 then some ⟨w.next + 1, w.ports⟩
        else if s.stt.waiting = 0 then none else some ⟨0, s.stt.waiting⟩
      waiting := if w.next < 2047 then s.stt.waiting else 0 } := by
  unfold advancePurge
  by_cases hw : w.next < 2047
  · rw [if_pos (show w.next + 1 < Config.dynamicPlaces from Nat.succ_lt_succ hw)]
    simp [hw]
  · rw [if_neg (show ¬w.next + 1 < Config.dynamicPlaces from fun h => hw (Nat.lt_of_succ_lt_succ h))]
    by_cases h0 : s.stt.waiting = 0 <;>
      simp only [ne_eq, hw, h0, not_true_eq_false, not_false_eq_true, if_true, if_false]

/-! ### The events of the walks -/

theorem exec_agingSweepVisit {k : Nat} {s : State} (h : s.stt.sweep = some k) :
    exec .agingSweepVisit s = .next (advanceAging k (ageAt k s)) := by
  show execAgingSweepVisit s = _
  simp only [execAgingSweepVisit, h]

theorem exec_purgeWalkVisit {w : Walk} {s : State} (h : s.stt.walk = some w) :
    exec .purgeWalkVisit s = .next (advancePurge w (purgeAt w.next w.ports s)) := by
  show execPurgeWalkVisit s = _
  simp only [execPurgeWalkVisit, h]

/-- With no walk in progress, a quay port's link-down begins one for that port (R54). -/
theorem stationLinkDown_begins {s : State} (q : QPort) (h : s.stt.walk = none) :
    stationLinkDown q s = s.setStt { s.stt with walk := some ⟨0, quaySingle q⟩ } := by
  simp only [stationLinkDown, h]

/-- During a walk, a quay port's link-down puts the port into the waiting set (R54). -/
theorem stationLinkDown_waits {s : State} (q : QPort) (h : s.stt.walk ≠ none) :
    stationLinkDown q s = s.setStt { s.stt with waiting := s.stt.waiting ||| quaySingle q } := by
  obtain ⟨w, hw⟩ := Option.ne_none_iff_exists'.1 h
  simp only [stationLinkDown, hw]

/-- A quay port's link-down is taken from flight; with no walk in progress it begins one (R54). -/
theorem exec_sttLinkDown_begins {p : Port} {q : QPort} {s : State} (hp : p ∈ s.flight.stationDowns)
    (hq : Port.quay p = some q) (hwalk : s.stt.walk = none) :
    exec (.sttLinkDown p) s = .next { s with
      stt := { s.stt with walk := some ⟨0, quaySingle q⟩ }
      flight := { s.flight with stationDowns := s.flight.stationDowns.erase p } } := by
  show execSttLinkDown p s = _
  simp only [execSttLinkDown, if_pos hp, hq]
  exact congrArg Host.Outcome.next (stationLinkDown_begins q hwalk)

/-- A quay port's link-down is taken from flight; during a walk it waits (R54). -/
theorem exec_sttLinkDown_waits {p : Port} {q : QPort} {s : State} (hp : p ∈ s.flight.stationDowns)
    (hq : Port.quay p = some q) (hwalk : s.stt.walk ≠ none) :
    exec (.sttLinkDown p) s = .next { s with
      stt := { s.stt with waiting := s.stt.waiting ||| quaySingle q }
      flight := { s.flight with stationDowns := s.flight.stationDowns.erase p } } := by
  show execSttLinkDown p s = _
  simp only [execSttLinkDown, if_pos hp, hq]
  exact congrArg Host.Outcome.next (stationLinkDown_waits q hwalk)

/-- A trunk port's link-down is taken from flight and does nothing (R54). -/
theorem exec_sttLinkDown_trunk {p : Port} {s : State} (hp : p ∈ s.flight.stationDowns) (hq : Port.quay p = none) :
    exec (.sttLinkDown p) s =
      .next (s.setFlight { s.flight with stationDowns := s.flight.stationDowns.erase p }) := by
  show execSttLinkDown p s = _
  simp only [execSttLinkDown, if_pos hp, hq]

/-! ### The obligation -/

/-- Settles O31: a visit is its place's case and then the step to the next place; a link-down goes by its port. -/
theorem stationWalksVisitEachPlace : Obligations.StationWalksVisitEachPlace := by
  refine ⟨fun k s hsweep => ⟨_, exec_agingSweepVisit hsweep, ?aging⟩,
    fun w s hwalk => ⟨_, exec_purgeWalkVisit hwalk, ?purge⟩, fun p s hp => ?linkDown⟩
  case aging =>
    obtain ⟨_, _, visited⟩ := ageAt_recordsVisited k s
    rw [advanceAging_eq]
    refine ⟨fun hfree => ?free, fun r hr hage => ?ages, fun r hr hage => ?removes, ?sweep, ?remembered, ?frame⟩
    case free => rw [ageAt_free hfree]; exact ⟨rfl, rfl⟩
    case ages => rw [ageAt_ages hr hage]; exact ⟨rfl, rfl⟩
    case removes =>
      have removed := ageAt_removes hr hage
      exact ⟨congrArg Stt.dynamics removed.stt, removed.presented.congr rfl rfl, congrArg Stt.stats removed.stt⟩
    case sweep => rw [visited.stt]; rfl
    case remembered => rw [visited.stt]; rfl
    case frame => rw [visited.stt]; exact visited.setStt _
  case purge =>
    obtain ⟨_, _, visited⟩ := purgeAt_recordsVisited w.next w.ports s
    rw [advancePurge_eq]
    refine ⟨fun hpass => ?passes, fun r hr hport => ?removes, ?walk, ?waiting, ?frame⟩
    case passes => rw [purgeAt_passes hpass]; exact ⟨rfl, rfl⟩
    case removes =>
      have removed := purgeAt_removes hr hport
      exact ⟨congrArg Stt.dynamics removed.stt, removed.presented.congr rfl rfl, congrArg Stt.stats removed.stt⟩
    case walk => rw [visited.stt]; rfl
    case waiting => rw [visited.stt]; rfl
    case frame => rw [visited.stt]; exact visited.setStt _
  case linkDown =>
    cases hq : Port.quay p with
    | none =>
      refine ⟨_, exec_sttLinkDown_trunk hp hq, ?_⟩
      exact ⟨fun _ h => (nomatch h), fun _ h => (nomatch h), fun _ => rfl, rfl⟩
    | some q =>
      have quay : Port.isQuay p ≠ false := fun h => by rw [quay_none h] at hq; cases hq
      by_cases hwalk : s.stt.walk = none
      · refine ⟨_, exec_sttLinkDown_begins hp hq hwalk, ?_⟩
        exact ⟨fun _ h _ => by cases h; rfl, fun _ _ h => absurd hwalk h, fun h => absurd h quay, rfl⟩
      · refine ⟨_, exec_sttLinkDown_waits hp hq hwalk, ?_⟩
        exact ⟨fun _ _ h => absurd h hwalk, fun _ h _ => by cases h; rfl, fun h => absurd h quay, rfl⟩

end Sys2Proof.Machine
end

section
/-! The cell check of a crane link (spec 5.2, 5.3) and the position report that runs it (spec 5.1): R84 to R88, R90,
R94. The check has two outcomes, no target or an action on one; the action has one equation for each case of R88. What a
check may change at all is said once (`CheckFrame`). -/

namespace Sys2Proof.Machine

/-! ### What a cell check may change -/

/-- Beside the record of one link, only the enqueues in flight may differ: what a cell check may change. -/
def CheckFrame (l : LinkNo) (s t : State) : Prop :=
  (∀ m, m ≠ l → t.link m = s.link m) ∧
    t = { s with links := t.links, flight := { s.flight with enqueues := t.flight.enqueues } }

theorem CheckFrame.refl (l : LinkNo) (s : State) : CheckFrame l s s := ⟨fun _ _ => rfl, rfl⟩

theorem CheckFrame.trans {l : LinkNo} {s t u : State} (h : CheckFrame l s t) (g : CheckFrame l t u) :
    CheckFrame l s u := by
  obtain ⟨hlinks, hframe⟩ := h
  obtain ⟨glinks, gframe⟩ := g
  exact ⟨fun m hm => (glinks m hm).trans (hlinks m hm), by rw [gframe, hframe]⟩

theorem setLink_checkFrame (l : LinkNo) (x : Link) (s : State) : CheckFrame l s (s.setLink l x) :=
  ⟨fun _ hm => State.link_setLink_of_ne s x hm, rfl⟩

theorem primingCopy_checkFrame (l : LinkNo) (q : QPort) (x : Link) (s : State) :
    CheckFrame l s (primingCopy q x s) := by
  unfold primingCopy
  split
  · exact .refl l s
  · exact ⟨fun _ _ => rfl, rfl⟩

@[simp] theorem primingCopy_link (q : QPort) (x : Link) (s : State) (m : LinkNo) :
    (primingCopy q x s).link m = s.link m := by
  unfold primingCopy
  split <;> rfl

/-- The frames that a priming copy hands on: the repeat slot's, where it holds one (R90). -/
def primingFrames (q : QPort) (x : Link) : List EnqueueRequest :=
  match x.slot with
  | some bytes => [{ queues := [(QPort.port q, .c)], kind := .craneControl, body := .forwarded bytes }]
  | none => []

/-- The priming copy is handed to the new port's C queue, where the repeat slot holds a frame (R90). -/
theorem primingCopy_enqueues (q : QPort) (x : Link) (s : State) :
    (primingCopy q x s).flight.enqueues = s.flight.enqueues ++ primingFrames q x := by
  unfold primingCopy primingFrames
  cases x.slot with
  | none => exact (List.append_nil _).symm
  | some bytes => rfl

/-! ### The action on a target (R88, R94) -/

section Action
variable {l : LinkNo} {x : Link} {q : QPort} {h : Handover} {s : State}

theorem actOnTarget_cancels (hctx : x.context = some h) (hq : q = h.old) :
    actOnTarget l x q s = s.setLink l { x with context := none } := by
  simp only [actOnTarget, hctx, if_pos hq]

theorem actOnTarget_redirects (hctx : x.context = some h) (hq : q ≠ h.old) :
    actOnTarget l x q s = primingCopy q x (s.setLink l
      { x with context := some ⟨h.old, q, x.holdPeriod⟩
               counts := { x.counts with redirected := countUp x.counts.redirected 1 } }) := by
  simp only [actOnTarget, hctx, if_neg hq]

theorem actOnTarget_moves (hctx : x.context = none) (hst : x.state = .waiting ∨ x.state = .lapsed) :
    actOnTarget l x q s = s.setLink l { x with primary := q } := by
  obtain hst | hst := hst <;> simp only [actOnTarget, hctx, hst]

theorem actOnTarget_starts (hctx : x.context = none) (hst : x.state = .live ∨ x.state = .late)
    (hup : s.usable (QPort.port x.primary) = true) :
    actOnTarget l x q s = primingCopy q x (s.setLink l { x with context := some ⟨x.primary, q, x.holdPeriod⟩ }) := by
  obtain hst | hst := hst <;> simp only [actOnTarget, hctx, hst, hup, if_true]

theorem actOnTarget_failsOver (hctx : x.context = none) (hst : x.state = .live ∨ x.state = .late)
    (hdown : s.usable (QPort.port x.primary) = false) :
    actOnTarget l x q s = s.setLink l
      { x with primary := q, counts := { x.counts with failovers := countUp x.counts.failovers 1 } } := by
  obtain hst | hst := hst <;> simp only [actOnTarget, hctx, hst, hdown, Bool.false_eq_true, if_false]

/-- An action at a bound link leaves it without a context, or hands on the priming copy for its target. Of the state it
reads the ports alone. -/
theorem actOnTarget_ends_or_primes (l : LinkNo) (q : QPort) (s : State) (hbound : x.state ≠ .unbound) :
    ∃ z, ((∀ t : State, t.ports = s.ports → actOnTarget l x q t = t.setLink l z) ∧ z.context = none) ∨
      ∀ t : State, t.ports = s.ports → actOnTarget l x q t = primingCopy q x (t.setLink l z) := by
  have usable {t : State} (ht : t.ports = s.ports) (p : Port) : t.usable p = s.usable p := by
    unfold State.usable State.port
    rw [ht]
  cases hctx : x.context with
  | some h =>
    by_cases hq : q = h.old
    · exact ⟨_, .inl ⟨fun _ _ => actOnTarget_cancels hctx hq, rfl⟩⟩
    · exact ⟨_, .inr fun _ _ => actOnTarget_redirects hctx hq⟩
  | none =>
    have hst : (x.state = .waiting ∨ x.state = .lapsed) ∨ (x.state = .live ∨ x.state = .late) := by
      cases hx : x.state <;> simp_all
    obtain hst | hst := hst
    · exact ⟨_, .inl ⟨fun _ _ => actOnTarget_moves hctx hst, hctx⟩⟩
    · cases hup : s.usable (QPort.port x.primary) with
      | true => exact ⟨_, .inr fun _ ht => actOnTarget_starts hctx hst ((usable ht _).trans hup)⟩
      | false => exact ⟨_, .inl ⟨fun _ ht => actOnTarget_failsOver hctx hst ((usable ht _).trans hup), hctx⟩⟩

theorem actOnTarget_checkFrame (hbound : x.state ≠ .unbound) : CheckFrame l s (actOnTarget l x q s) := by
  obtain ⟨z, ⟨hz, -⟩ | hz⟩ := actOnTarget_ends_or_primes l q s hbound
  · rw [hz s rfl]; exact setLink_checkFrame ..
  · rw [hz s rfl]; exact (setLink_checkFrame ..).trans (primingCopy_checkFrame ..)

/-- A link that an action leaves with a context has had its priming copy handed on (R90). -/
theorem actOnTarget_enqueues (hbound : x.state ≠ .unbound) (hctx : ((actOnTarget l x q s).link l).context ≠ none) :
    (actOnTarget l x q s).flight.enqueues = s.flight.enqueues ++ primingFrames q x := by
  obtain ⟨z, ⟨hz, hnone⟩ | hz⟩ := actOnTarget_ends_or_primes l q s hbound
  · rw [hz s rfl, State.link_setLink_self] at hctx
    exact absurd hnone hctx
  · rw [hz s rfl]
    exact primingCopy_enqueues q x _

/-- A span event stands apart from what an action does. -/
theorem actOnTarget_sendSpan (e : SpanEvent) (hbound : x.state ≠ .unbound) :
    actOnTarget l x q (sendSpan e s) = sendSpan e (actOnTarget l x q s) := by
  obtain ⟨z, ⟨hz, -⟩ | hz⟩ := actOnTarget_ends_or_primes l q s hbound
  · rw [hz s rfl, hz (sendSpan e s) rfl]
    rfl
  · rw [hz s rfl, hz (sendSpan e s) rfl]
    unfold primingCopy
    cases x.slot <;> rfl

end Action

/-! ### The cell check (R86, R87) -/

/-- The settled context of a link (R86). -/
theorem settleContext_eq (s : State) (x : Link) :
    settleContext s x =
      match x.context with
      | none => x
      | some h =>
        if s.usable (QPort.port h.old) = false then x.complete h
        else if s.usable (QPort.port h.new) = false then x.abandon
        else x := by
  cases hctx : x.context with
  | none => simp only [settleContext, hctx]
  | some h => simp only [settleContext, hctx, Bool.not_eq_true']

/-- Settling a context leaves the fields from which the candidates and the action are worked out. -/
theorem settleContext_keeps (s : State) (x : Link) :
    (settleContext s x).state = x.state ∧ (settleContext s x).segment = x.segment ∧
      (settleContext s x).config = x.config := by
  rw [settleContext_eq]
  cases x.context with
  | none => exact ⟨rfl, rfl, rfl⟩
  | some h =>
    dsimp only
    split_ifs <;> exact ⟨rfl, rfl, rfl⟩

theorem candidates_settleContext (s : State) (x : Link) : candidates s (settleContext s x) = candidates s x := by
  obtain ⟨-, hsegment, hconfig⟩ := settleContext_keeps s x
  simp only [candidates, hsegment, hconfig]

/-- The first usable candidate of a link (R87 step 2). -/
def firstUsable (s : State) (x : Link) : Option QPort :=
  if s.quayUsable (candidates s x).1 then (candidates s x).1
  else if s.quayUsable (candidates s x).2 then (candidates s x).2
  else none

/-- The first usable of two candidates, with each candidate's case. -/
theorem firstUsable_eq (s : State) (x : Link) :
    firstUsable s x =
      match (candidates s x).1, (candidates s x).2 with
      | some a, b => if s.usable (QPort.port a) then some a else b.filter (fun q => s.usable (QPort.port q))
      | none, b => b.filter (fun q => s.usable (QPort.port q)) := by
  unfold firstUsable
  have second (b : Option QPort) :
      (if s.quayUsable b then b else none) = b.filter (fun q => s.usable (QPort.port q)) := by
    cases b <;> rfl
  rw [second]
  cases (candidates s x).1 <;> rfl

/-- A link's standing port is a usable candidate (R87 step 1). -/
def Stays (s : State) (x : Link) : Prop :=
  ((candidates s x).1 = some x.standing ∨ (candidates s x).2 = some x.standing) ∧
    s.usable (QPort.port x.standing) = true

/-- The bar of the reverted target applies to the first usable candidate (R87 step 3). -/
def Barred (s : State) (x : Link) : Prop :=
  firstUsable s x = x.reverted ∧ s.usable (QPort.port x.primary) = true

theorem chooseTarget_of_barred {s : State} {x : Link} (h : Barred s x) : chooseTarget s x = none := by
  obtain ⟨hfirst, hup⟩ := h
  show (if s.usable (QPort.port x.primary) && firstUsable s x == x.reverted then none else firstUsable s x) = none
  simp [hfirst, hup]

theorem chooseTarget_of_not_barred {s : State} {x : Link} (h : ¬Barred s x) :
    chooseTarget s x = firstUsable s x := by
  show (if s.usable (QPort.port x.primary) && firstUsable s x == x.reverted then none else firstUsable s x) = _
  rw [if_neg]
  simp only [Bool.and_eq_true, beq_iff_eq]
  exact fun ⟨hup, hfirst⟩ => h ⟨hfirst, hup⟩

theorem stays_iff (s : State) (x : Link) :
    (((candidates s x).1 == some x.standing || (candidates s x).2 == some x.standing) &&
      s.usable (QPort.port x.standing)) = true ↔ Stays s x := by
  simp [Stays]

/-- Where the standing port does not stay, the check turns on the target (R87). -/
theorem cellCheck_of_not_stays {l : LinkNo} {s : State} {y : Link} (hy : settleContext s (s.link l) = y)
    (hstays : ¬Stays s y) :
    cellCheck l s =
      match chooseTarget s y with
      | none => s.setLink l y
      | some q => actOnTarget l y q (s.setLink l y) := by
  subst hy
  exact if_neg (mt (stays_iff ..).1 hstays)

/-- A check that reaches no target settles the context and does nothing more. -/
theorem cellCheck_settles {l : LinkNo} {s : State} {y : Link} (hy : settleContext s (s.link l) = y)
    (h : Stays s y ∨ chooseTarget s y = none) : cellCheck l s = s.setLink l y := by
  by_cases hstays : Stays s y
  · subst hy
    exact if_pos ((stays_iff ..).2 hstays)
  · rw [cellCheck_of_not_stays hy hstays, h.resolve_left hstays]

/-- A check that reaches a target acts on it. -/
theorem cellCheck_acts {l : LinkNo} {s : State} {y : Link} {q : QPort} (hy : settleContext s (s.link l) = y)
    (hstays : ¬Stays s y) (target : chooseTarget s y = some q) :
    cellCheck l s = actOnTarget l y q (s.setLink l y) := by
  rw [cellCheck_of_not_stays hy hstays, target]

/-- The two outcomes of a check at a bound link: the context is settled and no more, or a target is acted on. -/
theorem cellCheck_cases {l : LinkNo} {s : State} (hbound : (s.link l).state ≠ .unbound) :
    ∃ y : Link, settleContext s (s.link l) = y ∧ y.state ≠ .unbound ∧
      ((Stays s y ∨ chooseTarget s y = none) ∨ ∃ q, ¬Stays s y ∧ chooseTarget s y = some q) := by
  refine ⟨_, rfl, (settleContext_keeps s _).1.symm ▸ hbound, ?_⟩
  by_cases hstays : Stays s (settleContext s (s.link l))
  · exact .inl (.inl hstays)
  · cases target : chooseTarget s (settleContext s (s.link l)) with
    | none => exact .inl (.inr rfl)
    | some q => exact .inr ⟨q, hstays, rfl⟩

theorem cellCheck_checkFrame {l : LinkNo} {s : State} (hbound : (s.link l).state ≠ .unbound) :
    CheckFrame l s (cellCheck l s) := by
  obtain ⟨y, hy, ybound, h | ⟨q, hstays, target⟩⟩ := cellCheck_cases hbound
  · rw [cellCheck_settles hy h]
    exact setLink_checkFrame ..
  · rw [cellCheck_acts hy hstays target]
    exact (setLink_checkFrame ..).trans (actOnTarget_checkFrame ybound)

/-- Settles O19: the settled link and its candidates are those of the model, and each clause is a case of the check. -/
theorem cellCheckDecides : Obligations.CellCheckDecides := by
  intro l s hbound x up y standing c stays first barred hold t
  have hy : settleContext s (s.link l) = y := settleContext_eq s x
  have ybound : y.state ≠ .unbound := hy ▸ (settleContext_keeps s x).1.symm ▸ hbound
  have hc : candidates s y = c := hy ▸ candidates_settleContext s x
  have hstays : Stays s y ↔ stays := by rw [Stays, hc]; exact Iff.rfl
  have hfirst : firstUsable s y = first := by
    have h := firstUsable_eq s y
    rw [hc] at h
    exact h
  have hbarred : Barred s y ↔ barred := by rw [Barred, hfirst]
  refine ⟨?settles, fun leaves unbarred q hq => ?acts, cellCheck_checkFrame hbound⟩
  case settles =>
    intro h
    have ht : t = s.setLink l y := by
      refine cellCheck_settles hy (h.imp hstays.2 fun h => ?_)
      by_cases hb : Barred s y
      · exact chooseTarget_of_barred hb
      · exact (chooseTarget_of_not_barred hb).trans (hfirst.trans (h.resolve_left (mt hbarred.2 hb)))
    exact ht ▸ ⟨State.link_setLink_self .., rfl⟩
  case acts =>
    have target : chooseTarget s y = some q :=
      (chooseTarget_of_not_barred (mt hbarred.1 unbarred)).trans (hfirst.trans hq)
    have ht : t = actOnTarget l y q (s.setLink l y) := cellCheck_acts hy (mt hstays.1 leaves) target
    clear_value t
    subst ht
    refine ⟨fun h hctx hold => ?cancels, fun h hctx hnew => ?redirects, fun hctx hst => ?moves,
      fun hctx hst hup => ?starts, fun hctx hst hdown => ?failsOver, actOnTarget_enqueues ybound⟩
    case cancels => rw [actOnTarget_cancels hctx hold]; exact ⟨State.link_setLink_self .., rfl⟩
    case redirects => rw [actOnTarget_redirects hctx hnew, primingCopy_link]; exact State.link_setLink_self ..
    case moves => rw [actOnTarget_moves hctx hst]; exact ⟨State.link_setLink_self .., rfl⟩
    case starts =>
      rw [actOnTarget_starts (s := s.setLink l y) hctx hst hup, primingCopy_link]
      exact State.link_setLink_self ..
    case failsOver =>
      rw [actOnTarget_failsOver (s := s.setLink l y) hctx hst hdown]
      exact ⟨State.link_setLink_self .., rfl⟩

/-! ### Spans and the cell check -/

/-- A span event stands apart from the cell check. -/
theorem cellCheck_sendSpan (e : SpanEvent) {l : LinkNo} {s : State} (hbound : (s.link l).state ≠ .unbound) :
    cellCheck l (sendSpan e s) = sendSpan e (cellCheck l s) := by
  obtain ⟨y, hy, ybound, h | ⟨q, hstays, target⟩⟩ := cellCheck_cases hbound
  · rw [cellCheck_settles hy h]
    exact cellCheck_settles (s := sendSpan e s) hy h
  · rw [cellCheck_acts hy hstays target, ← actOnTarget_sendSpan e ybound]
    exact cellCheck_acts (s := sendSpan e s) hy hstays target

/-- Moving a link's span stands apart from the cell check. -/
theorem cellCheck_moveSpan {l : LinkNo} {s : State} (hbound : (s.link l).state ≠ .unbound) (x : Link) (g : Nat) :
    cellCheck l (moveSpan x g s) = moveSpan x g (cellCheck l s) := by
  unfold moveSpan
  split
  · cases x.segment with
    | none => exact cellCheck_sendSpan (.add g) hbound
    | some old =>
      exact (cellCheck_sendSpan (s := sendSpan (.remove old) s) (.add g) hbound).trans
        (congrArg (sendSpan (.add g)) (cellCheck_sendSpan (.remove old) hbound))
  · rfl

/-- The span of a LIVE or LATE link is removed where it was and added where it is (R85). -/
theorem moveSpan_eq (x : Link) (g : Nat) (s : State) :
    moveSpan x g s = s.setFlight { s.flight with spans := s.flight.spans ++
      (if x.state = .live ∨ x.state = .late then spansFor .remove x.segment ++ [.add g] else []) } := by
  have hspans : x.state.spans = true ↔ x.state = .live ∨ x.state = .late := by
    cases x.state <;> simp [LinkState.spans]
  unfold moveSpan
  simp only [hspans]
  split
  · cases x.segment with
    | none => rfl
    | some old => simp [sendSpan, sendSpanFor, spansFor, State.setFlight]
  · simp [State.setFlight]

/-! ### The frame of an event at a link -/

theorem LinkFrame.trans {l : LinkNo} {s t u : State} (h : LinkFrame l s t) (g : LinkFrame l t u) :
    LinkFrame l s u := by
  obtain ⟨hlinks, hframe⟩ := h
  obtain ⟨glinks, gframe⟩ := g
  exact ⟨fun m hm => (glinks m hm).trans (hlinks m hm), by rw [gframe, hframe]⟩

theorem CheckFrame.linkFrame {l : LinkNo} {s t : State} (h : CheckFrame l s t) : LinkFrame l s t := by
  obtain ⟨hlinks, hframe⟩ := h
  exact ⟨hlinks, by rw [hframe]⟩

theorem ReportsOnly.linkFrame {s t : State} (h : ReportsOnly s t) (l : LinkNo) : LinkFrame l s t := by
  unfold ReportsOnly at h
  rw [h]
  exact ⟨fun _ _ => rfl, rfl⟩

theorem moveSpan_linkFrame (l : LinkNo) (x : Link) (g : Nat) (s : State) : LinkFrame l s (moveSpan x g s) := by
  rw [moveSpan_eq]
  exact ⟨fun _ _ => rfl, rfl⟩

/-! ### CRANE-UNCOVERED -/

/-- The condition stands on the links, the ports and the map alone, which a report leaves. -/
theorem ReportsOnly.craneUncovered {s t : State} (h : ReportsOnly s t) : craneUncovered t = craneUncovered s := by
  unfold ReportsOnly at h
  rw [h]
  rfl

theorem presentUncovered_reportsOnly (s : State) : ReportsOnly s (presentUncovered s) := present_reportsOnly ..

theorem presentUncovered_presented (s : State) : UncoveredPresented (presentUncovered s) :=
  (present_pending _ s (by decide)).trans (presentUncovered_reportsOnly s).craneUncovered.symm

theorem ReportsOnly.link {s t : State} (h : ReportsOnly s t) (l : LinkNo) : t.link l = s.link l := by rw [h]; rfl

theorem ReportsOnly.spans {s t : State} (h : ReportsOnly s t) : t.flight.spans = s.flight.spans := by rw [h]

/-! ### Position reports (R83 to R85) -/

/-- The two tests of the hysteresis in turn (R84). -/
theorem segmentOf_eq (g : Geometry) (current : Option Nat) (position : Nat) :
    segmentOf g current position =
      match current with
      | none => rawSegment g position
      | some c =>
        if c ≠ 255 ∧ position - g.origin ≥ (c + 1) * g.length + g.hysteresis then rawSegment g position
        else if position - g.origin + g.hysteresis < c * g.length then rawSegment g position
        else c := by
  cases current with
  | none => rfl
  | some c => exact ite_or ..

section Report
variable {l : LinkNo} {f : Frame} {p : Port} {s : State}

theorem positionReport_short (h : f.payload.length < 2) :
    positionReport l f p s = bump p 4 1 (addDrop 0 1 s) := if_pos h

/-- A report in the segment the link holds sets the last position alone (R85). -/
theorem positionReport_keeps (h : 2 ≤ f.payload.length)
    (hseg : (s.link l).segment = some (segmentOf s.cvm.active.geometry (s.link l).segment (u16At f.payload 0))) :
    positionReport l f p s =
      presentUncovered (s.setLink l { s.link l with position := some (u16At f.payload 0) }) :=
  (if_neg (by omega)).trans (if_pos hseg)

/-- A report in another segment runs the cell check, and moves the link's span (R85). -/
theorem positionReport_moves {g : Nat} (hbound : (s.link l).state ≠ .unbound) (h : 2 ≤ f.payload.length)
    (hg : segmentOf s.cvm.active.geometry (s.link l).segment (u16At f.payload 0) = g)
    (hseg : (s.link l).segment ≠ some g) :
    positionReport l f p s =
      presentUncovered (moveSpan (s.link l) g (cellCheck l (s.setLink l
        { s.link l with position := some (u16At f.payload 0), segment := some g, reverted := none }))) := by
  subst hg
  rw [← cellCheck_moveSpan (by rw [State.link_setLink_self]; exact hbound)]
  exact (if_neg (by omega)).trans (if_neg hseg)

end Report

/-- Settles O18: a short report is counted, one in the same segment sets the position, and one in another segment runs
the cell check, from which its span stands apart. -/
theorem positionReportsMoveTheLink : Obligations.PositionReportsMoveTheLink := by
  intro l f p s hbound x g pos rel raw seg t
  have hseg : segmentOf g x.segment pos = seg := segmentOf_eq g x.segment pos
  have reports := presentUncovered_reportsOnly
  obtain hlen | hlen := Nat.lt_or_ge f.payload.length 2
  · have ht : t = _ := positionReport_short hlen
    have counted : CountsDrop p (some 4) 0 s t := ht ▸ countsDrop_some p 4 0 s (by decide) (by decide)
    have links : t.links = s.links := by rw [counted.frame]
    exact ⟨fun _ => ⟨counted.port 4 rfl, counted.reason, links⟩, fun h => absurd h (by omega),
      fun h => absurd h (by omega), counted.frame.linkFrame l⟩
  by_cases same : x.segment = some seg
  case pos =>
    have ht : t = _ := positionReport_keeps hlen (same.trans (congrArg some hseg.symm))
    clear_value t
    subst ht
    refine ⟨fun h => absurd h (by omega), fun _ _ => ⟨?kept, (reports _).spans, presentUncovered_presented _⟩,
      fun _ h => absurd same h, (setLink_checkFrame ..).linkFrame.trans ((reports _).linkFrame l)⟩
    case kept => exact ((reports _).link l).trans (State.link_setLink_self ..)
  case neg =>
    have ht : t = _ := positionReport_moves hbound hlen hseg same
    clear_value t
    subst ht
    have check := cellCheck_checkFrame (l := l)
      (s := s.setLink l { x with position := some pos, segment := some seg, reverted := none })
      (by rw [State.link_setLink_self]; exact hbound)
    refine ⟨fun h => absurd h (by omega), fun _ h => absurd h same,
      fun _ _ => ⟨?link, ?spans, presentUncovered_presented _⟩, ?frame⟩
    case link =>
      rw [(reports _).link, moveSpan_eq]
      rfl
    case spans =>
      rw [(reports _).spans, moveSpan_eq, State.setFlight_flight, check.2]
      rfl
    case frame =>
      exact (((setLink_checkFrame ..).trans check).linkFrame.trans (moveSpan_linkFrame ..)).trans
        ((reports _).linkFrame l)

end Sys2Proof.Machine
end

section
/-! What counting and reporting keep, once for each operation, in the form the laws need: a lawful notice source stays
lawful, and the frames handed on are short notice frames (R156 to R160). -/

namespace Sys2Proof.Machine

/-- A request that hands on a notice frame (R160, R179). -/
def EnqueueRequest.isNotice (r : EnqueueRequest) : Prop :=
  ∃ bytes : List Byte, r.body = .originated .notice bytes ∧ bytes.length = 30

/-- The second state has handed on notice frames alone, kept every lawful source lawful, and changed nothing but what
counts and reports change. -/
structure Reported (s t : State) : Prop where
  frame  : ReportsOnly s t
  lawful : ∀ k, (s.source k).lawful k → (t.source k).lawful k
  handed : ∃ more, t.flight.enqueues = s.flight.enqueues ++ more ∧ ∀ r ∈ more, r.isNotice

theorem Reported.trans {s t u : State} (h : Reported s t) (g : Reported t u) : Reported s u := by
  obtain ⟨a, ha, ha'⟩ := h.handed
  obtain ⟨b, hb, hb'⟩ := g.handed
  refine ⟨h.frame.trans g.frame, fun k => g.lawful k ∘ h.lawful k, a ++ b, by rw [hb, ha, List.append_assoc], ?_⟩
  exact fun r hr => (List.mem_append.1 hr).elim (ha' r) (hb' r)

/-- An operation that hands nothing on and leaves the sources. -/
theorem Reported.of_quiet {s t : State} (frame : ReportsOnly s t) (sources : t.ntu.sources = s.ntu.sources)
    (enqueues : t.flight.enqueues = s.flight.enqueues) : Reported s t :=
  ⟨frame, fun k h => by rw [State.source, sources]; exact h, [], by rw [enqueues, List.append_nil], by simp⟩

theorem Reported.refl (s : State) : Reported s s := .of_quiet (.refl s) rfl rfl

theorem addDrop_reported (r : Fin 20) (n : Nat) (s : State) : Reported s (addDrop r n s) :=
  .of_quiet (addDrop_reportsOnly r n s) rfl rfl

/-- A source's record is replaced by one that is lawful where the old one was. -/
theorem setSource_reported {k : SourceNo} {x : Source} {s : State} (h : (s.source k).lawful k → x.lawful k) :
    Reported s (s.setSource k x) := by
  refine ⟨setSource_reportsOnly k x s, fun j hj => ?_, [], by simp, by simp⟩
  rw [State.source_setSource]
  split
  · rename_i e
    exact e ▸ h (e ▸ hj)
  · exact hj

theorem noticePayload_length (k : SourceNo) (s : State) : (noticePayload k s).length = 14 := by
  have detail : (detailBytes (s.source k).detail).length = 6 := by
    unfold detailBytes
    split <;> rfl
  simp [noticePayload, detail, be1, be2]

theorem originatedBytes_length (k : Kind) (down : Bool) (x y : Sid) (payload : List Byte) :
    (originatedBytes k down x y payload).length = 16 + payload.length := by
  simp [originatedBytes, be1, be2, sidBytes, be4]
  omega

/-! ### The operations -/

/-- An event keeps an edge source lawful (R157). -/
theorem Source.lawful.event {k : SourceNo} {x : Source} (h : x.lawful k) (d : Detail)
    (hk : isLevelSource k = false) : (x.event d).lawful k := by
  obtain ⟨⟨hlo, hhi, hcount⟩, -, hedge⟩ := h
  obtain ⟨hholdoff, hdetail, hpending⟩ := hedge hk
  cases hp : x.pending with
  | true =>
    rw [Source.event, if_pos hp]
    have : 1 ≤ x.count := hpending.1 hp
    exact ⟨⟨hlo, hhi, by dsimp only; omega⟩, fun h => by simp [hk] at h,
      fun _ => ⟨hholdoff, hdetail, fun _ => by dsimp only; omega, fun _ => hp⟩⟩
  | false =>
    rw [Source.event, if_neg (by simp [hp])]
    exact ⟨⟨hlo, hhi, by simp⟩, fun h => by simp [hk] at h, fun _ => ⟨hholdoff, rfl, by simp⟩⟩

theorem countPort_reported (p : Port) (c : Fin 12) (n : Nat) (s : State) : Reported s (countPort p c n s).1 := by
  have counted (x : Counter) : Reported s (s.setCounter p c x) :=
    .of_quiet (setCounter_reportsOnly p c x s) rfl rfl
  unfold countPort
  dsimp only
  split
  · exact counted _
  · exact (counted _).trans (setSource_reported fun h => h.event _ (by decide))

theorem issueWith_reported {f : Port → Fin 12 → Nat → State → State} (hf : ∀ p c n s, Reported s (f p c n s))
    (k : SourceNo) (s : State) : Reported s (issueWith f k s) := by
  unfold issueWith
  split
  · exact .refl s
  · split
    · refine ⟨handOff_reportsOnly _ s, fun _ => id, _, rfl, fun r hr => ?_⟩
      rw [List.mem_singleton.1 hr]
      exact ⟨_, rfl, by rw [originatedBytes_length, noticePayload_length]⟩
    · refine Reported.trans (Reported.trans ?_ (addDrop_reported ..)) (hf ..)
      exact .of_quiet (setNtu_reportsOnly _ s) rfl rfl

theorem bumpFuel_reported (fuel : Nat) : ∀ (p : Port) (c : Fin 12) (n : Nat) (s : State),
    Reported s (bumpFuel fuel p c n s) := by
  induction fuel with
  | zero => exact countPort_reported
  | succ fuel ih =>
    intro p c n s
    unfold bumpFuel
    split
    · exact (countPort_reported ..).trans (issueWith_reported ih ..)
    · exact countPort_reported ..

theorem bump_reported (p : Port) (c : Fin 12) (n : Nat) (s : State) : Reported s (bump p c n s) :=
  bumpFuel_reported 2 p c n s

theorem issue_reported (k : SourceNo) (s : State) : Reported s (issue k s) :=
  issueWith_reported bump_reported k s

theorem portDownDrop_reported (p : Port) (s : State) : Reported s (portDownDrop p s) :=
  (addDrop_reported ..).trans (bump_reported ..)

theorem dropAt_reported (p : Port) (c : Fin 12) (r : Fin 20) (s : State) : Reported s (dropAt p c r s) :=
  (addDrop_reported ..).trans (bump_reported ..)

theorem raise_reported {k : SourceNo} (d : Detail) (s : State) (hk : isLevelSource k = false) :
    Reported s (raise k d s) := by
  have told : Reported s (s.setSource k ((s.source k).event d)) := setSource_reported fun h => h.event d hk
  unfold raise
  dsimp only
  split
  · exact told.trans (issue_reported ..)
  · exact told

/-- A presentation keeps a level source lawful: its holdoff timer runs exactly while its status is set (R158). -/
theorem present_reported {k : SourceNo} (c : Bool) (s : State) (hk : isLevelSource k = true) :
    Reported s (present k c s) := by
  have edge {x : Source} : isLevelSource k = false → x.holdoff = none ∧ x.detail.isSome = x.pending ∧
    (x.pending = true ↔ 1 ≤ x.count) := fun h => by simp [hk] at h
  unfold present
  dsimp only
  split
  · rename_i hset
    have hpending : (s.source k).pending = false := by simp_all
    split
    · rename_i hmasked
      refine setSource_reported fun h => ⟨?_, fun _ => ?_, edge⟩
      · have := h.ranges
        dsimp only
        omega
      · have := h.level hk
        simp_all [Source.status]
    · rename_i hmasked
      refine Reported.trans (setSource_reported fun h => ⟨?_, fun _ => ?_, edge⟩) (issue_reported ..)
      · have := h.ranges
        dsimp only
        omega
      · have := h.level hk
        simp_all [Source.status]
  · split
    · exact setSource_reported fun h => ⟨h.ranges, fun _ => ⟨(h.level hk).1, by simp [Source.status]⟩, edge⟩
    · exact .refl s

theorem presentUncovered_reported (s : State) : Reported s (presentUncovered s) := present_reported _ s rfl
theorem presentStationFull_reported (s : State) : Reported s (presentStationFull s) := present_reported _ s rfl
theorem presentReeferFull_reported (s : State) : Reported s (presentReeferFull s) := present_reported _ s rfl
theorem presentBatchOverflow_reported (s : State) : Reported s (presentBatchOverflow s) := present_reported _ s rfl
theorem presentPoolLow_reported (s : State) : Reported s (presentPoolLow s) := present_reported _ s rfl
theorem presentMapInvalid_reported (s : State) : Reported s (presentMapInvalid s) := present_reported _ s rfl

theorem presentAll_reported (s : State) : Reported s (presentAll s) :=
  (((((presentUncovered_reported s).trans (presentStationFull_reported _)).trans (presentReeferFull_reported _)).trans
    (presentBatchOverflow_reported _)).trans (presentMapInvalid_reported _)).trans (presentPoolLow_reported _)

theorem Reported.foldl {α : Type} {f : State → α → State} (hf : ∀ s x, Reported s (f s x)) (xs : List α)
    (s : State) : Reported s (xs.foldl f s) := by
  induction xs generalizing s with
  | nil => exact .refl s
  | cons x xs ih => exact (hf s x).trans (ih _)

theorem countRestart_reported (s : State) : Reported s (countRestart s) := by
  refine Reported.foldl (fun t p => ?_) _ s
  split
  · exact (bump_reported ..).trans (addDrop_reported ..)
  · exact addDrop_reported ..

theorem countRefusal_reported (d : Port × QClass) (a : Admission) (s : State) : Reported s (countRefusal d a s) := by
  cases a with
  | admitted => exact .refl s
  | portDown => exact portDownDrop_reported ..
  | serviceMode => exact addDrop_reported ..
  | queueFull => exact (addDrop_reported ..).trans (bump_reported ..)

theorem ReportsOnly.agrees {s t : State} (h : ReportsOnly s t) : Agrees Field.reports s t := by
  unfold ReportsOnly at h
  constructor
  intro f hf
  rw [h]
  cases f with
  | ntu | ctb | flight => simp at hf
  | _ => rfl

end Sys2Proof.Machine
end

section
/-! What each operation of a block hands to the FSQ and to the CVM, and that it keeps lawful notice sources lawful. One
lemma for each operation, over any predicate `ok` that the frames handed on meet: the laws of the frame store, of the
credits, of the overlay and of the notice sources all read them. -/

namespace Sys2Proof.Machine

/-- A frame that the part originates and that is short: a notice or a link advisory. -/
def Body.isShort : Body → Prop
  | .originated _ bytes => bytes.length ≤ 30
  | .forwarded _ | .batch _ => False

/-- From the first state to the second, every frame handed on meets `ok`, the span events `spans` have been issued, and
every lawful notice source has stayed lawful. -/
structure Emits (ok : Body → Prop) (spans : List SpanEvent) (s t : State) : Prop where
  handed : ∃ more, t.flight.enqueues = s.flight.enqueues ++ more ∧ ∀ r ∈ more, ok r.body
  spans  : t.flight.spans = s.flight.spans ++ spans
  lawful : ∀ k, (s.source k).lawful k → (t.source k).lawful k

section
variable {ok : Body → Prop} {a b : List SpanEvent} {s t u : State}

theorem Emits.trans (h : Emits ok a s t) (g : Emits ok b t u) : Emits ok (a ++ b) s u := by
  obtain ⟨x, hx, okx⟩ := h.handed
  obtain ⟨y, hy, oky⟩ := g.handed
  refine ⟨⟨x ++ y, by rw [hy, hx, List.append_assoc], ?_⟩, by rw [g.spans, h.spans, List.append_assoc],
    fun k => g.lawful k ∘ h.lawful k⟩
  exact fun r hr => (List.mem_append.1 hr).elim (okx r) (oky r)

/-- An operation after one that issues no span event. -/
theorem Emits.andThen (h : Emits ok [] s t) (g : Emits ok b t u) : Emits ok b s u := h.trans g

theorem Emits.of_eq (hflight : t.flight = s.flight) (hntu : t.ntu = s.ntu) : Emits ok [] s t := by
  refine ⟨⟨[], ?_, by simp⟩, ?_, fun k h => ?_⟩
  · rw [hflight, List.append_nil]
  · rw [hflight, List.append_nil]
  · rw [State.source, hntu]
    exact h

theorem Emits.refl (s : State) : Emits ok [] s s := .of_eq rfl rfl

/-- An operation that leaves the events in flight and the notice unit. -/
theorem Agrees.emits {c : List Field} (h : Agrees c s t) (hc : Field.flight ∉ c ∧ Field.ntu ∉ c) : Emits ok [] s t :=
  .of_eq (h.same .flight hc.1) (h.same .ntu hc.2)

theorem Reported.emits (h : Reported s t) (short : ∀ x : Body, x.isShort → ok x) : Emits ok [] s t := by
  obtain ⟨more, hmore, notices⟩ := h.handed
  refine ⟨⟨more, hmore, fun r hr => ?_⟩, ?_, h.lawful⟩
  · obtain ⟨bytes, hbody, hlen⟩ := notices r hr
    rw [hbody]
    exact short _ (le_of_eq hlen)
  · rw [h.frame.spans, List.append_nil]

theorem handOff_emits {r : EnqueueRequest} (h : ok r.body) (s : State) : Emits ok [] s (handOff r s) :=
  ⟨⟨[r], rfl, by simpa using h⟩, (List.append_nil _).symm, fun _ => id⟩

theorem sendSpan_emits (e : SpanEvent) (s : State) : Emits ok [e] s (sendSpan e s) :=
  ⟨⟨[], (List.append_nil _).symm, by simp⟩, rfl, fun _ => id⟩

theorem sendSpanFor_emits (mk : Nat → SpanEvent) (g : Option Nat) (s : State) :
    Emits ok (spansFor mk g) s (sendSpanFor mk g s) := by
  cases g with
  | none => exact .refl s
  | some g => exact sendSpan_emits _ s

theorem Emits.foldl {α : Type} {f : State → α → State} (hf : ∀ s x, Emits ok [] s (f s x)) (xs : List α)
    (s : State) : Emits ok [] s (xs.foldl f s) := by
  induction xs generalizing s with
  | nil => exact .refl s
  | cons x xs ih => exact (hf s x).andThen (ih _)

end

section Blocks
variable {ok : Body → Prop} (short : ∀ x : Body, x.isShort → ok x)
include short

/-! ### Forwarding -/

theorem forwardTo_emits (p : Port) (q : QClass) {f : Frame} (hf : ok (.forwarded f.bytes)) (s : State) :
    Emits ok [] s (forwardTo p q f s) := by
  unfold forwardTo
  split
  · exact handOff_emits hf s
  · exact (portDownDrop_reported p s).emits short

theorem deliverSteered_emits {f : Frame} (hf : ok (.forwarded f.bytes)) (d : Domain) (ports : List QPort)
    (s : State) : Emits ok [] s (deliverSteered f d ports s) := by
  unfold deliverSteered
  dsimp only
  split
  · exact (addDrop_reported ..).emits short
  · exact ((addDrop_reported ..).emits short).andThen (handOff_emits hf _)

theorem steerToPort_emits {f : Frame} (hf : ok (.forwarded f.bytes)) (d : Domain) (q : QPort) (s : State) :
    Emits ok [] s (steerToPort f d q s) := by
  unfold steerToPort
  split
  · exact deliverSteered_emits short hf ..
  · exact (portDownDrop_reported ..).emits short

theorem flood_emits {f : Frame} (hf : ok (.forwarded f.bytes)) (n : Fin 8) (p : Port) (s : State) :
    Emits ok [] s (flood f n p s) := by
  unfold flood
  dsimp only
  split
  · exact (addDrop_reported ..).emits short
  · have offered := (offer_agrees (floodBucket n) f.length p s).emits (ok := ok) (by decide)
    split
    · exact (offered.andThen ((sttStats_agrees ..).emits (by decide))).andThen (deliverSteered_emits short hf ..)
    · exact offered.andThen ((dropAt_reported ..).emits short)

theorem steer_emits {f : Frame} (hf : ok (.forwarded f.bytes)) (n : Fin 8) (p : Port) (s : State) :
    Emits ok [] s (steer f n p s) := by
  unfold steer
  split
  · split <;> exact steerToPort_emits short hf ..
  · split
    · exact steerToPort_emits short hf ..
    · unfold steerMiss
      split
      · exact flood_emits short hf ..
      · exact ((sttStats_agrees ..).emits (by decide)).andThen (deliverSteered_emits short hf ..)

/-! ### The Station Table -/

theorem putDynamic_emits (k : Nat) (r : DynRec) (s : State) : Emits ok [] s (putDynamic k r s) :=
  ((setStt_agrees ..).emits (by decide)).andThen ((presentStationFull_reported _).emits short)

theorem removeDynamic_emits (k : Nat) (s : State) : Emits ok [] s (removeDynamic k s) :=
  ((setStt_agrees ..).emits (by decide)).andThen ((presentStationFull_reported _).emits short)

theorem removeDynamicOf_emits (x : Sid) (s : State) : Emits ok [] s (removeDynamicOf x s) := by
  unfold removeDynamicOf
  split
  · exact .refl s
  · exact removeDynamic_emits short ..

theorem learn_emits (x : Sid) (q : QPort) (g : Nat) (s : State) : Emits ok [] s (learn x q g s) := by
  have counted (f : SttStats → SttStats) := (sttStats_agrees f s).emits (ok := ok) (by decide)
  unfold learn
  split
  · exact .refl s
  · split
    · split
      · exact (addDrop_reported ..).emits short
      · exact (counted _).andThen (putDynamic_emits short ..)
    · split
      · exact putDynamic_emits short ..
      · exact (counted _).andThen (putDynamic_emits short ..)
      · exact counted _

theorem ageAt_emits (k : Nat) (s : State) : Emits ok [] s (ageAt k s) := by
  unfold ageAt
  split
  · exact .refl s
  · split
    · exact ((sttStats_agrees ..).emits (by decide)).andThen (removeDynamic_emits short ..)
    · exact (setStt_agrees ..).emits (by decide)

theorem purgeAt_emits (k : Nat) (x : QuaySet) (s : State) : Emits ok [] s (purgeAt k x s) := by
  unfold purgeAt
  split
  · exact .refl s
  · split
    · exact ((sttStats_agrees ..).emits (by decide)).andThen (removeDynamic_emits short ..)
    · exact .refl s

theorem bindStation_emits {x : Sid} {l : LinkNo} {s t : State} (h : bindStation x l s = .bound t) :
    Emits ok [] s t := by
  unfold bindStation at h
  split at h
  · split at h
    · split at h <;> cases h
      exact removeDynamicOf_emits short ..
    · cases h
      exact ((setStt_agrees ..).emits (by decide)).andThen (removeDynamicOf_emits short ..)
  · split at h <;> cases h
    exact ((setStt_agrees ..).emits (by decide)).andThen (removeDynamicOf_emits short ..)

/-! ### The Crane Link Supervisor -/

omit short in
theorem primingCopy_emits (q : QPort) {x : Link} (hslot : ∀ bytes, x.slot = some bytes → ok (.forwarded bytes))
    (s : State) : Emits ok [] s (primingCopy q x s) := by
  unfold primingCopy
  split
  · exact .refl s
  · rename_i bytes h
    exact handOff_emits (hslot bytes h) s

omit short in
theorem settleContext_slot (s : State) (x : Link) : (settleContext s x).slot = x.slot := by
  rw [settleContext_eq]
  cases x.context with
  | none => rfl
  | some h => dsimp only; split_ifs <;> rfl

omit short in
theorem actOnTarget_emits (l : LinkNo) {x : Link} (hslot : ∀ bytes, x.slot = some bytes → ok (.forwarded bytes))
    (q : QPort) (s : State) : Emits ok [] s (actOnTarget l x q s) := by
  have written (y : Link) : Emits ok [] s (s.setLink l y) := (setLink_agrees l y s).emits (by decide)
  unfold actOnTarget
  split
  · split
    · exact written _
    · exact (written _).andThen (primingCopy_emits q hslot _)
  · split
    · exact written _
    · exact written _
    · split
      · exact (written _).andThen (primingCopy_emits q hslot _)
      · exact written _
    · split
      · exact (written _).andThen (primingCopy_emits q hslot _)
      · exact written _
    · exact .refl s

omit short in
theorem cellCheck_emits {l : LinkNo} {s : State}
    (hslot : ∀ bytes, (s.link l).slot = some bytes → ok (.forwarded bytes)) :
    Emits ok [] s (cellCheck l s) := by
  have settled := (setLink_agrees l (settleContext s (s.link l)) s).emits (ok := ok) (by decide)
  unfold cellCheck
  dsimp only
  split
  · exact settled
  · split
    · exact settled
    · exact settled.andThen (actOnTarget_emits l (by rwa [settleContext_slot]) _ _)

theorem sendAdvisory_emits (l : LinkNo) (x : AdvisoryState) (s : State) : Emits ok [] s (sendAdvisory l x s) := by
  unfold sendAdvisory
  dsimp only
  split
  · refine handOff_emits (short _ ?_) s
    simp [Body.isShort, originatedBytes_length, advisoryPayload, sidBytes, be1, be4]
  · exact (portDownDrop_reported ..).emits short

theorem restoreNotice_emits (l : LinkNo) (x : LinkState) (s : State) : Emits ok [] s (restoreNotice l x s) := by
  unfold restoreNotice
  split
  · exact (sendAdvisory_emits short ..).andThen ((raise_reported _ _ rfl).emits short)
  · exact (sendAdvisory_emits short ..).andThen ((raise_reported _ _ rfl).emits short)
  all_goals exact .refl s

theorem deliverControl_emits (x : Link) {f : Frame} (hf : ok (.forwarded f.bytes)) (s : State) :
    Emits ok [] s (deliverControl x f s) := by
  have dropped : Emits ok [] s ((x.deliveryPorts.filter (fun q => !s.usable (QPort.port q))).foldl
      (fun t q => portDownDrop (QPort.port q) t) s) :=
    Emits.foldl (fun t q => (portDownDrop_reported (QPort.port q) t).emits short) _ s
  unfold deliverControl
  dsimp only
  split
  · exact dropped
  · exact dropped.andThen (handOff_emits hf _)

theorem downlinkControl_emits (l : LinkNo) {f : Frame} (hf : ok (.forwarded f.bytes)) (p : Port) (s : State) :
    Emits ok [] s (downlinkControl l f p s) := by
  have counted (g : LinkCounts → LinkCounts) := (linkCounts_agrees l g s).emits (ok := ok) (by decide)
  have offered := (offer_agrees (linkBucket l) f.length p s).emits (ok := ok) (by decide)
  unfold downlinkControl
  dsimp only
  split
  · exact (counted _).andThen ((addDrop_reported ..).emits short)
  · split
    · exact ((counted _).andThen ((addDrop_reported ..).emits short)).andThen ((raise_reported _ _ rfl).emits short)
    · split
      · exact (offered.andThen ((setLink_agrees ..).emits (by decide))).andThen (deliverControl_emits short _ hf _)
      · exact offered.andThen ((dropAt_reported ..).emits short)

end Blocks

end Sys2Proof.Machine
end

section
/-! The crane links (chapters 4 and 5): what each event at a link makes of its record, the span events it issues, and
that it keeps the link lawful (R61, R68 to R74, R84 to R98). -/

namespace Sys2Proof.Machine

/-- The segment whose shadow span a link casts: that of a LIVE or LATE link, when it is known (R16). -/
def Link.span (x : Link) : Option Nat := if x.state.spans then x.segment else none

/-- The span events that take a link's span from one segment to another (R16). -/
def spanMoved (old new : Option Nat) : List SpanEvent :=
  if old = new then [] else spansFor .remove old ++ spansFor .add new

@[simp] theorem spanMoved_self (g : Option Nat) : spanMoved g g = [] := if_pos rfl

theorem spanMoved_from_none (g : Option Nat) : spanMoved none g = spansFor .add g := by
  cases g <;> rfl

theorem spanMoved_to_none (g : Option Nat) : spanMoved g none = spansFor .remove g := by
  cases g <;> rfl

/-- An event at a link: every other link is as before, the link stays lawful, and the span events issued take its span
from where it was to where it is. -/
structure EventAt (l : LinkNo) (s t : State) : Prop where
  others : ∀ m, m ≠ l → t.link m = s.link m
  lawful : (t.link l).lawful
  spans  : t.flight.spans = s.flight.spans ++ spanMoved (s.link l).span (t.link l).span

theorem EventAt.of_link {l : LinkNo} {s t : State} (hlink : ∀ m, t.link m = s.link m)
    (hspans : t.flight.spans = s.flight.spans) (h : (s.link l).lawful) : EventAt l s t :=
  ⟨fun m _ => hlink m, hlink l ▸ h, by rw [hlink, spanMoved_self, hspans, List.append_nil]⟩

theorem EventAt.refl {l : LinkNo} {s : State} (h : (s.link l).lawful) : EventAt l s s := .of_link (fun _ => rfl) rfl h

/-- A report after an event at a link. -/
theorem EventAt.report {l : LinkNo} {s t u : State} (h : EventAt l s t) (g : ReportsOnly t u) : EventAt l s u :=
  ⟨fun m hm => (g.link m).trans (h.others m hm), (g.link l).symm ▸ h.lawful, by rw [g.spans, g.link]; exact h.spans⟩

/-- Reports before an event at a link. -/
theorem EventAt.after_report {l : LinkNo} {s t u : State} (g : ReportsOnly s t) (h : EventAt l t u) : EventAt l s u :=
  ⟨fun m hm => (h.others m hm).trans (g.link m), h.lawful, by rw [h.spans, g.spans, g.link]⟩

/-- The record of a link is written, with the span events of its change. -/
theorem EventAt.write {l : LinkNo} {s : State} {x : Link} (h : x.lawful) (hspan : x.span = (s.link l).span) :
    EventAt l s (s.setLink l x) :=
  ⟨fun m hm => State.link_setLink_of_ne s x hm, by rwa [State.link_setLink_self],
    by rw [State.link_setLink_self, hspan, spanMoved_self]; exact (List.append_nil _).symm⟩

/-! ### Lawful records -/

section Records
variable {x : Link}

/-- A link that is neither LIVE nor LATE holds no handover context and its timer is stopped (R72, R74). -/
theorem Link.lawful.idle (h : x.lawful) (hs : x.state.spans = false) : x.context = none ∧ x.timer = none := by
  constructor
  · cases hc : x.context with
    | none => rfl
    | some c => exact absurd (h.context c hc).1 (by simp [hs])
  · have := h.timer
    rw [hs] at this
    simpa using this

theorem Link.lawful.recount (h : x.lawful) (c : LinkCounts) : { x with counts := c }.lawful :=
  ⟨h.config, h.timer, h.cycle, h.missed, h.context⟩

theorem Link.lawful.endContext (h : x.lawful) (p : QPort) : { x with primary := p, context := none }.lawful :=
  ⟨h.config, h.timer, h.cycle, h.missed, fun _ hc => (nomatch hc)⟩

theorem Link.lawful.setPrimary (h : x.lawful) (hctx : x.context = none) (p : QPort) : { x with primary := p }.lawful :=
  ⟨h.config, h.timer, h.cycle, h.missed, fun _ hc => by simp [hctx] at hc⟩

theorem Link.lawful.complete (h : x.lawful) (c : Handover) : (x.complete c).lawful :=
  (h.endContext c.new).recount _

theorem Link.lawful.abandon (h : x.lawful) : x.abandon.lawful := (h.endContext x.primary).recount _

theorem Link.lawful.revert (h : x.lawful) (q : QPort) (c : LinkCounts) :
    { x with context := none, reverted := some q, counts := c }.lawful :=
  ⟨h.config, h.timer, h.cycle, h.missed, fun _ hc => (nomatch hc)⟩

theorem Link.lawful.locate (h : x.lawful) (p g : Option Nat) (q : Option QPort) :
    { x with position := p, segment := g, reverted := q }.lawful :=
  ⟨h.config, h.timer, h.cycle, h.missed, h.context⟩

theorem Link.lawful.refilled (h : x.lawful) (f : Frame) : (x.refilled f).lawful := by
  unfold Link.refilled
  split
  · exact ⟨h.config, h.timer, h.cycle, h.missed, h.context⟩
  · exact h

/-- A LIVE or LATE link takes another context from its primary port to another one. -/
theorem Link.lawful.handover (h : x.lawful) (hs : x.state.spans = true) {q : QPort} (hq : q ≠ x.primary)
    (n : Nat) : { x with context := some ⟨x.primary, q, n⟩ }.lawful :=
  ⟨h.config, h.timer, h.cycle, h.missed, fun _ hc => by cases hc; exact ⟨hs, rfl, hq⟩⟩

/-- Acceptance of uplink control keeps a bound link lawful (R69, R70, R92). -/
theorem Link.lawful.accepted (h : x.lawful) (hbound : x.state ≠ .unbound) (n : Nat) (q : QPort) :
    (x.accepted n q).lawful := by
  have live : { x with cycle := some n, missed := 0, timer := some x.config.period, state := .live }.lawful :=
    ⟨fun _ => h.config hbound, rfl, fun _ => rfl, ⟨by simp, by simp⟩, fun c hc => ⟨rfl, (h.context c hc).2⟩⟩
  unfold Link.accepted
  dsimp only
  split
  · split
    · exact live.complete _
    · exact live
  · exact live

theorem Link.accepted_state (n : Nat) (q : QPort) : (x.accepted n q).state = .live := by
  unfold Link.accepted
  dsimp only
  split
  · split <;> rfl
  · rfl

theorem Link.accepted_segment (n : Nat) (q : QPort) : (x.accepted n q).segment = x.segment := by
  unfold Link.accepted
  dsimp only
  split
  · split <;> rfl
  · rfl

theorem Link.accepted_slot (n : Nat) (q : QPort) : (x.accepted n q).slot = x.slot := by
  unfold Link.accepted
  dsimp only
  split
  · split <;> rfl
  · rfl

theorem Link.accepted_span (n : Nat) (q : QPort) : (x.accepted n q).span = x.segment := by
  rw [Link.span, Link.accepted_state, Link.accepted_segment]
  rfl

/-- A lapse keeps the link lawful (R74). -/
theorem Link.lawful.lapse (h : x.lawful) {m : Nat} (hm : m ≤ 16) (hbound : x.state ≠ .unbound) (c : LinkCounts) :
    { x with missed := m, state := .lapsed, timer := none, context := none, counts := c }.lawful :=
  ⟨fun _ => h.config hbound, rfl, fun hs => (nomatch hs), ⟨hm, fun hs => (nomatch hs)⟩, fun _ hc => (nomatch hc)⟩

/-- A miss below the lapse limit keeps the link lawful (R73). -/
theorem Link.lawful.miss (h : x.lawful) {m : Nat} (hm : m ≤ 15) (hs : x.state.spans = true) {st : LinkState}
    (hst : st.spans = true) (hbound : x.state ≠ .unbound) (c : LinkCounts) :
    { x with missed := m, state := st, timer := some x.config.period, counts := c }.lawful :=
  ⟨fun _ => h.config hbound, hst.symm, fun _ => h.cycle hs, ⟨by dsimp only; omega, fun _ => hm⟩,
    fun c hc => ⟨hst, (h.context c hc).2⟩⟩

/-- A soft restart keeps a link lawful (R62). -/
theorem Link.lawful.softRestart (h : x.lawful) : x.softRestart.lawful := by
  unfold Link.softRestart
  split
  · exact h
  · rename_i hbound
    exact ⟨fun _ => h.config hbound, rfl, fun hs => (nomatch hs), ⟨by simp, fun hs => (nomatch hs)⟩,
      fun _ hc => (nomatch hc)⟩

theorem Link.hard_lawful : Link.hard.lawful :=
  ⟨fun h => absurd rfl h, rfl, fun hs => (nomatch hs), ⟨by decide, fun hs => (nomatch hs)⟩, fun _ hc => (nomatch hc)⟩

end Records

/-! ### The cell check -/

/-- A link that a cell check has led to another port: it differs in its primary port, its context and its counts. -/
def Link.Rerouted (x y : Link) : Prop :=
  y = { x with primary := y.primary, context := y.context, counts := y.counts }

theorem settleContext_rerouted (s : State) (x : Link) : x.Rerouted (settleContext s x) := by
  rw [settleContext_eq]
  cases x.context with
  | none => rfl
  | some h => dsimp only; split_ifs <;> rfl

theorem settleContext_lawful (s : State) {x : Link} (h : x.lawful) : (settleContext s x).lawful := by
  rw [settleContext_eq]
  cases x.context with
  | none => exact h
  | some c =>
    dsimp only
    split_ifs
    · exact h.complete c
    · exact h.abandon
    · exact h

/-- An action at a bound link reroutes it (R88, R94). -/
theorem actOnTarget_rerouted (l : LinkNo) {x : Link} (q : QPort) (s : State) (hbound : x.state ≠ .unbound) :
    x.Rerouted ((actOnTarget l x q s).link l) := by
  obtain ⟨h, hctx⟩ | hctx := (Option.eq_none_or_eq_some x.context).symm
  · by_cases hq : q = h.old
    · rw [actOnTarget_cancels hctx hq, State.link_setLink_self]; rfl
    · rw [actOnTarget_redirects hctx hq, primingCopy_link, State.link_setLink_self]; rfl
  · have hst : (x.state = .waiting ∨ x.state = .lapsed) ∨ (x.state = .live ∨ x.state = .late) := by
      cases hx : x.state <;> simp_all
    obtain hst | hst := hst
    · rw [actOnTarget_moves hctx hst, State.link_setLink_self]; rfl
    · cases hup : s.usable (QPort.port x.primary) with
      | true => rw [actOnTarget_starts hctx hst hup, primingCopy_link, State.link_setLink_self]; rfl
      | false => rw [actOnTarget_failsOver hctx hst hup, State.link_setLink_self]; rfl

/-- An action on a target other than the port a link without context is on keeps the link lawful (R88). -/
theorem actOnTarget_lawful (l : LinkNo) {x : Link} {q : QPort} (s : State) (h : x.lawful)
    (hq : x.context = none → s.usable (QPort.port x.primary) = true → q ≠ x.primary) (hbound : x.state ≠ .unbound) :
    ((actOnTarget l x q s).link l).lawful := by
  obtain ⟨c, hctx⟩ | hctx := (Option.eq_none_or_eq_some x.context).symm
  · obtain ⟨hs, hold, -⟩ := h.context c hctx
    by_cases hne : q = c.old
    · rw [actOnTarget_cancels hctx hne, State.link_setLink_self]
      exact h.endContext x.primary
    · rw [actOnTarget_redirects hctx hne, primingCopy_link, State.link_setLink_self]
      rw [hold] at hne ⊢
      exact (h.handover hs hne _).recount _
  · have hst : (x.state = .waiting ∨ x.state = .lapsed) ∨ (x.state = .live ∨ x.state = .late) := by
      cases hx : x.state <;> simp_all
    obtain hst | hst := hst
    · rw [actOnTarget_moves hctx hst, State.link_setLink_self]
      exact h.setPrimary hctx q
    · have hs : x.state.spans = true := by obtain hst | hst := hst <;> rw [hst] <;> rfl
      cases hup : s.usable (QPort.port x.primary) with
      | true =>
        rw [actOnTarget_starts hctx hst hup, primingCopy_link, State.link_setLink_self]
        exact h.handover hs (hq hctx hup) _
      | false =>
        rw [actOnTarget_failsOver hctx hst hup, State.link_setLink_self]
        exact (h.setPrimary hctx q).recount _

/-- A target is a usable candidate of the link (R87). -/
theorem chooseTarget_some {s : State} {x : Link} {q : QPort} (h : chooseTarget s x = some q) :
    ((candidates s x).1 = some q ∨ (candidates s x).2 = some q) ∧ s.usable (QPort.port q) = true := by
  have hfirst : firstUsable s x = some q := by
    by_cases hb : Barred s x
    · rw [chooseTarget_of_barred hb] at h; cases h
    · rw [← chooseTarget_of_not_barred hb]; exact h
  unfold firstUsable at hfirst
  split at hfirst
  · rename_i hup
    rw [hfirst] at hup
    exact ⟨.inl hfirst, hup⟩
  · split at hfirst
    · rename_i hup
      rw [hfirst] at hup
      exact ⟨.inr hfirst, hup⟩
    · cases hfirst

/-- A cell check reroutes its link and keeps it lawful (R86 to R88). -/
theorem cellCheck_link {l : LinkNo} {s : State} (hbound : (s.link l).state ≠ .unbound) :
    (s.link l).Rerouted ((cellCheck l s).link l) ∧ ((s.link l).lawful → ((cellCheck l s).link l).lawful) := by
  obtain ⟨y, hy, ybound, h | ⟨q, hstays, target⟩⟩ := cellCheck_cases hbound
  · rw [cellCheck_settles hy h, State.link_setLink_self, ← hy]
    exact ⟨settleContext_rerouted s _, settleContext_lawful s⟩
  · rw [cellCheck_acts hy hstays target]
    have rerouted := actOnTarget_rerouted l q (s.setLink l y) ybound
    refine ⟨?_, fun hlaw => actOnTarget_lawful l _ (hy ▸ settleContext_lawful s hlaw) (fun hctx hup hq => ?_) ybound⟩
    · have settled := settleContext_rerouted s (s.link l)
      rw [hy] at settled
      unfold Link.Rerouted at *
      rw [rerouted, settled]
    · obtain ⟨hcand, hup⟩ := chooseTarget_some target
      have hstanding : y.standing = q := by rw [Link.standing, hctx, hq]
      exact hstays (by rw [Stays, hstanding]; exact ⟨hcand, hup⟩)

theorem Link.Rerouted.span {x y : Link} (h : x.Rerouted y) : y.span = x.span := by
  unfold Link.Rerouted at h
  rw [h]
  rfl

theorem Link.Rerouted.slot {x y : Link} (h : x.Rerouted y) : y.slot = x.slot := by
  unfold Link.Rerouted at h
  rw [h]

theorem cellCheck_spans {l : LinkNo} {s : State} (hbound : (s.link l).state ≠ .unbound) :
    (cellCheck l s).flight.spans = s.flight.spans := by
  rw [(cellCheck_checkFrame hbound).2]

theorem cellCheck_eventAt {l : LinkNo} {s : State} (hbound : (s.link l).state ≠ .unbound) (h : (s.link l).lawful) :
    EventAt l s (cellCheck l s) := by
  obtain ⟨rerouted, keeps⟩ := cellCheck_link hbound
  exact ⟨(cellCheck_checkFrame hbound).1, keeps h,
    by rw [rerouted.span, spanMoved_self, List.append_nil, cellCheck_spans hbound]⟩

/-- A link event at a record that has its link's span already. -/
theorem EventAt.after_write {l : LinkNo} {s t : State} {x : Link} (hspan : x.span = (s.link l).span)
    (h : EventAt l (s.setLink l x) t) : EventAt l s t := by
  obtain ⟨others, lawful, spans⟩ := h
  refine ⟨fun m hm => (others m hm).trans (State.link_setLink_of_ne s x hm), lawful, ?_⟩
  rw [spans, State.link_setLink_self, hspan]
  rfl

end Sys2Proof.Machine
end

section
/-! Events at a link: uplink and downlink control, position reports, supervision, the announcements and re-evaluations,
and the binding commands, each as an event at its link with the frames it hands on (chapters 4 and 5). -/

namespace Sys2Proof.Machine

/-- The frames of the repeat slots meet a predicate. -/
def SlotsMeet (ok : Body → Prop) (s : State) : Prop :=
  ∀ l bytes, (s.link l).slot = some bytes → ok (.forwarded bytes)

theorem SlotsMeet.congr {ok : Body → Prop} {s t : State} (h : SlotsMeet ok s) (hlinks : t.links = s.links) :
    SlotsMeet ok t := by
  unfold SlotsMeet State.link at *
  rwa [hlinks]

theorem SlotsMeet.setLink {ok : Body → Prop} {s : State} (h : SlotsMeet ok s) {l : LinkNo} {x : Link}
    (hx : ∀ bytes, x.slot = some bytes → ok (.forwarded bytes)) : SlotsMeet ok (s.setLink l x) := by
  intro m bytes hm
  rw [State.link_setLink] at hm
  split at hm
  · exact hx bytes hm
  · exact h m bytes hm

/-- An operation hands on frames that meet a predicate, and keeps the repeat slots meeting it. -/
structure Carries (ok : Body → Prop) (s t : State) : Prop where
  emits : ∃ spans, Emits ok spans s t
  slots : SlotsMeet ok t

section
variable {ok : Body → Prop} {s t u : State}

theorem Carries.trans (h : Carries ok s t) (g : SlotsMeet ok t → Carries ok t u) : Carries ok s u := by
  obtain ⟨⟨a, ha⟩, slots⟩ := h
  obtain ⟨⟨b, hb⟩, slots'⟩ := g slots
  exact ⟨⟨_, ha.trans hb⟩, slots'⟩

theorem Emits.carries {spans : List SpanEvent} (h : Emits ok spans s t) (hs : SlotsMeet ok s)
    (hlinks : t.links = s.links) : Carries ok s t := ⟨⟨_, h⟩, hs.congr hlinks⟩

theorem Carries.refl (h : SlotsMeet ok s) : Carries ok s s := (Emits.refl s).carries h rfl

theorem Reported.carries (h : Reported s t) (short : ∀ x : Body, x.isShort → ok x) (hs : SlotsMeet ok s) :
    Carries ok s t := (h.emits short).carries hs (h.frame.agrees.same .links (by decide))

/-- A link's record is written with the slot it had, or with a frame that meets the predicate. -/
theorem setLink_carries {l : LinkNo} {x : Link} (hs : SlotsMeet ok s)
    (hx : ∀ bytes, x.slot = some bytes → ok (.forwarded bytes)) : Carries ok s (s.setLink l x) :=
  ⟨⟨_, (setLink_agrees l x s).emits (by decide)⟩, hs.setLink hx⟩

theorem cellCheck_carries {l : LinkNo} (hbound : (s.link l).state ≠ .unbound) (hs : SlotsMeet ok s) :
    Carries ok s (cellCheck l s) := by
  refine ⟨⟨_, cellCheck_emits (hs l)⟩, fun m bytes hm => ?_⟩
  by_cases e : m = l
  · subst e
    rw [(cellCheck_link hbound).1.slot] at hm
    exact hs m bytes hm
  · rw [(cellCheck_checkFrame hbound).1 m e] at hm
    exact hs m bytes hm

end

/-- An event at a link whose record becomes `x`, by what it writes and issues. -/
theorem EventAt.of_written {l : LinkNo} {x : Link} {s t : State} (hlinks : t.links = (s.setLink l x).links)
    (h : x.lawful) (hspans : t.flight.spans = s.flight.spans ++ spanMoved (s.link l).span x.span) : EventAt l s t := by
  have link (m : LinkNo) : t.link m = (s.setLink l x).link m := by unfold State.link; rw [hlinks]
  refine ⟨fun m hm => (link m).trans (State.link_setLink_of_ne s x hm), ?_, ?_⟩
  · rwa [link, State.link_setLink_self]
  · rwa [link, State.link_setLink_self]

section Spans
variable {ok : Body → Prop} {x : Link}

/-- The span that acceptance adds takes the span of a bound link to its segment (R70). -/
theorem acceptSpan_emits (hbound : x.state ≠ .unbound) (s : State) :
    Emits ok (spanMoved x.span x.segment) s (acceptSpan x.state x.segment s) := by
  unfold acceptSpan Link.span
  cases hx : x.state with
  | unbound => exact absurd hx hbound
  | waiting | lapsed =>
    show Emits ok (spanMoved none x.segment) _ _
    rw [spanMoved_from_none]
    exact sendSpanFor_emits ..
  | live | late =>
    show Emits ok (spanMoved x.segment x.segment) _ _
    rw [spanMoved_self]
    exact .refl s

/-- A link's span moves to another segment (R85, R98). -/
theorem moveSpan_emits {g : Nat} (hg : x.segment ≠ some g) (s : State) :
    Emits ok (spanMoved x.span (if x.state.spans then some g else none)) s (moveSpan x g s) := by
  unfold moveSpan Link.span
  split
  · rw [spanMoved, if_neg hg]
    exact (sendSpanFor_emits .remove x.segment s).trans (sendSpan_emits _ _)
  · exact .refl s

@[simp] theorem moveSpan_link (x : Link) (g : Nat) (s : State) (m : LinkNo) : (moveSpan x g s).link m = s.link m := by
  rw [moveSpan_eq]
  rfl

/-- A link that has taken another segment, with nothing issued yet, moves its span there. -/
theorem EventAt.of_moveSpan {l : LinkNo} {g : Nat} {s v : State} (others : ∀ m, m ≠ l → v.link m = s.link m)
    (lawful : (v.link l).lawful) (hspans : v.flight.spans = s.flight.spans)
    (hspan : (v.link l).span = if (s.link l).state.spans then some g else none)
    (hseg : (s.link l).segment ≠ some g) : EventAt l s (moveSpan (s.link l) g v) := by
  have moved := (moveSpan_emits (ok := fun _ => True) hseg v).spans
  exact ⟨fun m hm => (moveSpan_link ..).trans (others m hm), by rwa [moveSpan_link],
    by rw [moveSpan_link, hspan, ← hspans]; exact moved⟩

end Spans

/-! ### Uplink and downlink control (spec 4.3, 4.5) -/

section Control
variable {ok : Body → Prop} {l : LinkNo} {s : State}

theorem acceptControl_emits (short : ∀ x : Body, x.isShort → ok x) {f : Frame} (hf : ok (.forwarded f.bytes))
    (q : QPort) (trunk : Port) (hbound : (s.link l).state ≠ .unbound) :
    Emits ok (spanMoved (s.link l).span (s.link l).segment) s (acceptControl l f q trunk s) := by
  have accepted : Emits ok (spanMoved (s.link l).span (s.link l).segment) s
      (acceptSpan (s.link l).state (s.link l).segment
        (restoreNotice l (s.link l).state (s.setLink l ((s.link l).accepted f.cycle q)))) :=
    (((setLink_agrees ..).emits (by decide)).andThen (restoreNotice_emits short ..)).andThen
      (acceptSpan_emits hbound _)
  unfold acceptControl
  dsimp only
  split
  · have e := (accepted.trans ((presentUncovered_reported _).emits short)).trans (forwardTo_emits short trunk .c hf _)
    simpa using e
  · have e := accepted.trans (forwardTo_emits short trunk .c hf _)
    simpa using e

theorem acceptControl_links (f : Frame) (q : QPort) (trunk : Port) :
    (acceptControl l f q trunk s).links = (s.setLink l ((s.link l).accepted f.cycle q)).links := by
  have accepted := ((restoreNotice_agrees l (s.link l).state (s.setLink l ((s.link l).accepted f.cycle q))).step
    (acceptSpan_agrees (s.link l).state (s.link l).segment _)).same .links (by decide)
  unfold acceptControl
  dsimp only
  split
  · exact (((presentUncovered_agrees _).step (forwardTo_agrees ..)).same .links (by decide)).trans accepted
  · exact ((forwardTo_agrees ..).same .links (by decide)).trans accepted

theorem acceptControl_eventAt (f : Frame) (q : QPort) (trunk : Port) (hbound : (s.link l).state ≠ .unbound)
    (h : (s.link l).lawful) : EventAt l s (acceptControl l f q trunk s) := by
  refine .of_written (acceptControl_links f q trunk) (h.accepted hbound _ _) ?_
  rw [Link.accepted_span]
  exact (acceptControl_emits (ok := fun _ => True) (fun _ _ => trivial) trivial q trunk hbound).spans

theorem linkCounts_eventAt (f : LinkCounts → LinkCounts) (h : (s.link l).lawful) :
    EventAt l s (s.linkCounts l f) := .write (h.recount _) rfl

theorem uplinkControl_eventAt (f : Frame) (q : QPort) (trunk : Port) (hbound : (s.link l).state ≠ .unbound)
    (h : (s.link l).lawful) : EventAt l s (uplinkControl l f q trunk s) := by
  unfold uplinkControl
  split
  · exact acceptControl_eventAt f q trunk hbound h
  · exact (linkCounts_eventAt _ h).report (addDrop_reportsOnly ..)
  · exact (linkCounts_eventAt _ h).report (addDrop_reportsOnly ..)

theorem linkCounts_carries (f : LinkCounts → LinkCounts) (hs : SlotsMeet ok s) : Carries ok s (s.linkCounts l f) :=
  setLink_carries hs (hs l)

theorem uplinkControl_carries (short : ∀ x : Body, x.isShort → ok x) {f : Frame} (hf : ok (.forwarded f.bytes))
    (q : QPort) (trunk : Port) (hbound : (s.link l).state ≠ .unbound) (hs : SlotsMeet ok s) :
    Carries ok s (uplinkControl l f q trunk s) := by
  unfold uplinkControl
  split
  · refine ⟨⟨_, acceptControl_emits short hf q trunk hbound⟩, SlotsMeet.congr ?_ (acceptControl_links f q trunk)⟩
    exact hs.setLink fun bytes hb => hs l bytes (by rwa [Link.accepted_slot] at hb)
  · exact (linkCounts_carries _ hs).trans ((addDrop_reported ..).carries short)
  · exact (linkCounts_carries _ hs).trans ((addDrop_reported ..).carries short)

theorem downlinkControl_eventAt (f : Frame) (p : Port) (h : (s.link l).lawful) :
    EventAt l s (downlinkControl l f p s) := by
  have counted (g : LinkCounts → LinkCounts) (r : Fin 20) (n : Nat) :
      EventAt l s (addDrop r n (s.linkCounts l g)) := (linkCounts_eventAt g h).report (addDrop_reportsOnly ..)
  have offered := offer_agrees (linkBucket l) f.length p s
  have offered_link (m : LinkNo) : (offer (linkBucket l) f.length p s).2.link m = s.link m := by
    unfold State.link
    rw [offered.same .links (by decide)]
  unfold downlinkControl
  dsimp only
  split
  · exact counted ..
  · split
    · exact (counted ..).report (raise_reportsOnly ..)
    · split
      · refine .of_written (x := (s.link l).refilled f) ?_ (h.refilled f) ?_
        · have delivered := (deliverControl_agrees ((s.link l).refilled f) f
            ((offer (linkBucket l) f.length p s).2.setLink l ((s.link l).refilled f))).same .links (by decide)
          rw [delivered, State.setLink_links, State.setLink_links, offered.same .links (by decide)]
        · have delivered := (deliverControl_emits (ok := fun _ => True) (fun _ _ => trivial)
            ((s.link l).refilled f) (f := f) trivial
            ((offer (linkBucket l) f.length p s).2.setLink l ((s.link l).refilled f))).spans
          have span : ((s.link l).refilled f).span = (s.link l).span := by
            unfold Link.refilled
            split <;> rfl
          rw [delivered, span, spanMoved_self, State.setLink_flight, offered.same .flight (by decide)]
      · have dropped := (dropAt_reported p 6 7 (offer (linkBucket l) f.length p s).2).frame
        exact .of_link (fun m => (dropped.link m).trans (offered_link m))
          (dropped.spans.trans (congrArg Flight.spans (offered.same .flight (by decide)))) h

theorem downlinkControl_carries (short : ∀ x : Body, x.isShort → ok x) {f : Frame} (hf : ok (.forwarded f.bytes))
    (p : Port) (hs : SlotsMeet ok s) : Carries ok s (downlinkControl l f p s) := by
  have counted (g : LinkCounts → LinkCounts) (r : Fin 20) : Carries ok s (addDrop r 1 (s.linkCounts l g)) :=
    (linkCounts_carries _ hs).trans ((addDrop_reported ..).carries short)
  have offered : Carries ok s (offer (linkBucket l) f.length p s).2 :=
    ((offer_agrees ..).emits (by decide)).carries hs ((offer_agrees ..).same .links (by decide))
  unfold downlinkControl
  dsimp only
  split
  · exact counted ..
  · split
    · exact (counted ..).trans ((raise_reported _ _ rfl).carries short)
    · split
      · refine (offered.trans fun h => setLink_carries h fun bytes hb => ?_).trans fun h =>
          (deliverControl_emits short _ hf _).carries h ((deliverControl_agrees ..).same .links (by decide))
        unfold Link.refilled at hb
        split at hb
        · cases hb; exact hf
        · exact hs l bytes hb
      · exact offered.trans ((dropAt_reported ..).carries short)

end Control

/-! ### Position reports and re-evaluations (spec 5.1, 5.6) -/

section Positions
variable {ok : Body → Prop} {l : LinkNo} {s : State}

/-- A link that takes a segment, with its span moved and the cell check run (R85, R98). -/
theorem relocated_eventAt {g : Nat} {x : Link} (hbound : (s.link l).state ≠ .unbound) (h : (s.link l).lawful)
    (hseg : (s.link l).segment ≠ some g) {p : Option Nat}
    (hx : x = { s.link l with position := p, segment := some g, reverted := none }) :
    EventAt l s (moveSpan (s.link l) g (cellCheck l (s.setLink l x))) := by
  have hself := State.link_setLink_self s l x
  have xlaw : x.lawful := hx ▸ h.locate _ _ _
  have xspan : x.span = if (s.link l).state.spans then some g else none := by rw [hx]; rfl
  have xbound : ((s.setLink l x).link l).state ≠ .unbound := by rw [hself, hx]; exact hbound
  obtain ⟨rerouted, keeps⟩ := cellCheck_link xbound
  refine .of_moveSpan (fun m hm => ?_) (keeps (hself.symm ▸ xlaw)) (cellCheck_spans xbound) ?_ hseg
  · rw [(cellCheck_checkFrame xbound).1 m hm, State.link_setLink_of_ne s x hm]
  · rw [rerouted.span, hself, xspan]

theorem positionReport_eventAt (f : Frame) (p : Port) (hbound : (s.link l).state ≠ .unbound)
    (h : (s.link l).lawful) : EventAt l s (positionReport l f p s) := by
  obtain hlen | hlen := Nat.lt_or_ge f.payload.length 2
  · rw [positionReport_short hlen]
    exact .after_report ((addDrop_reportsOnly ..).trans (bump_reportsOnly ..)) (.refl (by
      rwa [((addDrop_reportsOnly 0 1 s).trans (bump_reportsOnly p 4 1 _)).link]))
  · by_cases hseg : (s.link l).segment =
      some (segmentOf s.cvm.active.geometry (s.link l).segment (u16At f.payload 0))
    · rw [positionReport_keeps hlen hseg]
      have kept := h.locate (some (u16At f.payload 0)) (s.link l).segment (s.link l).reverted
      exact (EventAt.write kept rfl).report (presentUncovered_reportsOnly _)
    · rw [positionReport_moves hbound hlen rfl hseg]
      exact (relocated_eventAt hbound h hseg rfl).report (presentUncovered_reportsOnly _)

theorem moveSpan_carries (short : ∀ x : Body, x.isShort → ok x) (x : Link) (g : Nat) (hs : SlotsMeet ok s) :
    Carries ok s (presentUncovered (moveSpan x g s)) := by
  have moved : Carries ok s (moveSpan x g s) := by
    unfold moveSpan
    split
    · exact ((sendSpanFor_emits ..).trans (sendSpan_emits _ _)).carries hs
        (((sendSpanFor_agrees ..).step (sendSpan_agrees ..)).same .links (by decide))
    · exact .refl hs
  exact moved.trans ((presentUncovered_reported _).carries short)

/-- A link's record is written with the slot it had. -/
theorem rewritten_carries {x : Link} (hs : SlotsMeet ok s) (hslot : x.slot = (s.link l).slot) :
    Carries ok s (s.setLink l x) := setLink_carries hs fun bytes hb => hs l bytes (hslot ▸ hb)

/-- The same, and the cell check runs. -/
theorem checked_carries {x : Link} (hs : SlotsMeet ok s) (hbound : x.state ≠ .unbound)
    (hslot : x.slot = (s.link l).slot) : Carries ok s (cellCheck l (s.setLink l x)) :=
  (rewritten_carries hs hslot).trans (cellCheck_carries (by rwa [State.link_setLink_self]))

theorem positionReport_carries (short : ∀ x : Body, x.isShort → ok x) (f : Frame) (p : Port)
    (hbound : (s.link l).state ≠ .unbound) (hs : SlotsMeet ok s) : Carries ok s (positionReport l f p s) := by
  obtain hlen | hlen := Nat.lt_or_ge f.payload.length 2
  · rw [positionReport_short hlen]
    exact (((addDrop_reported ..).trans (bump_reported ..)).carries short hs)
  · by_cases hseg : (s.link l).segment =
      some (segmentOf s.cvm.active.geometry (s.link l).segment (u16At f.payload 0))
    · rw [positionReport_keeps hlen hseg]
      refine Carries.trans ?_ ((presentUncovered_reported _).carries short)
      exact rewritten_carries hs rfl
    · rw [positionReport_moves hbound hlen rfl hseg]
      refine Carries.trans ?_ (moveSpan_carries short _ _)
      exact checked_carries hs hbound rfl

/-- The three cases of a re-evaluation (R98). -/
theorem reevaluate_same {pos : Nat} (hbound : (s.link l).state ≠ .unbound) (hpos : (s.link l).position = some pos)
    (hseg : (s.link l).segment = some (rawSegment s.cvm.active.geometry pos)) :
    reevaluate l s = presentUncovered (cellCheck l (s.setLink l { s.link l with reverted := none })) := by
  unfold reevaluate
  dsimp only
  split
  · contradiction
  · simp_all
  · rename_i p hp _
    cases hpos.symm.trans hp
    rw [if_pos hseg, ← hseg]

theorem reevaluate_moves {pos g : Nat} (hbound : (s.link l).state ≠ .unbound)
    (hpos : (s.link l).position = some pos) (hg : rawSegment s.cvm.active.geometry pos = g)
    (hseg : (s.link l).segment ≠ some g) :
    reevaluate l s = presentUncovered (moveSpan (s.link l) g (cellCheck l
      (s.setLink l { s.link l with position := some pos, segment := some g, reverted := none }))) := by
  subst hg
  have commute : (moveSpan (s.link l) (rawSegment s.cvm.active.geometry pos) s).setLink l
      { s.link l with position := some pos, segment := some (rawSegment s.cvm.active.geometry pos), reverted := none } =
      moveSpan (s.link l) (rawSegment s.cvm.active.geometry pos) (s.setLink l
        { s.link l with position := some pos, segment := some (rawSegment s.cvm.active.geometry pos)
                        reverted := none }) := by
    rw [moveSpan_eq, moveSpan_eq]
    rfl
  have same : (moveSpan (s.link l) (rawSegment s.cvm.active.geometry pos) s).link l = s.link l := by
    rw [moveSpan_eq]
    rfl
  rw [← cellCheck_moveSpan (by rw [State.link_setLink_self]; exact hbound), ← commute]
  unfold reevaluate
  dsimp only
  split
  · contradiction
  · simp_all
  · rename_i p hp _
    cases hpos.symm.trans hp
    rw [if_neg hseg, same, ← hpos]

theorem reevaluate_skips (h : (s.link l).state = .unbound ∨ (s.link l).position = none) : reevaluate l s = s := by
  unfold reevaluate
  dsimp only
  split
  · rfl
  · rfl
  · simp_all

theorem reevaluate_eventAt (h : (s.link l).lawful) : EventAt l s (reevaluate l s) := by
  by_cases hskip : (s.link l).state = .unbound ∨ (s.link l).position = none
  · rw [reevaluate_skips hskip]
    exact .refl h
  · obtain ⟨hbound, hpos⟩ := not_or.1 hskip
    obtain ⟨pos, hpos⟩ := Option.ne_none_iff_exists'.1 hpos
    by_cases hseg : (s.link l).segment = some (rawSegment s.cvm.active.geometry pos)
    · rw [reevaluate_same hbound hpos hseg]
      refine EventAt.report (EventAt.after_write (x := { s.link l with reverted := none }) rfl
        (cellCheck_eventAt ?_ ?_)) (presentUncovered_reportsOnly _)
      · rwa [State.link_setLink_self]
      · rw [State.link_setLink_self]
        exact h.locate _ _ _
    · rw [reevaluate_moves hbound hpos rfl hseg]
      exact (relocated_eventAt hbound h hseg rfl).report (presentUncovered_reportsOnly _)

theorem reevaluate_carries (short : ∀ x : Body, x.isShort → ok x) (hs : SlotsMeet ok s) :
    Carries ok s (reevaluate l s) := by
  by_cases hskip : (s.link l).state = .unbound ∨ (s.link l).position = none
  · rw [reevaluate_skips hskip]
    exact .refl hs
  · obtain ⟨hbound, hpos⟩ := not_or.1 hskip
    obtain ⟨pos, hpos⟩ := Option.ne_none_iff_exists'.1 hpos
    by_cases hseg : (s.link l).segment = some (rawSegment s.cvm.active.geometry pos)
    · rw [reevaluate_same hbound hpos hseg]
      refine Carries.trans ?_ ((presentUncovered_reported _).carries short)
      exact checked_carries hs hbound rfl
    · rw [reevaluate_moves hbound hpos rfl hseg]
      refine Carries.trans ?_ (moveSpan_carries short _ _)
      exact checked_carries hs hbound rfl

end Positions

end Sys2Proof.Machine
end

section
/-! Supervision, the announcements, the cell checks after a restart, and the binding commands, as events at their links
(R63 to R66, R73, R74, R93, R96, R97, R102). -/

namespace Sys2Proof.Machine

section Supervision
variable {ok : Body → Prop} {l : LinkNo} {s : State}

/-- The record of a link that has lapsed (R74). -/
def Link.lapsed (x : Link) : Link :=
  { x with state := .lapsed, timer := none, context := none
           counts := { x.counts with lapses := countUp x.counts.lapses 1 } }

/-- The record of a LIVE link that has become LATE (R73). -/
def Link.late (x : Link) (m : Nat) : Link :=
  { x with missed := m, state := .late, timer := some x.config.period
           counts := { x.counts with late := countUp x.counts.late 1 } }

theorem lapse_emits (short : ∀ x : Body, x.isShort → ok x) (l : LinkNo) (s : State) :
    Emits ok (spansFor .remove (s.link l).segment) s (lapse l s) := by
  have span := ((setLink_agrees l (s.link l).lapsed s).emits (ok := ok) (by decide)).andThen
    (sendSpanFor_emits .remove (s.link l).segment _)
  have e := (span.trans (sendAdvisory_emits short l .lapsed _)).trans
    ((raise_reported (k := Src.craneLapse) (.link l) _ rfl).emits short)
  rw [List.append_nil, List.append_nil] at e
  exact e

theorem lapse_links (l : LinkNo) (s : State) : (lapse l s).links = (s.setLink l (s.link l).lapsed).links :=
  (((sendSpanFor_agrees ..).mono (by decide)).step ((sendAdvisory_agrees ..).step (raise_agrees ..))
    : Agrees Field.reports _ _).same .links (by decide)

theorem superviseLink_lapses (h : (s.link l).config.lapse ≤ (s.link l).missed + 1) :
    superviseLink l s =
      presentUncovered (lapse l (s.setLink l { s.link l with missed := (s.link l).missed + 1 })) := if_pos h

theorem superviseLink_late (h : (s.link l).missed + 1 < (s.link l).config.lapse)
    (hlate : (s.link l).state = .live ∧ (s.link l).config.late ≤ (s.link l).missed + 1) :
    superviseLink l s = presentUncovered (raise Src.craneLate (.link l) (sendAdvisory l .late
      (s.setLink l ((s.link l).late ((s.link l).missed + 1))))) :=
  (if_neg (by omega)).trans (if_pos hlate)

theorem superviseLink_misses (h : (s.link l).missed + 1 < (s.link l).config.lapse)
    (hlate : ¬((s.link l).state = .live ∧ (s.link l).config.late ≤ (s.link l).missed + 1)) :
    superviseLink l s = s.setLink l
      { s.link l with missed := (s.link l).missed + 1, timer := some (s.link l).config.period } :=
  (if_neg (by omega)).trans (if_neg hlate)

/-- A LIVE or LATE link is bound. -/
theorem LinkState.bound_of_spans {x : LinkState} (h : x.spans = true) : x ≠ .unbound := by
  rintro rfl
  cases h

theorem superviseLink_eventAt (h : (s.link l).lawful) (htimer : (s.link l).timer ≠ none) :
    EventAt l s (superviseLink l s) := by
  have hs : (s.link l).state.spans = true := by
    rw [← h.timer]
    exact Option.isSome_iff_ne_none.2 htimer
  have hbound := LinkState.bound_of_spans hs
  obtain ⟨-, hmissed⟩ := h.missed
  have hlapse := (h.config hbound).2.2.2.2.2.1
  by_cases hl : (s.link l).config.lapse ≤ (s.link l).missed + 1
  · rw [superviseLink_lapses hl]
    refine EventAt.report (EventAt.after_write (x := { s.link l with missed := (s.link l).missed + 1 }) rfl ?_)
      (presentUncovered_reportsOnly _)
    refine EventAt.of_written (lapse_links l _) ?_ ?_
    · rw [State.link_setLink_self]
      exact h.lapse (Nat.succ_le_succ (hmissed hs)) hbound _
    · rw [State.link_setLink_self]
      refine ((lapse_emits (ok := fun _ => True) (fun _ _ => trivial) l _).spans).trans ?_
      rw [State.link_setLink_self, State.setLink_flight]
      show _ = _ ++ spanMoved _ none
      rw [spanMoved_to_none, Link.span, if_pos hs]
  · by_cases hlate : (s.link l).state = .live ∧ (s.link l).config.late ≤ (s.link l).missed + 1
    · rw [superviseLink_late (by omega) hlate]
      refine EventAt.report (EventAt.report (EventAt.of_written (x := (s.link l).late ((s.link l).missed + 1)) ?_ ?_ ?_)
        (raise_reportsOnly ..)) (presentUncovered_reportsOnly _)
      · exact (sendAdvisory_agrees ..).same .links (by decide)
      · exact h.miss (by omega) hs rfl hbound _
      · refine ((sendAdvisory_emits (ok := fun _ => True) (fun _ _ => trivial) l .late _).spans).trans ?_
        show _ ++ [] = _ ++ spanMoved _ (s.link l).segment
        rw [Link.span, if_pos hs, spanMoved_self]
        rfl
    · rw [superviseLink_misses (by omega) hlate]
      exact .write (h.miss (by omega) hs hs hbound _) rfl

theorem superviseLink_carries (short : ∀ x : Body, x.isShort → ok x) (hs : SlotsMeet ok s) :
    Carries ok s (superviseLink l s) := by
  by_cases hl : (s.link l).config.lapse ≤ (s.link l).missed + 1
  · rw [superviseLink_lapses hl]
    have missed : Carries ok s (s.setLink l { s.link l with missed := (s.link l).missed + 1 }) :=
      rewritten_carries hs rfl
    refine (missed.trans fun h => ?_).trans ((presentUncovered_reported _).carries short)
    refine ⟨⟨_, lapse_emits short l _⟩, SlotsMeet.congr ?_ (lapse_links l _)⟩
    exact h.setLink (h l)
  · by_cases hlate : (s.link l).state = .live ∧ (s.link l).config.late ≤ (s.link l).missed + 1
    · rw [superviseLink_late (by omega) hlate]
      have late : Carries ok s (s.setLink l ((s.link l).late ((s.link l).missed + 1))) := rewritten_carries hs rfl
      exact ((late.trans fun h => (sendAdvisory_emits short ..).carries h ((sendAdvisory_agrees ..).same .links
        (by decide))).trans ((raise_reported _ _ rfl).carries short)).trans
          ((presentUncovered_reported _).carries short)
    · rw [superviseLink_misses (by omega) hlate]
      exact rewritten_carries hs rfl

/-- The record of a link whose hold timer has expired (R93). -/
def Link.holdExpired (x : Link) (h : Handover) : Link :=
  { x with context := none, reverted := some h.new
           counts := { x.counts with reverted := countUp x.counts.reverted 1 } }

theorem Link.lawful.holdExpired {x : Link} (h : x.lawful) (c : Handover) : (x.holdExpired c).lawful := h.revert _ _

end Supervision

/-! ### Announcements (R96, R97) -/

section Announcements
variable {ok : Body → Prop} {l : LinkNo} {p : Port} {s : State}

/-- What an announcement leads to at a link: nothing, a record written, or a record written and the cell check. -/
theorem linkDownAt_cases (l : LinkNo) (p : Port) (s : State) :
    linkDownAt l p s = s ∨ (s.link l).state ≠ .unbound ∧
      ((∃ h, (s.link l).context = some h ∧ linkDownAt l p s = s.setLink l ((s.link l).complete h)) ∨
        linkDownAt l p s = cellCheck l (s.setLink l (s.link l).abandon) ∨ linkDownAt l p s = cellCheck l s) := by
  unfold linkDownAt
  dsimp only
  split
  · exact .inl rfl
  · rename_i hbound
    split
    · rename_i h hctx
      split
      · exact .inr ⟨hbound, .inl ⟨h, hctx, rfl⟩⟩
      · split
        · exact .inr ⟨hbound, .inr (.inl rfl)⟩
        · exact .inl rfl
    · split
      · exact .inr ⟨hbound, .inr (.inr rfl)⟩
      · exact .inl rfl

theorem linkDownAt_eventAt (h : (s.link l).lawful) : EventAt l s (linkDownAt l p s) := by
  obtain e | ⟨hbound, ⟨c, -, e⟩ | e | e⟩ := linkDownAt_cases l p s
  · rw [e]; exact .refl h
  · rw [e]; exact .write (h.complete c) rfl
  · rw [e]
    refine EventAt.after_write (x := (s.link l).abandon) rfl (cellCheck_eventAt ?_ ?_)
    · rwa [State.link_setLink_self]
    · rw [State.link_setLink_self]
      exact h.abandon
  · rw [e]; exact cellCheck_eventAt hbound h

theorem linkDownAt_carries (hs : SlotsMeet ok s) : Carries ok s (linkDownAt l p s) := by
  obtain e | ⟨hbound, ⟨c, -, e⟩ | e | e⟩ := linkDownAt_cases l p s
  · rw [e]; exact .refl hs
  · rw [e]
    exact rewritten_carries hs rfl
  · rw [e]
    exact checked_carries hs hbound rfl
  · rw [e]; exact cellCheck_carries hbound hs

theorem linkUpAt_cases (l : LinkNo) (p : Port) (s : State) :
    linkUpAt l p s = s ∨ (s.link l).state ≠ .unbound ∧ linkUpAt l p s = cellCheck l s := by
  unfold linkUpAt
  split
  · exact .inl rfl
  · rename_i h
    exact .inr ⟨fun e => h (.inl e), rfl⟩

theorem linkUpAt_eventAt (h : (s.link l).lawful) : EventAt l s (linkUpAt l p s) := by
  obtain e | ⟨hbound, e⟩ := linkUpAt_cases l p s
  · rw [e]; exact .refl h
  · rw [e]; exact cellCheck_eventAt hbound h

theorem linkUpAt_carries (hs : SlotsMeet ok s) : Carries ok s (linkUpAt l p s) := by
  obtain e | ⟨hbound, e⟩ := linkUpAt_cases l p s
  · rw [e]; exact .refl hs
  · rw [e]; exact cellCheck_carries hbound hs

end Announcements

/-! ### The binding commands (R63 to R66) -/

section Binding
variable {ok : Body → Prop} {l : LinkNo} {s : State}

/-- A configuration in its ranges (R61, R63). -/
def LinkConfig.inRange (c : LinkConfig) : Prop :=
  1 ≤ c.period ∧ c.period ≤ 250 ∧ 1 ≤ c.late ∧ c.late ≤ 8 ∧ c.late < c.lapse ∧ c.lapse ≤ 16 ∧ 1 ≤ c.hold ∧
    c.hold ≤ 32

/-- SET-CRANE stores a configuration in its ranges (R63 step 4). -/
theorem craneConfig_inRange (sid : Sid) (peer : Option Sid) (home : QPort) {period : Nat} (late lapse hold : Nat)
    (h : period ≠ 0) : (craneConfig sid peer home period late lapse hold).inRange := by
  simp only [LinkConfig.inRange, craneConfig, clampTo]
  omega

theorem Link.bound_lawful {c : LinkConfig} (hc : c.inRange) : (Link.bound c).lawful :=
  ⟨fun _ => hc, rfl, fun hs => (nomatch hs), ⟨by simp [Link.bound], fun hs => (nomatch hs)⟩, fun _ h => (nomatch h)⟩

theorem Link.lawful.reconfigure {x : Link} (h : x.lawful) {c : LinkConfig} (hc : c.inRange) :
    { x with config := c }.lawful := ⟨fun _ => hc, h.timer, h.cycle, h.missed, h.context⟩

theorem Link.unbound_lawful (x : Link) : x.unbound.lawful :=
  ⟨fun h => absurd rfl h, rfl, fun hs => (nomatch hs), ⟨by simp [Link.unbound, Link.hard], fun hs => (nomatch hs)⟩,
    fun _ h => (nomatch h)⟩

/-- The state of a binding before CRANE-UNCOVERED is presented. -/
theorem bindLink_eq (l : LinkNo) (c : LinkConfig) (r b o : Nat) (s : State) :
    ∃ x, bindLink l c r b o s = presentUncovered ((s.setLink l (Link.bound c)).setBucket (linkBucket l) x) :=
  ⟨_, rfl⟩

theorem bindLink_eventAt {c : LinkConfig} (r b o : Nat) (hc : c.inRange) (h : (s.link l).state = .unbound) :
    EventAt l s (bindLink l c r b o s) := by
  obtain ⟨x, e⟩ := bindLink_eq l c r b o s
  rw [e]
  refine EventAt.report ?_ (presentUncovered_reportsOnly _)
  refine EventAt.of_written rfl (Link.bound_lawful hc) ?_
  have before : (s.link l).span = none := by rw [Link.span, h]; rfl
  rw [before]
  exact (List.append_nil _).symm

theorem bindLink_carries (short : ∀ x : Body, x.isShort → ok x) (c : LinkConfig) (r b o : Nat)
    (hs : SlotsMeet ok s) : Carries ok s (bindLink l c r b o s) := by
  obtain ⟨x, e⟩ := bindLink_eq l c r b o s
  rw [e]
  have bound : Carries ok s (s.setLink l (Link.bound c)) := setLink_carries hs fun _ hb => (nomatch hb)
  exact (bound.trans fun h => ((setBucket_agrees ..).emits (by decide)).carries h rfl).trans
    ((presentUncovered_reported _).carries short)

theorem updateLink_eventAt {c : LinkConfig} (r b o : Nat) (hc : c.inRange) (h : (s.link l).lawful) :
    EventAt l s (updateLink l c r b o s) := by
  have updated (x : Bucket) :
      EventAt l s ((s.setLink l { s.link l with config := c }).setBucket (linkBucket l) x) := by
    refine .of_written rfl (h.reconfigure hc) ?_
    show s.flight.spans = s.flight.spans ++ spanMoved (s.link l).span (s.link l).span
    rw [spanMoved_self, List.append_nil]
  unfold updateLink
  dsimp only
  split
  · exact updated _
  · exact (updated _).report (presentUncovered_reportsOnly _)

theorem updateLink_carries (short : ∀ x : Body, x.isShort → ok x) (c : LinkConfig) (r b o : Nat)
    (hs : SlotsMeet ok s) : Carries ok s (updateLink l c r b o s) := by
  have updated (x : Bucket) :
      Carries ok s ((s.setLink l { s.link l with config := c }).setBucket (linkBucket l) x) := by
    have written : Carries ok s (s.setLink l { s.link l with config := c }) := rewritten_carries hs rfl
    exact written.trans fun h => ((setBucket_agrees ..).emits (by decide)).carries h rfl
  unfold updateLink
  dsimp only
  split
  · exact updated _
  · exact (updated _).trans ((presentUncovered_reported _).carries short)

/-- Unbinding a link removes its span, where one is counted (R66). -/
theorem unbindLink_emits (short : ∀ x : Body, x.isShort → ok x) (l : LinkNo) (s : State) :
    Emits ok (spanMoved (s.link l).span none) s (unbindLink l s) := by
  have removed : Emits ok (spanMoved (s.link l).span none) s
      (if (s.link l).state.spans then sendSpanFor .remove (s.link l).segment s else s) := by
    unfold Link.span
    split
    · rw [spanMoved_to_none]
      exact sendSpanFor_emits ..
    · exact .refl s
  have e := ((removed.trans ((unbindStation_agrees (s.link l).config.sid _).emits (by decide))).trans
    ((setLink_agrees l (s.link l).unbound _).emits (by decide))).trans ((presentUncovered_reported _).emits short)
  rw [List.append_nil, List.append_nil, List.append_nil] at e
  exact e

theorem unbindLink_links (l : LinkNo) (s : State) : (unbindLink l s).links = (s.setLink l (s.link l).unbound).links := by
  have removed : (if (s.link l).state.spans then sendSpanFor .remove (s.link l).segment s else s).links = s.links := by
    split
    · exact (sendSpanFor_agrees ..).same .links (by decide)
    · rfl
  refine ((presentUncovered_agrees _).same .links (by decide)).trans ?_
  rw [State.setLink_links, State.setLink_links, (unbindStation_agrees ..).same .links (by decide), removed]

theorem unbindLink_eventAt (l : LinkNo) (s : State) : EventAt l s (unbindLink l s) :=
  .of_written (unbindLink_links l s) (Link.unbound_lawful _)
    (unbindLink_emits (ok := fun _ => True) (fun _ _ => trivial) l s).spans

theorem unbindLink_carries (short : ∀ x : Body, x.isShort → ok x) (hs : SlotsMeet ok s) :
    Carries ok s (unbindLink l s) :=
  have cleared : SlotsMeet ok (s.setLink l (s.link l).unbound) := hs.setLink fun _ hb => (nomatch hb)
  ⟨⟨_, unbindLink_emits short l s⟩, cleared.congr (unbindLink_links l s)⟩

end Binding

end Sys2Proof.Machine
end

section
/-! The Reefer Consolidator (chapters 6 and 7): every operation keeps the laws of the reefer table and of the batch
buffers, keeps the buffers within their size, and hands on batch frames of what a buffer held (R103 to R136). -/

namespace Sys2Proof.Machine

/-- The laws of the reefer table and of the batch buffers, of a consolidator (R103, R104, R111, R128, R130). -/
structure Rcn.lawful (r : Rcn) : Prop where
  places  : Table.wf Config.reeferPlaces r.reefers
  unique  : (r.reefers.map (fun e => e.2.sid)).Nodup
  records : ∀ e ∈ r.reefers, e.2.lawful
  filling : r.bufferA.state = .filling ↔ r.bufferB.state ≠ .filling
  bounded : r.bufferA.entries.length ≤ 48 ∧ r.bufferB.entries.length ≤ 48
  entries : (r.bufferA.entries.map (·.sid)).Nodup ∧ (r.bufferB.entries.map (·.sid)).Nodup
  placed  : ∀ e ∈ r.reefers, ∀ i, e.2.place = .inFilling i ↔ (r.filling.entries.map (·.sid))[i]? = some e.2.sid

theorem rcn_lawful_iff (s : State) : s.rcn.lawful ↔ ReeferLaw s ∧ BatchLaw s :=
  ⟨fun h => ⟨⟨h.places, h.unique, h.records⟩, ⟨h.filling, h.bounded, h.entries, h.placed⟩⟩,
    fun ⟨h, g⟩ => ⟨h.places, h.unique, h.records, g.filling, g.bounded, g.unique, g.placed⟩⟩

/-- No buffer holds more than `n` entries. -/
def Rcn.within (n : Nat) (r : Rcn) : Prop := r.bufferA.entries.length ≤ n ∧ r.bufferB.entries.length ≤ n

/-- A consolidator after an operation: lawful if it was before, and its buffers no larger than 48 entries or than they
were. -/
structure Rcn.Keeps (r r' : Rcn) : Prop where
  lawful : r.lawful → r'.lawful
  within : ∀ n, 48 ≤ n → r.within n → r'.within n

theorem Rcn.Keeps.refl (r : Rcn) : r.Keeps r := ⟨id, fun _ _ => id⟩

theorem Rcn.Keeps.trans {a b c : Rcn} (h : a.Keeps b) (g : b.Keeps c) : a.Keeps c :=
  ⟨g.lawful ∘ h.lawful, fun n hn => g.within n hn ∘ h.within n hn⟩

/-- The laws read the reefer table and the two buffers alone. -/
theorem Rcn.Keeps.of_same {a b : Rcn} (hreefers : b.reefers = a.reefers) (hA : b.bufferA = a.bufferA)
    (hB : b.bufferB = a.bufferB) : a.Keeps b := by
  have hfilling : b.filling = a.filling := by unfold Rcn.filling; rw [hA, hB]
  refine ⟨fun h => ⟨?_, ?_, ?_, ?_, ?_, ?_, ?_⟩, fun n _ h => ?_⟩
  · rw [hreefers]; exact h.places
  · rw [hreefers]; exact h.unique
  · rw [hreefers]; exact h.records
  · rw [hA, hB]; exact h.filling
  · rw [hA, hB]; exact h.bounded
  · rw [hA, hB]; exact h.entries
  · rw [hreefers, hfilling]; exact h.placed
  · unfold Rcn.within; rw [hA, hB]; exact h

/-! ### The table of records -/

/-- Records that are changed in place, each keeping its SID and its batch place's index or the lack of one. -/
theorem Rcn.Keeps.of_mapValues {a : Rcn} {f : Reefer → Reefer} (hsid : ∀ r, (f r).sid = r.sid)
    (hlaw : ∀ r, r.lawful → (f r).lawful) (hplace : ∀ r i, (f r).place = .inFilling i ↔ r.place = .inFilling i) :
    a.Keeps { a with reefers := Table.mapValues a.reefers f } := by
  refine ⟨fun h => ⟨Table.wf_mapValues f h.places, ?_, ?_, h.filling, h.bounded, h.entries, ?_⟩, fun _ _ => id⟩
  · have same : (Table.mapValues a.reefers f).map (fun e => e.2.sid) = a.reefers.map (fun e => e.2.sid) := by
      simp [Table.mapValues, List.map_map, Function.comp_def, hsid]
    rw [same]
    exact h.unique
  · intro e he
    obtain ⟨e', he', rfl⟩ := List.mem_map.1 he
    exact hlaw _ (h.records e' he')
  · intro e he i
    obtain ⟨e', he', rfl⟩ := List.mem_map.1 he
    dsimp only
    rw [hplace, hsid]
    exact h.placed e' he' i

/-- The values of a table after a write at an occupied place, under a function that the write does not change. -/
theorem Table.map_put_of_get {α β : Type} {t : Table α} {k : Nat} {v w : α} (f : α → β)
    (hsorted : t.Pairwise (fun a b => a.1 < b.1)) (h : Table.get t k = some v) (hf : f w = f v) :
    (Table.put t k w).map (fun e => f e.2) = t.map (fun e => f e.2) := by
  induction t with
  | nil => cases h
  | cons e t ih =>
    obtain ⟨j, x⟩ := e
    obtain ⟨hlt, hrest⟩ := List.pairwise_cons.1 hsorted
    by_cases hjk : j = k
    · subst hjk
      have hx : x = v := by simpa [Table.get] using h
      simp [Table.put, hx, hf]
    · have hget : Table.get t k = some v := by simpa [Table.get, hjk] using h
      have hkj : ¬k < j := by
        have := hlt _ ((Table.get_eq_some t k v hrest).1 hget)
        dsimp only at this
        omega
      rw [Table.put, if_neg hkj, if_neg (Ne.symm hjk), List.map_cons, List.map_cons, ih hrest hget]

/-- The values of a table after a write at a free place are those before and the new one. -/
theorem Table.map_put_of_free {α β : Type} {t : Table α} {k : Nat} (w : α) (f : α → β) (h : Table.get t k = none) :
    ((Table.put t k w).map (fun e => f e.2)).Perm (f w :: t.map (fun e => f e.2)) := by
  induction t with
  | nil => exact .refl _
  | cons e t ih =>
    obtain ⟨j, x⟩ := e
    by_cases hjk : j = k
    · simp [Table.get, hjk] at h
    · have hget : Table.get t k = none := by simpa [Table.get, hjk] using h
      rw [Table.put]
      split
      · exact .refl _
      · rw [if_neg (Ne.symm hjk), List.map_cons, List.map_cons]
        exact ((ih hget).cons _).trans (.swap ..)

/-- A record of a lawful table is written again at its place with its SID, its index or lack of one. -/
theorem Rcn.Keeps.of_put {a : Rcn} {k : Nat} {v w : Reefer} (hget : a.lawful → Table.get a.reefers k = some v)
    (hsid : w.sid = v.sid) (hlaw : v.lawful → w.lawful)
    (hplace : ∀ i, w.place = .inFilling i ↔ v.place = .inFilling i) :
    a.Keeps { a with reefers := Table.put a.reefers k w } := by
  refine ⟨fun h => ?_, fun _ _ => id⟩
  have hget := hget h
  have hmem := (Table.get_eq_some a.reefers k v h.places.1).1 hget
  refine ⟨Table.wf_put w h.places (h.places.2 _ hmem), ?_, ?_, h.filling, h.bounded, h.entries, ?_⟩
  · rw [Table.map_put_of_get _ h.places.1 hget hsid]
    exact h.unique
  · intro e he
    obtain rfl | he := Table.mem_put _ _ _ _ he
    · exact hlaw (h.records _ hmem)
    · exact h.records e he
  · intro e he i
    obtain rfl | he := Table.mem_put _ _ _ _ he
    · dsimp only
      rw [hplace, hsid]
      exact h.placed _ hmem i
    · exact h.placed e he i

/-- A record is removed (R120, R126). -/
theorem Rcn.Keeps.of_erase (a : Rcn) (k : Nat) : a.Keeps { a with reefers := Table.erase a.reefers k } :=
  ⟨fun h => ⟨Table.wf_erase k h.places, h.unique.sublist (List.filter_sublist.map _),
    fun e he => h.records e (List.mem_of_mem_filter he), h.filling, h.bounded, h.entries,
    fun e he => h.placed e (List.mem_of_mem_filter he)⟩, fun _ _ => id⟩

/-! ### The buffers -/

theorem Rcn.setFilling_filling (r : Rcn) (entries : List BatchEntry) :
    (r.setFilling { r.filling with entries := entries }).filling = { r.filling with entries := entries } := by
  unfold Rcn.setFilling Rcn.filling
  split <;> rename_i h <;> simp [h]

/-- The entries of the FILLING buffer are replaced. -/
theorem Rcn.lawful.setFilling {r : Rcn} (h : r.lawful) {entries : List BatchEntry} (hlen : entries.length ≤ 48)
    (hnodup : (entries.map (·.sid)).Nodup)
    (hplaced : ∀ e ∈ r.reefers, ∀ i, e.2.place = .inFilling i ↔ (entries.map (·.sid))[i]? = some e.2.sid) :
    (r.setFilling { r.filling with entries := entries }).lawful := by
  have hfilling := Rcn.setFilling_filling r entries
  by_cases hA : r.bufferA.state = .filling
  · have e : r.setFilling { r.filling with entries := entries } =
        { r with bufferA := { r.bufferA with entries := entries } } := by
      unfold Rcn.setFilling Rcn.filling
      rw [if_pos hA, if_pos hA]
    rw [e] at hfilling ⊢
    exact ⟨h.places, h.unique, h.records, h.filling, ⟨hlen, h.bounded.2⟩, ⟨hnodup, h.entries.2⟩,
      by rw [hfilling]; exact hplaced⟩
  · have e : r.setFilling { r.filling with entries := entries } =
        { r with bufferB := { r.bufferB with entries := entries } } := by
      unfold Rcn.setFilling Rcn.filling
      rw [if_neg hA, if_neg hA]
    rw [e] at hfilling ⊢
    exact ⟨h.places, h.unique, h.records, h.filling, ⟨h.bounded.1, hlen⟩, ⟨h.entries.1, hnodup⟩,
      by rw [hfilling]; exact hplaced⟩

theorem Rcn.within.setFilling {n : Nat} {r : Rcn} (h : r.within n) {b : Buffer} (hb : b.entries.length ≤ n) :
    (r.setFilling b).within n := by
  unfold Rcn.setFilling
  split
  · exact ⟨hb, h.2⟩
  · exact ⟨h.1, hb⟩

theorem Rcn.within.filling {n : Nat} {r : Rcn} (h : r.within n) : r.filling.entries.length ≤ n := by
  unfold Rcn.filling
  split
  · exact h.1
  · exact h.2

/-- The entries of the FILLING buffer are replaced by ones with the same SIDs. -/
theorem Rcn.Keeps.of_sameSids (r : Rcn) {entries : List BatchEntry}
    (hsids : r.lawful → entries.map (·.sid) = r.filling.entries.map (·.sid))
    (hlen : entries.length = r.filling.entries.length) :
    r.Keeps (r.setFilling { r.filling with entries := entries }) := by
  refine ⟨fun h => h.setFilling ?_ ?_ ?_, fun n _ h => h.setFilling (by rw [hlen]; exact h.filling)⟩
  · rw [hlen]
    exact Rcn.within.filling h.bounded
  · rw [hsids h]
    unfold Rcn.filling
    split
    · exact h.entries.1
    · exact h.entries.2
  · rw [hsids h]
    exact h.placed

theorem Rcn.swapped_keeps (r : Rcn) : r.Keeps r.swapped := by
  have left (x : Reefer) (i : Nat) : (leaveFilling x).place ≠ .inFilling i := by
    unfold leaveFilling
    cases h : x.place <;> simp [h]
  have sid (x : Reefer) : (leaveFilling x).sid = x.sid := by unfold leaveFilling; split <;> rfl
  have law (x : Reefer) (h : x.lawful) : (leaveFilling x).lawful := by
    unfold leaveFilling
    split
    · exact ⟨h.missed, h.heard, h.alarms, h.segment, h.lane⟩
    · exact h
    · exact h
  refine ⟨fun h => ⟨Table.wf_mapValues _ h.places, ?_, ?_, ?_, ?_, ?_, ?_⟩, fun n hn h => ?_⟩
  · have same : r.swapped.reefers.map (fun e => e.2.sid) = r.reefers.map (fun e => e.2.sid) := by
      simp [Rcn.swapped, Table.mapValues, List.map_map, Function.comp_def, sid]
    rw [same]
    exact h.unique
  · intro e he
    obtain ⟨e', he', rfl⟩ := List.mem_map.1 he
    exact law _ (h.records e' he')
  · unfold Rcn.swapped
    by_cases hA : r.bufferA.state = .filling <;> simp [hA]
  · unfold Rcn.swapped
    by_cases hA : r.bufferA.state = .filling <;> simp [hA, h.bounded]
  · unfold Rcn.swapped
    by_cases hA : r.bufferA.state = .filling <;> simp [hA, h.entries]
  · intro e he i
    obtain ⟨e', he', rfl⟩ := List.mem_map.1 he
    rw [Rcn.swapped_filling]
    simp [left]
  · unfold Rcn.swapped Rcn.within
    by_cases hA : r.bufferA.state = .filling <;> simp [hA, h.1, h.2]

/-- The SENDING buffer becomes IDLE (R135, R136). -/
theorem Rcn.idleSending_keeps (r : Rcn) : r.Keeps r.idleSending := by
  unfold Rcn.idleSending
  split
  · rename_i hA
    have hB : r.filling = r.bufferB := if_neg (by rw [hA]; decide)
    refine ⟨fun h => ⟨h.places, h.unique, h.records, ?_, ⟨by simp, h.bounded.2⟩, ⟨by simp, h.entries.2⟩, ?_⟩,
      fun n _ h => ⟨by simp, h.2⟩⟩
    · have := h.filling
      simp_all
    · have hf : ({ r with bufferA := ⟨.idle, []⟩ } : Rcn).filling = r.filling := by
        rw [hB]
        exact if_neg (fun h => (nomatch h))
      rw [hf]
      exact h.placed
  · split
    · rename_i hA hB
      refine ⟨fun h => ?_, fun n _ h => ⟨h.1, by simp⟩⟩
      have hfillA : r.bufferA.state = .filling := h.filling.2 (by rw [hB]; decide)
      refine ⟨h.places, h.unique, h.records, ?_, ⟨h.bounded.1, by simp⟩, ⟨h.entries.1, by simp⟩, ?_⟩
      · simp [hfillA]
      · have hf : ({ r with bufferB := ⟨.idle, []⟩ } : Rcn).filling = r.filling := by
          unfold Rcn.filling
          rw [if_pos hfillA, if_pos hfillA]
        rw [hf]
        exact h.placed
    · exact .refl r

theorem Rcn.idleSending_reefers (r : Rcn) : r.idleSending.reefers = r.reefers := by
  unfold Rcn.idleSending
  split
  · rfl
  · split <;> rfl

/-- The consolidator after a SENDING buffer has been ended as discarded (R136 steps 1 to 3). -/
def Rcn.discarded (r : Rcn) : Rcn :=
  { r.idleSending with
    reefers := Table.mapValues r.reefers (markUnsent r.sendingEntries)
    stats := { r.stats with batchesDiscarded := countUp r.stats.batchesDiscarded 1 } }

theorem discardSending_eq (s : State) : discardSending s = s.setRcn s.rcn.discarded := rfl

theorem Rcn.discarded_keeps (r : Rcn) : r.Keeps r.discarded := by
  have marked (f : List BatchEntry) : r.idleSending.Keeps
      { r.idleSending with reefers := Table.mapValues r.idleSending.reefers (markUnsent f) } := by
    refine .of_mapValues (fun x => ?_) (fun x h => ?_) (fun x i => ?_)
    · unfold markUnsent; split <;> rfl
    · unfold markUnsent
      split
      · exact ⟨h.missed, h.heard, h.alarms, h.segment, h.lane⟩
      · exact h
    · unfold markUnsent
      split
      · rename_i hx
        simp [hx.1]
      · rfl
  exact ((idleSending_keeps r).trans (marked r.sendingEntries)).trans
    (.of_same (by rw [Rcn.idleSending_reefers]; rfl) rfl rfl)

theorem Rcn.transmitted_keeps (r : Rcn) (x : RcnStats) : r.Keeps { r.idleSending with stats := x } :=
  (idleSending_keeps r).trans (.of_same rfl rfl rfl)

/-! ### The append (R130) -/

/-- The consolidator after a record's entry is added at the end of the FILLING buffer (R130 case 2). -/
def Rcn.appended (r : Rcn) (k : Nat) (x : Reefer) (e : BatchEntry) : Rcn :=
  let r' := r.setFilling { r.filling with entries := r.filling.entries ++ [e] }
  { r' with reefers := Table.put r'.reefers k { x with place := .inFilling r.filling.entries.length } }

theorem Rcn.setFilling_reefers (r : Rcn) (b : Buffer) : (r.setFilling b).reefers = r.reefers := by
  unfold Rcn.setFilling
  split <;> rfl

/-- Two records of a lawful table with one SID are one. -/
theorem Rcn.lawful.eq_of_sid {r : Rcn} (h : r.lawful) {a b : Nat × Reefer} (ha : a ∈ r.reefers) (hb : b ∈ r.reefers)
    (hsid : a.2.sid = b.2.sid) : a = b :=
  List.inj_on_of_nodup_map h.unique ha hb hsid

theorem Rcn.lawful.fillingNodup {r : Rcn} (h : r.lawful) : (r.filling.entries.map (·.sid)).Nodup := by
  unfold Rcn.filling
  split
  · exact h.entries.1
  · exact h.entries.2

/-- A table after a write holds the record written, and those at other places. -/
theorem Table.mem_put_iff {α : Type} {t : Table α} {k : Nat} {v : α} {e : Nat × α}
    (h : t.Pairwise (fun a b => a.1 < b.1)) : e ∈ Table.put t k v ↔ e = (k, v) ∨ (e.1 ≠ k ∧ e ∈ t) := by
  obtain ⟨j, w⟩ := e
  rw [← Table.get_eq_some _ _ _ (Table.put_sorted t k v h), Table.get_put _ _ _ _ h, ← Table.get_eq_some _ _ _ h]
  by_cases hj : j = k
  · simp [hj, eq_comm]
  · simp [hj]

theorem getElem?_concat_of_ne {α : Type} {l : List α} {a b : α} {i : Nat} (h : a ≠ b) :
    (l ++ [b])[i]? = some a ↔ l[i]? = some a := by
  rw [List.getElem?_append]
  split
  · rfl
  · rw [List.getElem?_eq_none (l := l) (by omega)]
    simp only [reduceCtorEq, iff_false]
    exact fun hc => h (List.mem_singleton.1 (List.mem_of_getElem? hc))

theorem getElem?_concat_of_notMem {α : Type} {l : List α} {b : α} {i : Nat} (h : b ∉ l) :
    (l ++ [b])[i]? = some b ↔ i = l.length := by
  constructor
  · intro hi
    rw [List.getElem?_append] at hi
    split at hi
    · exact absurd (List.mem_of_getElem? hi) h
    · obtain ⟨hlt, -⟩ := List.getElem?_eq_some_iff.1 hi
      simp at hlt
      omega
  · rintro rfl
    simp

theorem Rcn.appended_filling (r : Rcn) (k : Nat) (x : Reefer) (e : BatchEntry) :
    (r.appended k x e).filling.entries = r.filling.entries ++ [e] :=
  congrArg Buffer.entries (Rcn.setFilling_filling r (r.filling.entries ++ [e]))

theorem Rcn.appended_reefers (r : Rcn) (k : Nat) (x : Reefer) (e : BatchEntry) : (r.appended k x e).reefers =
    Table.put r.reefers k { x with place := .inFilling r.filling.entries.length } :=
  congrArg (fun t => Table.put t k _) (Rcn.setFilling_reefers r _)

/-- An append keeps the laws of the batch buffers: the record stands at the index of its new entry (R130). -/
theorem Rcn.lawful.appended {r : Rcn} (h : r.lawful) {k : Nat} {x : Reefer} {e : BatchEntry}
    (hget : Table.get r.reefers k = some x) (he : e.sid = x.sid) (hplace : ∀ i, x.place ≠ .inFilling i)
    (hroom : r.filling.entries.length < 48) : (r.appended k x e).lawful := by
  have hmem := (Table.get_eq_some r.reefers k x h.places.1).1 hget
  have hfresh : x.sid ∉ r.filling.entries.map (·.sid) := fun hin =>
    have ⟨i, hi⟩ := List.mem_iff_getElem?.1 hin
    hplace i ((h.placed _ hmem i).2 hi)
  have hsids : (r.filling.entries ++ [e]).map (·.sid) = r.filling.entries.map (·.sid) ++ [x.sid] := by simp [he]
  have hnodup : ((r.filling.entries ++ [e]).map (·.sid)).Nodup := by
    rw [hsids, ← List.concat_eq_append]
    exact h.fillingNodup.concat hfresh
  have hbounded : (r.appended k x e).within 48 := Rcn.within.setFilling (r := r) h.bounded (by simpa using hroom)
  refine ⟨?places, ?unique, ?records, ?filling, hbounded, ?entries, ?placed⟩
  case places =>
    rw [Rcn.appended_reefers]
    exact Table.wf_put _ h.places (h.places.2 _ hmem)
  case unique =>
    rw [Rcn.appended_reefers, Table.map_put_of_get (v := x) (fun y : Reefer => y.sid) h.places.1 hget ?_]
    · exact h.unique
    · rfl
  case records =>
    intro y hy
    rw [Rcn.appended_reefers] at hy
    obtain rfl | hy := Table.mem_put _ _ _ _ hy
    · obtain ⟨hm, hh, ha, hs, hl⟩ := h.records _ hmem
      exact ⟨hm, hh, ha, hs, hl⟩
    · exact h.records y hy
  case filling =>
    show (r.setFilling _).bufferA.state = _ ↔ (r.setFilling _).bufferB.state ≠ _
    unfold Rcn.setFilling Rcn.filling
    split <;> exact h.filling
  case entries =>
    show ((r.setFilling _).bufferA.entries.map _).Nodup ∧ ((r.setFilling _).bufferB.entries.map _).Nodup
    unfold Rcn.setFilling
    split
    · exact ⟨hnodup, h.entries.2⟩
    · exact ⟨h.entries.1, hnodup⟩
  case placed =>
    intro y hy i
    rw [Rcn.appended_reefers] at hy
    rw [Rcn.appended_filling, hsids]
    obtain rfl | ⟨hk, hy⟩ := (Table.mem_put_iff h.places.1).1 hy
    · rw [getElem?_concat_of_notMem hfresh, List.length_map]
      simp [eq_comm]
    · have hne : y.2.sid ≠ x.sid := fun hc => hk (by rw [h.eq_of_sid hy hmem hc])
      rw [getElem?_concat_of_ne hne]
      exact h.placed y hy i

theorem Rcn.appended_keeps {r : Rcn} {k : Nat} {x : Reefer} {e : BatchEntry}
    (hget : Table.get r.reefers k = some x) (he : e.sid = x.sid) (hplace : ∀ i, x.place ≠ .inFilling i)
    (hroom : r.filling.entries.length < 48) : r.Keeps (r.appended k x e) :=
  ⟨fun h => h.appended hget he hplace hroom, fun n hn h => Rcn.within.setFilling h (by
    rw [List.length_append, List.length_singleton]; omega)⟩

/-- A new record takes the lowest free place; its batch place is the index of an entry with its SID (R112). -/
theorem Rcn.Keeps.of_insert {r : Rcn} {k : Nat} {x : Reefer} (hfree : Table.get r.reefers k = none)
    (hk : k < Config.reeferPlaces) (hnew : ∀ e ∈ r.reefers, e.2.sid ≠ x.sid) (hlaw : x.lawful)
    (hplace : r.lawful → ∀ i, x.place = .inFilling i ↔ (r.filling.entries.map (·.sid))[i]? = some x.sid) :
    r.Keeps { r with reefers := Table.put r.reefers k x } := by
  refine ⟨fun h => ⟨Table.wf_put x h.places hk, ?_, ?_, h.filling, h.bounded, h.entries, ?_⟩, fun _ _ => id⟩
  · rw [(Table.map_put_of_free x (fun y : Reefer => y.sid) hfree).nodup_iff, List.nodup_cons]
    refine ⟨fun hin => ?_, h.unique⟩
    obtain ⟨e, he, hsid⟩ := List.mem_map.1 hin
    exact hnew e he hsid
  · intro e he
    obtain rfl | he := Table.mem_put _ _ _ _ he
    · exact hlaw
    · exact h.records e he
  · intro e he i
    obtain rfl | he := Table.mem_put _ _ _ _ he
    · exact hplace h i
    · exact h.placed e he i

end Sys2Proof.Machine
end

section
/-! The work of the Reefer Consolidator at the part: each operation keeps the laws of the consolidator and hands on its
frames (chapters 6 and 7). -/

namespace Sys2Proof.Machine

/-- The batch frames of up to `n` entries meet a predicate (R134). -/
def BatchMeets (ok : Body → Prop) (n : Nat) : Prop :=
  ∀ (sid : Sid) (entries : List BatchEntry), entries.length ≤ n →
    ok (.batch (originatedBytes .reeferBatch false sid 0 (batchPayload entries)))

/-- An operation keeps the laws of the consolidator, and hands on frames that meet a predicate that batch frames meet. -/
structure Consolidates (ok : Body → Prop) (s t : State) : Prop where
  keeps : s.rcn.Keeps t.rcn
  emits : ∀ n, 48 ≤ n → BatchMeets ok n → s.rcn.within n → Emits ok [] s t

section
variable {ok : Body → Prop} {s t u : State}

theorem Consolidates.trans (h : Consolidates ok s t) (g : Consolidates ok t u) : Consolidates ok s u :=
  ⟨h.keeps.trans g.keeps, fun n hn hb hw => (h.emits n hn hb hw).andThen (g.emits n hn hb (h.keeps.within n hn hw))⟩

theorem Consolidates.of_emits (hrcn : t.rcn = s.rcn) (h : Emits ok [] s t) : Consolidates ok s t :=
  ⟨hrcn ▸ .refl _, fun _ _ _ _ => h⟩

theorem Consolidates.refl (s : State) : Consolidates ok s s := .of_emits rfl (.refl s)

theorem Reported.consolidates (h : Reported s t) (short : ∀ x : Body, x.isShort → ok x) : Consolidates ok s t :=
  .of_emits (h.frame.agrees.same .rcn (by decide)) (h.emits short)

/-- The consolidator is replaced by one that keeps its laws. -/
theorem setRcn_consolidates {r : Rcn} (h : s.rcn.Keeps r) : Consolidates ok s (s.setRcn r) :=
  ⟨h, fun _ _ _ _ => (setRcn_agrees r s).emits (by decide)⟩

/-- Settings, statistics, timers and the sweep are replaced. -/
theorem setRcn_consolidates_of_same {r : Rcn} (hreefers : r.reefers = s.rcn.reefers) (hA : r.bufferA = s.rcn.bufferA)
    (hB : r.bufferB = s.rcn.bufferB) : Consolidates ok s (s.setRcn r) :=
  setRcn_consolidates (.of_same hreefers hA hB)

theorem rcnStats_consolidates (f : RcnStats → RcnStats) (s : State) : Consolidates ok s (s.rcnStats f) :=
  setRcn_consolidates_of_same rfl rfl rfl

theorem rcnStats_reefers (f : RcnStats → RcnStats) (s : State) : (s.rcnStats f).rcn.reefers = s.rcn.reefers := rfl

/-- A record is written again at its place. -/
theorem setReefer_consolidates {k : Nat} {v w : Reefer} (hget : s.rcn.lawful → Table.get s.rcn.reefers k = some v)
    (hsid : w.sid = v.sid) (hlaw : v.lawful → w.lawful) (hplace : w.place = v.place) :
    Consolidates ok s (s.setReefer k w) :=
  setRcn_consolidates (.of_put hget hsid hlaw fun i => by rw [hplace])

end

section Buffers
variable {ok : Body → Prop} (short : ∀ x : Body, x.isShort → ok x)
include short

/-- A swap that is carried out (R132, R134, R136). -/
theorem carryOutSwap_consolidates (s : State) : Consolidates ok s (carryOutSwap s) := by
  have swapped : Consolidates ok s (presentBatchOverflow (s.setRcn s.rcn.swapped)) :=
    (setRcn_consolidates s.rcn.swapped_keeps).trans ((presentBatchOverflow_reported _).consolidates short)
  unfold carryOutSwap
  dsimp only
  split
  · refine ⟨swapped.keeps, fun n hn hb hw => (swapped.emits n hn hb hw).andThen (handOff_emits ?_ _)⟩
    exact hb _ _ hw.filling
  · rw [discardSending_eq]
    refine Consolidates.trans ?_ (setRcn_consolidates (Rcn.discarded_keeps _))
    exact swapped.trans ((portDownDrop_reported ..).consolidates short)

theorem swapDue_consolidates (s : State) : Consolidates ok s (swapDue s) := by
  unfold swapDue
  split
  · exact carryOutSwap_consolidates short s
  · exact setRcn_consolidates_of_same rfl rfl rfl

theorem waitingSwap_consolidates (s : State) : Consolidates ok s (waitingSwap s) := by
  unfold waitingSwap
  split
  · exact carryOutSwap_consolidates short s
  · exact (presentBatchOverflow_reported s).consolidates short

theorem batchTransmitted_consolidates (s : State) : Consolidates ok s (batchTransmitted s) :=
  (setRcn_consolidates (s.rcn.transmitted_keeps _)).trans (waitingSwap_consolidates short _)

theorem batchDiscarded_consolidates (s : State) : Consolidates ok s (batchDiscarded s) := by
  unfold batchDiscarded
  rw [discardSending_eq]
  exact (setRcn_consolidates s.rcn.discarded_keeps).trans (waitingSwap_consolidates short _)

omit short in
/-- An entry is written over the one of an IN-FILLING record (R130 case 1). -/
theorem overwrite_consolidates {k i : Nat} {r : Reefer} {s : State} (hget : Table.get s.rcn.reefers k = some r)
    (hplace : r.place = .inFilling i) (st : EntryState) : Consolidates ok s (s.setRcn (s.rcn.setFilling
      { s.rcn.filling with entries := s.rcn.filling.entries.set i (batchEntry s r st) })) := by
  refine setRcn_consolidates (.of_sameSids _ (fun h => ?_) List.length_set)
  have hmem := (Table.get_eq_some _ k r h.places.1).1 hget
  have own := (h.placed _ hmem i).1 hplace
  refine List.ext_getElem? fun j => ?_
  rw [List.map_set, List.getElem?_set]
  split
  · rename_i hij
    subst hij
    split
    · exact own.symm
    · rename_i hlen
      rw [List.getElem?_eq_none (by omega)]
  · rfl

omit short in
/-- The three cases of the append (R130). -/
theorem batchAppend_overwrites {k i : Nat} {r : Reefer} {s : State} (hget : Table.get s.rcn.reefers k = some r)
    (hplace : r.place = .inFilling i) (st : EntryState) : batchAppend k st s = s.setRcn (s.rcn.setFilling
      { s.rcn.filling with entries := s.rcn.filling.entries.set i (batchEntry s r st) }) := by
  simp only [batchAppend, hget, hplace]

/-- The part after an entry has been added, which starts the batch timer where it is the first (R130 case 2). -/
def entryAdded (k : Nat) (r : Reefer) (st : EntryState) (s : State) : State :=
  s.setRcn { s.rcn.appended k r (batchEntry s r st) with
    batchTimer := if s.rcn.filling.entries.length = 0 then
      some (s.rcn.appended k r (batchEntry s r st)).settings.batchPeriod
      else (s.rcn.appended k r (batchEntry s r st)).batchTimer }

omit short in
theorem batchAppend_adds {k : Nat} {r : Reefer} {s : State} (hget : Table.get s.rcn.reefers k = some r)
    (hplace : ∀ i, r.place ≠ .inFilling i) (hroom : s.rcn.filling.entries.length < 48) (st : EntryState) :
    batchAppend k st s = presentBatchOverflow
      (if s.rcn.filling.entries.length + 1 = 48 then swapDue (entryAdded k r st s) else entryAdded k r st s) := by
  have timed : (if s.rcn.filling.entries.length = 0 then (s.setRcn (s.rcn.appended k r (batchEntry s r st))).setRcn
      { s.rcn.appended k r (batchEntry s r st) with
        batchTimer := some (s.rcn.appended k r (batchEntry s r st)).settings.batchPeriod }
      else s.setRcn (s.rcn.appended k r (batchEntry s r st))) = entryAdded k r st s := by
    unfold entryAdded
    split <;> rfl
  rw [← timed]
  have hroom : s.rcn.filling.entries.length < Config.batchEntries := hroom
  cases hp : r.place with
  | inFilling i => exact absurd hp (hplace i)
  | none | unsent =>
    simp only [batchAppend, hget, hp, hroom, if_true]
    rfl

omit short in
theorem batchAppend_overflows {k : Nat} {r : Reefer} {s : State} (hget : Table.get s.rcn.reefers k = some r)
    (hplace : ∀ i, r.place ≠ .inFilling i) (hroom : 48 ≤ s.rcn.filling.entries.length) (st : EntryState) :
    batchAppend k st s = (s.setReefer k { r with place := .unsent }).rcnStats
      (fun x => { x with batchOverflows := countUp x.batchOverflows 1 }) := by
  have hroom : ¬s.rcn.filling.entries.length < Config.batchEntries := Nat.not_lt.2 hroom
  cases hp : r.place with
  | inFilling i => exact absurd hp (hplace i)
  | none | unsent => simp only [batchAppend, hget, hp, hroom, if_false]

omit short in
theorem batchAppend_free {k : Nat} {s : State} (hget : Table.get s.rcn.reefers k = none) (st : EntryState) :
    batchAppend k st s = s := by
  simp only [batchAppend, hget]

/-- The batch append (R130). -/
theorem batchAppend_consolidates (k : Nat) (st : EntryState) (s : State) : Consolidates ok s (batchAppend k st s) := by
  cases hget : Table.get s.rcn.reefers k with
  | none => rw [batchAppend_free hget]; exact .refl s
  | some r =>
    by_cases hplace : ∃ i, r.place = .inFilling i
    · obtain ⟨i, hplace⟩ := hplace
      rw [batchAppend_overwrites hget hplace]
      exact overwrite_consolidates hget hplace st
    · have hplace : ∀ i, r.place ≠ .inFilling i := fun i hi => hplace ⟨i, hi⟩
      obtain hroom | hroom := Nat.lt_or_ge s.rcn.filling.entries.length 48
      · rw [batchAppend_adds hget hplace hroom]
        have added : Consolidates ok s (entryAdded k r st s) :=
          setRcn_consolidates ((Rcn.appended_keeps hget rfl hplace hroom).trans (.of_same rfl rfl rfl))
        refine Consolidates.trans ?_ ((presentBatchOverflow_reported _).consolidates short)
        split
        · exact added.trans (swapDue_consolidates short _)
        · exact added
      · rw [batchAppend_overflows hget hplace hroom]
        refine Consolidates.trans ?_ (rcnStats_consolidates _ _)
        refine setRcn_consolidates (Rcn.Keeps.of_put (fun _ => hget) rfl (fun h => ?_) fun i => ?_)
        · exact ⟨h.missed, h.heard, h.alarms, h.segment, h.lane⟩
        · simp [hplace]

end Buffers

/-! ### Reefer reports (spec 6.3) -/

section Reports
variable {ok : Body → Prop} (short : ∀ x : Body, x.isShort → ok x)
include short

theorem alarmPath_emits {f : Frame} (hf : ok (.forwarded f.bytes)) (arrival trunk : Port) (s : State) :
    Emits ok [] s (alarmPath f arrival trunk s) := by
  have counted (g : RcnStats → RcnStats) :
      Emits ok [] s ((offer alarmBucket f.length arrival s).2.rcnStats g) :=
    ((offer_agrees ..).emits (by decide)).andThen ((rcnStats_agrees ..).emits (by decide))
  unfold alarmPath
  dsimp only
  split
  · exact ((counted _).andThen ((raise_reported _ _ rfl).emits short)).andThen (forwardTo_emits short trunk .u hf _)
  · exact ((counted _).andThen ((addDrop_reported ..).emits short)).andThen ((raise_reported _ _ rfl).emits short)

omit short in
theorem alarmPath_rcn (f : Frame) (arrival trunk : Port) (s : State) :
    ∃ x, (alarmPath f arrival trunk s).rcn = { s.rcn with stats := x } := by
  have counted (g : RcnStats → RcnStats) : ((offer alarmBucket f.length arrival s).2.rcnStats g).rcn =
      { s.rcn with stats := g s.rcn.stats } := by
    have offered := (offer_agrees alarmBucket f.length arrival s).same .rcn (by decide)
    rw [← offered]
    rfl
  unfold alarmPath
  dsimp only
  split
  · refine ⟨_, Eq.trans ?_ (counted fun x => { x with alarmsForwarded := countUp x.alarmsForwarded 1 })⟩
    exact ((raise_agrees ..).step (forwardTo_agrees ..) : Agrees Field.reports _ _).same .rcn (by decide)
  · refine ⟨_, Eq.trans ?_ (counted fun x => { x with alarmHolds := countUp x.alarmHolds 1 })⟩
    exact (((addDrop_agrees ..).mono (by decide)).step (raise_agrees ..) : Agrees Field.reports _ _).same .rcn
      (by decide)

theorem alarmPath_consolidates {f : Frame} (hf : ok (.forwarded f.bytes)) (arrival trunk : Port) (s : State) :
    Consolidates ok s (alarmPath f arrival trunk s) := by
  obtain ⟨x, hx⟩ := alarmPath_rcn f arrival trunk s
  exact ⟨hx ▸ .of_same rfl rfl rfl, fun _ _ _ _ => alarmPath_emits short hf ..⟩

/-- The readings of a report are in their ranges (R111). -/
structure Readings.inRange (x : Readings) : Prop where
  alarms  : x.alarms.length ≤ 4 ∧ x.alarms.Nodup ∧ 0 ∉ x.alarms ∧ 255 ∉ x.alarms
  segment : ∀ g, x.segment = some g → g ≤ 255
  lane    : ∀ l, x.lane = some l → l ≤ 7

omit short in
theorem not_mem_append_singleton {α : Type} {a c : α} {l : List α} (hl : a ∉ l) (hc : c ≠ a) : a ∉ l ++ [c] := fun h =>
  (List.mem_append.1 h).elim hl fun h => hc (List.mem_singleton.1 h).symm

omit short in
theorem alarmList_inRange (codes acc : List Byte) (t : Bool)
    (h : acc.length ≤ 4 ∧ acc.Nodup ∧ 0 ∉ acc ∧ 255 ∉ acc) :
    (alarmList codes acc t).1.length ≤ 4 ∧ (alarmList codes acc t).1.Nodup ∧ 0 ∉ (alarmList codes acc t).1 ∧
      255 ∉ (alarmList codes acc t).1 := by
  induction codes generalizing acc t with
  | nil => exact h
  | cons c codes ih =>
    unfold alarmList
    split
    · exact ih acc t h
    · rename_i hc
      obtain ⟨h0, h255, hnew⟩ : c ≠ 0 ∧ c ≠ 255 ∧ c ∉ acc := by simpa [not_or] using hc
      split
      · obtain ⟨-, hnodup, hno0, hno255⟩ := h
        refine ih _ t ⟨by simp; omega, ?_, ?_, ?_⟩
        · rw [← List.concat_eq_append]
          exact hnodup.concat hnew
        · exact not_mem_append_singleton hno0 h0
        · exact not_mem_append_singleton hno255 h255
      · exact ih acc true h

omit short in
theorem readReport_inRange {body : List Byte} {x : Report} (h : readReport body = some x) : x.readings.inRange := by
  unfold readReport at h
  dsimp only at h
  split_ifs at h
  split at h
  · cases h
  · cases h
    refine ⟨alarmList_inRange _ _ _ (by simp), fun g hg => ?_, fun l hl => ?_⟩
    · dsimp only [clampSegment] at hg
      split_ifs at hg
      cases hg
      exact Nat.min_le_right ..
    · dsimp only [clampLane] at hl
      split_ifs at hl
      cases hl
      omega

omit short in
theorem Reefer.updated_lawful (r : Reefer) {x : Readings} (h : x.inRange) (n : Nat) : (r.updated x n).lawful :=
  ⟨Nat.zero_le _, fun _ => rfl, h.alarms, h.segment, h.lane⟩

theorem acceptReport_consolidates {k : Nat} {r : Reefer} {x : Readings} (hx : x.inRange) (sig : Bool)
    (fresh : List Byte) {f : Frame} (hf : ok (.forwarded f.bytes)) (arrival trunk : Port) {s : State}
    (hget : s.rcn.lawful → Table.get s.rcn.reefers k = some r) :
    Consolidates ok s (acceptReport k r x sig fresh f arrival trunk s) := by
  have updated (g : RcnStats → RcnStats) : Consolidates ok s ((s.setReefer k (r.updated x s.seconds)).rcnStats g) :=
    (setReefer_consolidates (v := r) (w := r.updated x s.seconds) hget rfl (fun _ => r.updated_lawful hx _) rfl).trans (rcnStats_consolidates _ _)
  have passed (g : RcnStats → RcnStats) : Consolidates ok s
      (if fresh = [] then (s.setReefer k (r.updated x s.seconds)).rcnStats g
      else alarmPath f arrival trunk ((s.setReefer k (r.updated x s.seconds)).rcnStats g)) := by
    split
    · exact updated g
    · exact (updated g).trans (alarmPath_consolidates short hf ..)
  unfold acceptReport
  dsimp only
  split
  · exact (passed _).trans (batchAppend_consolidates short ..)
  · exact passed _

omit short in
theorem Table.get_of_find {α : Type} {n : Nat} {t : Table α} {p : α → Bool} {k : Nat} {v : α} (h : Table.wf n t)
    (hf : Table.find t p = some (k, v)) : Table.get t k = some v :=
  (Table.get_eq_some t k v h.1).2 (List.mem_of_find?_eq_some hf)

omit short in
theorem Table.not_of_find_none {α : Type} {t : Table α} {p : α → Bool} (h : Table.find t p = none) {e : Nat × α}
    (he : e ∈ t) : p e.2 = false := by
  simpa using List.find?_eq_none.1 h e he

omit short in
/-- The batch place of a new record is the index of an entry with its SID, where one stands (R112). -/
theorem placeForNew_eq (s : State) (sid : Sid) (h : s.rcn.lawful) (i : Nat) :
    placeForNew s sid = .inFilling i ↔ (s.rcn.filling.entries.map (·.sid))[i]? = some sid := by
  unfold placeForNew
  split
  · rename_i hnone
    have hno := List.findIdx?_eq_none_iff.1 hnone
    refine ⟨fun hc => (nomatch hc), fun hc => ?_⟩
    obtain ⟨e, he, hsid⟩ := List.mem_map.1 (List.mem_of_getElem? hc)
    simpa [hsid] using hno e he
  · rename_i j hj
    obtain ⟨hlt, hp, -⟩ := List.findIdx?_eq_some_iff_getElem.1 hj
    have own : (s.rcn.filling.entries.map (·.sid))[j]? = some sid := by
      rw [List.getElem?_map, List.getElem?_eq_getElem hlt]
      simpa using hp
    constructor
    · intro hc
      cases hc
      exact own
    · intro hi
      have hlt' : i < (s.rcn.filling.entries.map (·.sid)).length := (List.getElem?_eq_some_iff.1 hi).1
      rw [(List.getElem?_inj hlt' h.fillingNodup).1 (hi.trans own.symm)]

omit short in
/-- A new record is inserted at a free place (R112). -/
theorem insert_consolidates {k : Nat} {sid : Sid} {x : Readings} (hx : x.inRange) {s : State}
    (hnew : findReefer s sid = none) (hk : Table.lowestFree s.rcn.reefers Config.reeferPlaces = some k) :
    Consolidates ok s (s.setReefer k (newReefer s sid x)) := by
  obtain ⟨hfree, hlt⟩ := Table.lowestFree_some hk
  refine setRcn_consolidates (.of_insert hfree hlt (fun e he hsid => ?_) ?_ fun h i => placeForNew_eq s sid h i)
  · have := Table.not_of_find_none hnew he
    simp [hsid, newReefer] at this
  · exact ⟨Nat.zero_le _, fun _ => rfl, hx.alarms, hx.segment, hx.lane⟩

omit short in
theorem Table.mem_put_self {α : Type} (t : Table α) (k : Nat) (v : α) : (k, v) ∈ Table.put t k v := by
  induction t with
  | nil => exact List.mem_singleton.2 rfl
  | cons e t ih =>
    unfold Table.put
    split_ifs <;> simp [ih]

/-- A reefer report that is taken (R108 to R117). -/
theorem takeReport_consolidates {f : Frame} (hf : ok (.forwarded f.bytes)) (arrival trunk : Port) (s : State) :
    Consolidates ok s (takeReport f arrival trunk s) := by
  have counted (r : Fin 20) (g : RcnStats → RcnStats) (t : State) : Consolidates ok t (addDrop r 1 (t.rcnStats g)) :=
    (rcnStats_consolidates g t).trans ((addDrop_reported ..).consolidates short)
  unfold takeReport
  split
  · exact counted ..
  · rename_i rep hrep
    have hx := readReport_inRange hrep
    have truncated : Consolidates ok s
        (if rep.truncated then s.rcnStats (fun x => { x with truncations := countUp x.truncations 1 }) else s) := by
      split
      · exact rcnStats_consolidates _ _
      · exact .refl s
    refine truncated.trans ?_
    generalize (if rep.truncated then s.rcnStats (fun x => { x with truncations := countUp x.truncations 1 })
      else s) = u
    dsimp only
    split
    · rename_i hnew
      split
      · exact (rcnStats_consolidates (fun x => { x with passThroughs := countUp x.passThroughs 1 }) u).trans
          (.of_emits ((forwardTo_agrees ..).same .rcn (by decide)) (forwardTo_emits short trunk .d hf _))
      · rename_i k hk
        have inserted : Consolidates ok u (presentReeferFull ((u.setReefer k (newReefer u f.station rep.readings)).rcnStats
            (fun x => { x with inserts := countUp x.inserts 1 }))) :=
          ((insert_consolidates hx hnew hk).trans (rcnStats_consolidates _ _)).trans
            ((presentReeferFull_reported _).consolidates short)
        refine inserted.trans (acceptReport_consolidates short hx true _ hf arrival trunk fun h => ?_)
        have same := (presentReeferFull_agrees ((u.setReefer k (newReefer u f.station rep.readings)).rcnStats
          (fun x => { x with inserts := countUp x.inserts 1 }))).same .rcn (by decide)
        rw [same] at h ⊢
        exact (Table.get_eq_some _ k _ h.places.1).2 (Table.mem_put_self u.rcn.reefers k _)
    · rename_i k r hfind
      have hget (h : u.rcn.lawful) : Table.get u.rcn.reefers k = some r := Table.get_of_find h.places hfind
      split
      · exact counted ..
      · exact counted ..
      · exact acceptReport_consolidates short hx _ _ hf arrival trunk hget
      · exact (rcnStats_consolidates _ _).trans (acceptReport_consolidates short hx _ _ hf arrival trunk
          fun h => Table.get_of_find h.places hfind)

end Reports

/-! ### The supervision sweep, the batch timer and the commands (spec 6.4, 7.1, 7.2) -/

section Sweep
variable {ok : Body → Prop} (short : ∀ x : Body, x.isShort → ok x)
include short

theorem removeReefer_consolidates (k : Nat) (s : State) : Consolidates ok s (removeReefer k s) :=
  (setRcn_consolidates (.of_erase _ k)).trans ((presentReeferFull_reported _).consolidates short)

theorem catchUp_consolidates (k : Nat) (r : Reefer) (s : State) : Consolidates ok s (catchUp k r s) := by
  unfold catchUp
  split
  · exact batchAppend_consolidates short ..
  · exact .refl s

theorem retireReefer_consolidates (k : Nat) (r : Reefer) (s : State) : Consolidates ok s (retireReefer k r s) := by
  unfold retireReefer
  split
  · exact ((batchAppend_consolidates short ..).trans (removeReefer_consolidates short ..)).trans
      (rcnStats_consolidates _ _)
  · exact batchAppend_consolidates short ..

theorem visitReefer_consolidates {k : Nat} {r : Reefer} {s : State} (hget : Table.get s.rcn.reefers k = some r) :
    Consolidates ok s (visitReefer k r s) := by
  have missed (st : ReeferState) (hheard : r.heard = false) : Consolidates ok s
      (s.setReefer k { r with missed := min 15 (r.missed + 1), state := st }) :=
    setReefer_consolidates (fun _ => hget) rfl
      (fun h => ⟨Nat.min_le_left .., fun hc => absurd hc (by simp [hheard]), h.alarms, h.segment, h.lane⟩) rfl
  unfold visitReefer
  dsimp only
  split
  · refine Consolidates.trans ?_ (catchUp_consolidates short ..)
    exact setReefer_consolidates (fun _ => hget) rfl
      (fun h => ⟨h.missed, fun hc => (nomatch hc), h.alarms, h.segment, h.lane⟩) rfl
  · rename_i hheard
    have hheard : r.heard = false := by simpa using hheard
    have reported (src : Fin 24) (hsrc : isLevelSource src = false) (st : ReeferState) : Consolidates ok s (raise src (.sid r.sid)
        (s.setReefer k { r with missed := min 15 (r.missed + 1), state := st })) :=
      (missed st hheard).trans ((raise_reported _ _ hsrc).consolidates short)
    split_ifs
    · exact (missed r.state hheard).trans (retireReefer_consolidates short ..)
    · exact (reported _ rfl .silent).trans (batchAppend_consolidates short ..)
    · exact (reported _ rfl .overdue).trans (batchAppend_consolidates short ..)
    · exact (missed r.state hheard).trans (catchUp_consolidates short ..)

omit short in
theorem advanceReeferSweep_consolidates (k : Nat) (s : State) : Consolidates ok s (advanceReeferSweep k s) := by
  unfold advanceReeferSweep
  split_ifs <;> exact setRcn_consolidates_of_same rfl rfl rfl

theorem execReportPeriodExpiry_consolidates {s t : State} (h : execReportPeriodExpiry s = .next t) :
    Consolidates ok s t := by
  cases h
  split
  · exact .refl s
  · dsimp only
    split_ifs
    · exact setRcn_consolidates_of_same rfl rfl rfl
    · exact setRcn_consolidates_of_same rfl rfl rfl
    · refine Consolidates.trans ?_ ((raise_reported _ _ rfl).consolidates short)
      exact setRcn_consolidates_of_same rfl rfl rfl

theorem execSupervisionSweepVisit_consolidates {s t : State} (h : execSupervisionSweepVisit s = .next t) :
    Consolidates ok s t := by
  cases h
  split
  · exact .refl s
  · refine Consolidates.trans ?_ (advanceReeferSweep_consolidates _ _)
    split
    · exact .refl s
    · rename_i hget
      exact visitReefer_consolidates short hget

theorem execBatchTimerExpiry_consolidates {s t : State} (h : execBatchTimerExpiry s = .next t) :
    Consolidates ok s t := by
  cases h
  split
  · exact .refl s
  · have stopped : Consolidates ok s (s.setRcn { s.rcn with batchTimer := none }) :=
      setRcn_consolidates_of_same rfl rfl rfl
    dsimp only
    split
    · exact stopped
    · exact stopped.trans (swapDue_consolidates short _)

omit short in
theorem takeSetReefer_consolidates (threshold base margin batch report retire domain clear : Nat) (s : State) :
    Consolidates ok s (takeSetReefer threshold base margin batch report retire domain clear s).state := by
  unfold takeSetReefer
  dsimp only
  split
  · unfold taken
    dsimp only
    split <;> exact setRcn_consolidates_of_same rfl rfl rfl
  · exact .refl s

omit short in
theorem markForgotten_keeps (r : Rcn) (place : BatchPlace) : r.Keeps (r.markForgotten place) := by
  cases place with
  | none => exact .refl r
  | unsent => exact .refl r
  | inFilling i =>
    refine .of_sameSids _ (fun _ => ?_) (List.length_modify ..)
    refine List.ext_getElem? fun j => ?_
    simp only [List.getElem?_map, List.getElem?_modify]
    cases r.filling.entries[j]? with
    | none => rfl
    | some e => dsimp only [Option.map_some]; split <;> rfl

theorem takeForgetReefer_consolidates (sid : Sid) (s : State) :
    Consolidates ok s (takeForgetReefer sid s).state := by
  unfold takeForgetReefer
  split
  · exact .refl s
  · rename_i k r _
    have marked : Consolidates ok s (s.setRcn (s.rcn.markForgotten r.place)) :=
      setRcn_consolidates (markForgotten_keeps ..)
    exact (marked.trans (rcnStats_consolidates _ _)).trans (removeReefer_consolidates short ..)

end Sweep

end Sys2Proof.Machine
end

section
/-! What one operation of the part keeps, in one relation: the laws of the links, of the overlay, of the consolidator and
of the notice sources, and that the frames handed on, the repeat slots and the replies stay within their bounds. Each
command of the table is an operation of this kind, and the laws of the blocks follow. -/

namespace Sys2Proof.Machine

/-! ### The overlay follows the links (R16) -/

/-- A link's shadow span includes a segment (R16). -/
def Link.covers (x : Link) (g : Nat) : Bool := x.span.any fun c => inSpan c g

theorem shadowCount_eq (s : State) (g : Nat) :
    shadowCount s g = (List.finRange 24).countP fun l => (s.link l).covers g := by
  unfold shadowCount
  refine congrFun (congrArg _ (funext fun l => ?_)) _
  unfold Link.covers Link.span
  cases (s.link l).state.spans <;> cases (s.link l).segment <;> rfl

/-- A change at one element of a list without duplicates changes a count by what it changes there. -/
theorem countP_change {α : Type} [DecidableEq α] {p q : α → Bool} {a : α} {l : List α} (hl : l.Nodup) (ha : a ∈ l)
    (h : ∀ b, b ≠ a → q b = p b) :
    (l.countP q : Int) = l.countP p + (if q a then 1 else 0) - (if p a then 1 else 0) := by
  have hperm := List.perm_cons_erase ha
  have rest : (l.erase a).countP q = (l.erase a).countP p :=
    List.countP_congr fun b hb => by rw [h b fun e => by simp [e, hl.mem_erase_iff] at hb]
  rw [hperm.countP_eq, hperm.countP_eq, List.countP_cons, List.countP_cons, rest]
  split_ifs <;> omega

/-- What a link's shadow span gives the count of a segment. -/
def Link.weight (x : Link) (g : Nat) : Int := if x.covers g then 1 else 0

theorem Link.weight_nonneg (x : Link) (g : Nat) : 0 ≤ x.weight g := by
  unfold Link.weight
  split <;> decide

theorem spanChange_append (g : Nat) (a b : List SpanEvent) :
    spanChange g (a ++ b) = spanChange g a + spanChange g b := by
  simp [spanChange]

theorem spanChange_add (g : Nat) (x : Link) : spanChange g (spansFor .add x.span) = x.weight g := by
  unfold Link.weight Link.covers
  cases x.span <;> simp [spansFor, spanChange, SpanEvent.change]

theorem spanChange_remove (g : Nat) (x : Link) : spanChange g (spansFor .remove x.span) = -x.weight g := by
  unfold Link.weight Link.covers
  cases x.span with
  | none => rfl
  | some c =>
    show SpanEvent.change g (.remove c) + 0 = _
    simp only [SpanEvent.change, Option.any_some]
    split <;> rfl

/-- What the span events of a link's change add to the count of a segment. -/
theorem spanChange_spanMoved (g : Nat) (x y : Link) :
    spanChange g (spanMoved x.span y.span) = y.weight g - x.weight g := by
  unfold spanMoved
  split
  · rename_i h
    have : y.weight g = x.weight g := by unfold Link.weight Link.covers; rw [h]
    rw [this, sub_self]
    rfl
  · rw [spanChange_append, spanChange_add, spanChange_remove]
    omega

theorem take_spansFor (mk : Nat → SpanEvent) (o : Option Nat) (n : Nat) :
    (spansFor mk o).take n = [] ∨ (spansFor mk o).take n = spansFor mk o := by
  cases o with
  | none => exact .inr (List.take_nil ..)
  | some c => cases n <;> simp [spansFor]

/-- On the way to a link's new span, a count loses at most what the link's old span gave it. -/
theorem spanChange_take (g n : Nat) (x y : Link) : -x.weight g ≤ spanChange g ((spanMoved x.span y.span).take n) := by
  have hx := x.weight_nonneg g
  have hy := y.weight_nonneg g
  have hnil : spanChange g [] = 0 := rfl
  unfold spanMoved
  split
  · rw [List.take_nil, hnil]
    omega
  · rw [List.take_append, spanChange_append]
    obtain e | e := take_spansFor .remove x.span n <;>
      obtain f | f := take_spansFor .add y.span (n - (spansFor .remove x.span).length) <;>
      rw [e, f] <;> simp only [hnil, spanChange_add, spanChange_remove] <;> omega

/-- The span events that an event at a link issues keep the law of the overlay. -/
theorem EventAt.overlayLaw {l : LinkNo} {s t : State} (h : EventAt l s t) (hcvm : t.cvm.overlay = s.cvm.overlay)
    (law : OverlayLaw s) : OverlayLaw t := by
  have count (g : Nat) : (shadowCount t g : Int) = shadowCount s g + (t.link l).weight g - (s.link l).weight g := by
    rw [shadowCount_eq, shadowCount_eq]
    exact countP_change (List.nodup_finRange 24) (List.mem_finRange l) fun m hm => by rw [h.others m hm]
  refine ⟨fun g => ?_, fun g n => ?_⟩
  · have := law.counts g
    rw [hcvm, h.spans, spanChange_append, spanChange_spanMoved, count]
    omega
  · rw [hcvm, h.spans, List.take_append, spanChange_append]
    obtain hn | hn := Nat.le_total n s.flight.spans.length
    · rw [Nat.sub_eq_zero_of_le hn]
      simpa [spanChange] using law.prefixes g n
    · rw [List.take_of_length_le hn]
      have counted := law.counts g
      have lost := spanChange_take g (n - s.flight.spans.length) (s.link l) (t.link l)
      have held : (s.link l).weight g ≤ shadowCount s g := by
        unfold Link.weight
        split
        · rename_i hc
          rw [shadowCount_eq]
          exact_mod_cast List.countP_pos_iff.2 ⟨l, List.mem_finRange l, hc⟩
        · omega
      omega

/-! ### The relation -/

/-- What is known of the frames of the part: each one it originates, forwards or answers meets `ok`; `n` bounds the
entries of a batch. -/
structure FrameRule (ok : Body → Prop) (n : Nat) : Prop where
  short     : ∀ x : Body, x.isShort → ok x
  forwarded : ∀ bytes : List Byte, 64 ≤ bytes.length → bytes.length ≤ 2048 → ok (.forwarded bytes)
  batch     : BatchMeets ok n
  size      : 48 ≤ n
  reply     : ∀ (restart : Bool) (bytes : List Byte), bytes.length ≤ 1916 → ok (.originated (.reply restart) bytes)

/-- The entries of an execution and the room that is left fit the reply (R171). -/
def Execution.fits (e : Execution) : Prop :=
  e.entries.length ≤ e.count ∧ e.count ≤ 16 ∧
    4 + 4 * e.count + (e.entries.map (·.result.length)).sum + e.room ≤ 1900

/-- The frame in progress has room for its next entry, and its reply fits (R171). -/
def RepliesFit (s : State) : Prop :=
  ∀ e, s.mga.phase = .executing e ∨ s.mga.phase = .held e → e.entries.length < e.count ∧ e.fits

/-- Replies meet a predicate, whatever their length or because they fit. -/
def RepliesMeet (ok : Body → Prop) (s : State) : Prop :=
  (∀ restart bytes, ok (.originated (.reply restart) bytes)) ∨ RepliesFit s

/-- The frames on their way to the FSQ meet a predicate. -/
def FramesMeet (ok : Body → Prop) (s : State) : Prop := ∀ r ∈ s.flight.enqueues, ok r.body

/-- What an operation's frames are built from is as it should be: the repeat slots, the batch buffers, the replies. -/
structure Ready (ok : Body → Prop) (n : Nat) (s : State) : Prop where
  slots   : SlotsMeet ok s
  within  : s.rcn.within n
  replies : RepliesMeet ok s

/-- An operation of the part, from a state that is ready. -/
structure Works (ok : Body → Prop) (n : Nat) (s t : State) : Prop where
  ready   : Ready ok n t
  frames  : FramesMeet ok s → FramesMeet ok t
  notices : NoticeLaw s → NoticeLaw t
  links   : LinkLaw s → LinkLaw t
  overlay : LinkLaw s → OverlayLaw s → OverlayLaw t
  rcn     : s.rcn.Keeps t.rcn

section
variable {ok : Body → Prop} {n : Nat} {s t u : State}

theorem RepliesMeet.congr (h : RepliesMeet ok s) (hmga : t.mga = s.mga) : RepliesMeet ok t := by
  unfold RepliesMeet RepliesFit at *
  rwa [hmga]

theorem LinkLaw.congr (h : LinkLaw s) (hlinks : t.links = s.links) : LinkLaw t := by
  unfold LinkLaw State.link at *
  rwa [hlinks]

theorem OverlayLaw.congr (h : OverlayLaw s) (hlinks : t.links = s.links) (hcvm : t.cvm.overlay = s.cvm.overlay)
    (hspans : t.flight.spans = s.flight.spans) : OverlayLaw t := by
  have count (g : Nat) : shadowCount t g = shadowCount s g := by
    unfold shadowCount State.link
    rw [hlinks]
  exact ⟨fun g => by rw [hcvm, hspans, count]; exact h.counts g, fun g n => by rw [hcvm, hspans]; exact h.prefixes g n⟩

theorem Works.refl (hs : Ready ok n s) : Works ok n s s := ⟨hs, id, id, id, fun _ => id, .refl _⟩

theorem Works.trans (h : Works ok n s t) (g : Ready ok n t → Works ok n t u) : Works ok n s u := by
  have g := g h.ready
  exact ⟨g.ready, g.frames ∘ h.frames, g.notices ∘ h.notices, g.links ∘ h.links,
    fun hl => g.overlay (h.links hl) ∘ h.overlay hl, h.rcn.trans g.rcn⟩

theorem Works.ite {p : Prop} [Decidable p] (h : Works ok n s t) (g : Works ok n s u) :
    Works ok n s (if p then t else u) := by
  split
  · exact h
  · exact g

theorem Emits.framesMeet {spans : List SpanEvent} (h : Emits ok spans s t) (hs : FramesMeet ok s) : FramesMeet ok t := by
  obtain ⟨more, hmore, meets⟩ := h.handed
  intro r hr
  rw [hmore] at hr
  exact (List.mem_append.1 hr).elim (hs r) (meets r)

/-- An operation of the agent, or one that leaves the links, the consolidator and the map. -/
theorem Works.of_agent {c : List Field} (hs : Ready ok n s) (h : Agrees c s t)
    (hc : Field.links ∉ c ∧ Field.rcn ∉ c ∧ Field.cvm ∉ c) (e : Emits ok [] s t) (replies : RepliesMeet ok t) :
    Works ok n s t := by
  obtain ⟨hlinks, hrcn, hcvm⟩ := hc
  have links := h.same .links hlinks
  have rcn : t.rcn = s.rcn := h.same .rcn hrcn
  refine ⟨⟨hs.slots.congr links, rcn ▸ hs.within, replies⟩, e.framesMeet, fun law k => e.lawful k (law k),
    fun law => law.congr links, fun _ law => law.congr links (congrArg Cvm.overlay (h.same .cvm hcvm)) ?_, ?_⟩
  · rw [e.spans, List.append_nil]
  · rw [rcn]
    exact .refl _

theorem Works.of_emits {c : List Field} (hs : Ready ok n s) (h : Agrees c s t)
    (hc : (Field.links ∉ c ∧ Field.rcn ∉ c ∧ Field.cvm ∉ c) ∧ Field.mga ∉ c) (e : Emits ok [] s t) :
    Works ok n s t := .of_agent hs h hc.1 e (hs.replies.congr (h.same .mga hc.2))

/-- An operation that leaves what the laws of the relation read. -/
theorem Works.of_agrees {c : List Field} (hs : Ready ok n s) (h : Agrees c s t)
    (hc : ((Field.links ∉ c ∧ Field.rcn ∉ c ∧ Field.cvm ∉ c) ∧ Field.mga ∉ c) ∧ Field.flight ∉ c ∧ Field.ntu ∉ c) :
    Works ok n s t := .of_emits hs h hc.1 (h.emits hc.2)

theorem Works.of_reported (rule : FrameRule ok n) (hs : Ready ok n s) (h : Reported s t) : Works ok n s t :=
  .of_emits hs h.frame.agrees (by decide) (h.emits rule.short)

/-- Events are taken out of flight, or announcements put there. -/
theorem Works.of_flight (hs : Ready ok n s) (x : Flight) (henqueues : ∀ r ∈ x.enqueues, r ∈ s.flight.enqueues)
    (hspans : x.spans = s.flight.spans) : Works ok n s (s.setFlight x) :=
  ⟨⟨hs.slots.congr rfl, hs.within, hs.replies.congr rfl⟩, fun h r hr => h r (henqueues r hr), id, id,
    fun _ law => law.congr rfl rfl hspans, .refl _⟩

/-- The map is replaced, with its overlay kept. -/
theorem Works.setCvm (hs : Ready ok n s) {c : Cvm} (h : c.overlay = s.cvm.overlay) : Works ok n s (s.setCvm c) :=
  ⟨⟨hs.slots.congr rfl, hs.within, hs.replies.congr rfl⟩, id, id, id, fun _ law => law.congr rfl h rfl, .refl _⟩

theorem Works.of_consolidates {c : List Field} (rule : FrameRule ok n) (hs : Ready ok n s) (h : Agrees c s t)
    (hc : Field.links ∉ c ∧ Field.cvm ∉ c ∧ Field.mga ∉ c) (g : Consolidates ok s t) : Works ok n s t := by
  obtain ⟨hlinks, hcvm, hmga⟩ := hc
  have links := h.same .links hlinks
  have e := g.emits n rule.size rule.batch hs.within
  refine ⟨⟨hs.slots.congr links, g.keeps.within n rule.size hs.within, hs.replies.congr (h.same .mga hmga)⟩,
    e.framesMeet, fun law k => e.lawful k (law k), fun law => law.congr links,
    fun _ law => law.congr links (congrArg Cvm.overlay (h.same .cvm hcvm)) ?_, g.keeps⟩
  rw [e.spans, List.append_nil]

/-- An event at a link. -/
theorem Works.of_eventAt {c : List Field} {l : LinkNo} (hs : Ready ok n s) (h : Agrees c s t)
    (hc : Field.rcn ∉ c ∧ Field.cvm ∉ c ∧ Field.mga ∉ c) (event : (s.link l).lawful → EventAt l s t)
    (g : Carries ok s t) : Works ok n s t := by
  obtain ⟨hrcn, hcvm, hmga⟩ := hc
  have rcn : t.rcn = s.rcn := h.same .rcn hrcn
  obtain ⟨spans, e⟩ := g.emits
  refine ⟨⟨g.slots, rcn ▸ hs.within, hs.replies.congr (h.same .mga hmga)⟩, e.framesMeet,
    fun law k => e.lawful k (law k), fun law m => ?_,
    fun law => (event (law l)).overlayLaw (congrArg Cvm.overlay (h.same .cvm hcvm)), ?_⟩
  · by_cases hm : m = l
    · exact hm ▸ (event (law l)).lawful
    · rw [(event (law l)).others m hm]
      exact law m
  · rw [rcn]
    exact .refl _

theorem Works.foldl {α : Type} {f : State → α → State} (hf : ∀ s x, Ready ok n s → Works ok n s (f s x)) (xs : List α)
    (hs : Ready ok n s) : Works ok n s (xs.foldl f s) := by
  induction xs generalizing s with
  | nil => exact .refl hs
  | cons x xs ih => exact (hf s x hs).trans fun h => ih h

end

end Sys2Proof.Machine
end

section
/-! The resets, the agent and the received frames as operations of the part, and with them every command. -/

namespace Sys2Proof.Machine

/-! ### Resets and timers -/

theorem vector_get_map {α β : Type} {n : Nat} (f : α → β) (v : Vector α n) (i : Fin n) : (v.map f).get i = f (v.get i) := by
  simp [Vector.get_eq_getElem]

theorem vector_get_replicate {α : Type} {n : Nat} (a : α) (i : Fin n) : (Vector.replicate n a).get i = a := by
  simp [Vector.get_eq_getElem]

/-- The counts with which a soft restart begins (R148, R168). -/
def restartCounted (s : State) : State := addDrop Drop.restartDiscard s.mga.queue.length (countRestart s)

theorem restartCounted_reported (s : State) : Reported s (restartCounted s) :=
  (countRestart_reported s).trans (addDrop_reported ..)

theorem softRestart_eq (s : State) : softRestart s =
    { restartCounted s with
      part := .restarting, restarts := min 65535 (s.restarts + 1)
      cvm := s.cvm.softRestart, stt := s.stt.softRestart, links := s.links.map Link.softRestart
      rcn := s.rcn.softRestart, fsq := s.fsq.softRestart
      ntu := { (restartCounted s).ntu with sources := (restartCounted s).ntu.sources.map Source.softRestart }
      mga := .hard, flight := .none } := by
  have h := (restartCounted_reported s).frame.agrees
  have hcvm := h.same .cvm (by decide)
  have hstt := h.same .stt (by decide)
  have hlinks := h.same .links (by decide)
  have hrcn := h.same .rcn (by decide)
  have hfsq := h.same .fsq (by decide)
  rw [← show (restartCounted s).cvm = s.cvm from hcvm, ← show (restartCounted s).stt = s.stt from hstt,
    ← show (restartCounted s).links = s.links from hlinks, ← show (restartCounted s).rcn = s.rcn from hrcn,
    ← show (restartCounted s).fsq = s.fsq from hfsq]
  rfl

@[simp] theorem softRestart_link (s : State) (l : LinkNo) : (softRestart s).link l = (s.link l).softRestart := by
  rw [softRestart_eq]
  exact vector_get_map _ s.links l

@[simp] theorem softRestart_rcn (s : State) : (softRestart s).rcn = s.rcn.softRestart := by rw [softRestart_eq]

@[simp] theorem softRestart_cvm (s : State) : (softRestart s).cvm = s.cvm.softRestart := by rw [softRestart_eq]

@[simp] theorem softRestart_stt (s : State) : (softRestart s).stt = s.stt.softRestart := by rw [softRestart_eq]

@[simp] theorem softRestart_fsq (s : State) : (softRestart s).fsq = s.fsq.softRestart := by rw [softRestart_eq]

@[simp] theorem softRestart_mga (s : State) : (softRestart s).mga = .hard := rfl

@[simp] theorem softRestart_flight (s : State) : (softRestart s).flight = .none := rfl

theorem softRestart_source (s : State) (k : SourceNo) :
    (softRestart s).source k = ((restartCounted s).source k).softRestart := by
  rw [softRestart_eq]
  exact vector_get_map _ (restartCounted s).ntu.sources k

theorem Source.lawful.softRestart {k : SourceNo} {x : Source} (h : x.lawful k) : x.softRestart.lawful k :=
  ⟨⟨h.ranges.1, h.ranges.2.1, Nat.zero_le _⟩, fun _ => ⟨rfl, rfl⟩, fun _ => ⟨rfl, rfl, by simp [Source.softRestart]⟩⟩

theorem Source.hard_lawful (k : SourceNo) : Source.hard.lawful k :=
  ⟨by decide, fun _ => ⟨rfl, rfl⟩, fun _ => ⟨rfl, rfl, by decide⟩⟩

theorem Link.softRestart_spans (x : Link) : x.softRestart.state.spans = false := by
  unfold Link.softRestart
  split
  · rename_i h
    rw [h]
    rfl
  · rfl

theorem Link.softRestart_slot {x : Link} {bytes : List Byte} (h : x.softRestart.slot = some bytes) :
    x.slot = some bytes := by
  unfold Link.softRestart at h
  split at h
  · exact h
  · cases h

/-- With no link LIVE or LATE, no span event in flight and every count 0, the law of the overlay holds. -/
theorem OverlayLaw.of_none {s : State} (hlinks : ∀ l, (s.link l).state.spans = false)
    (hoverlay : s.cvm.overlay = Vector.replicate 256 0) (hspans : s.flight.spans = []) : OverlayLaw s := by
  have count (g : Nat) : shadowCount s g = 0 := by simp [shadowCount, hlinks]
  refine ⟨fun g => ?_, fun g n => ?_⟩
  · rw [hoverlay, hspans, count, vector_get_replicate]
    rfl
  · rw [hoverlay, hspans, vector_get_replicate, List.take_nil]
    exact le_refl _

theorem Reefer.lawful.softRestart {r : Reefer} (h : r.lawful) : r.softRestart.lawful :=
  ⟨Nat.zero_le _, fun _ => rfl, h.alarms, h.segment, h.lane⟩

theorem Rcn.softRestart_keeps (r : Rcn) : r.Keeps r.softRestart := by
  refine ⟨fun h => ⟨Table.wf_mapValues _ h.places, ?_, ?_, by simp [Rcn.softRestart], by simp [Rcn.softRestart],
    by simp [Rcn.softRestart], ?_⟩, fun n _ _ => ?_⟩
  · simpa [Rcn.softRestart, Table.mapValues, List.map_map, Function.comp_def, Reefer.softRestart] using h.unique
  · intro e he
    obtain ⟨x, hx, rfl⟩ := List.mem_map.1 he
    exact (h.records x hx).softRestart
  · intro e he i
    obtain ⟨x, -, rfl⟩ := List.mem_map.1 he
    have hplace : x.2.softRestart.place ≠ .inFilling i := by
      cases hp : x.2.place <;> simp [Reefer.softRestart, hp]
    simp [Rcn.softRestart, Rcn.filling, hplace]
  · exact ⟨Nat.zero_le _, Nat.zero_le _⟩

theorem Rcn.hard_lawful : Rcn.hard.lawful :=
  ⟨⟨List.Pairwise.nil, by simp [Rcn.hard]⟩, by simp [Rcn.hard], by simp [Rcn.hard], by decide, by decide, by decide, by simp [Rcn.hard]⟩

section
variable {ok : Body → Prop} {n : Nat} {s : State}

theorem softRestart_works (hs : Ready ok n s) : Works ok n s (softRestart s) := by
  refine ⟨⟨fun l bytes h => ?_, ?_, .inr fun e he => ?_⟩, fun _ r hr => (nomatch hr), fun law k => ?_, fun law l => ?_,
    fun _ _ => .of_none (fun l => ?_) (by rw [softRestart_cvm]; rfl) rfl, ?_⟩
  · rw [softRestart_link] at h
    exact hs.slots l bytes (Link.softRestart_slot h)
  · rw [softRestart_rcn]
    exact ⟨Nat.zero_le _, Nat.zero_le _⟩
  · obtain he | he := he <;> cases he
  · rw [softRestart_source]
    exact ((restartCounted_reported s).lawful k (law k)).softRestart
  · rw [softRestart_link]
    exact (law l).softRestart
  · rw [softRestart_link]
    exact Link.softRestart_spans _
  · rw [softRestart_rcn]
    exact Rcn.softRestart_keeps _

theorem hardValues_works (part : PartState) (straps : Straps) {map : Cvm}
    (hmap : map.overlay = Vector.replicate 256 0) (s : State) : Works ok n s (hardValues part straps map s) := by
  have link (l : LinkNo) : (hardValues part straps map s).link l = .hard := vector_get_replicate _ l
  refine ⟨⟨fun l bytes h => ?_, ⟨Nat.zero_le _, Nat.zero_le _⟩, .inr fun e he => ?_⟩, fun _ r hr => (nomatch hr),
    fun _ k => ?_, fun _ l => ?_, fun _ _ => .of_none (fun l => ?_) hmap rfl,
    fun _ => Rcn.hard_lawful, fun _ _ _ => ⟨Nat.zero_le _, Nat.zero_le _⟩⟩
  · rw [link] at h
    cases h
  · obtain he | he := he <;> cases he
  · have source : (hardValues part straps map s).source k = .hard := vector_get_replicate _ k
    rw [source]
    exact Source.hard_lawful k
  · rw [link]
    exact Link.hard_lawful
  · rw [link]
    rfl

theorem startTimers_works (hs : Ready ok n s) : Works ok n s (startTimers s) :=
  ⟨⟨hs.slots.congr rfl, hs.within, hs.replies.congr rfl⟩, id, id, id, fun _ law => law.congr rfl rfl rfl,
    .of_same rfl rfl rfl⟩

theorem restartCellChecks_works (hs : Ready ok n s) : Works ok n s (restartCellChecks s) := by
  unfold restartCellChecks
  refine Works.foldl (fun t l ht => ?_) _ hs
  split
  · rename_i h
    exact .of_eventAt ht (cellCheck_agrees l t) (by decide) (cellCheck_eventAt h.1) (cellCheck_carries h.1 ht.slots)
  · exact .refl ht

theorem setPart_works (x : PartState) (hs : Ready ok n s) : Works ok n s { s with part := x } :=
  .of_agrees hs (setPart_agrees x s) (by decide)

theorem presentAll_works (rule : FrameRule ok n) (hs : Ready ok n s) : Works ok n s (presentAll s) :=
  .of_reported rule hs (presentAll_reported s)

/-! ### Span events (R16) -/

theorem overlay_get_addSpan (g : Nat) (o : Vector Nat 256) (i : Fin 256) :
    ((addSpan g o).get i : Int) = o.get i + SpanEvent.change i.val (.add g) := by
  unfold addSpan SpanEvent.change
  rw [Vector.get_eq_getElem, Vector.getElem_ofFn]
  dsimp only
  split <;> simp

theorem overlay_get_removeSpan {g : Nat} {o : Vector Nat 256} {i : Fin 256}
    (h : 0 ≤ (o.get i : Int) + SpanEvent.change i.val (.remove g)) :
    ((removeSpan g o).get i : Int) = o.get i + SpanEvent.change i.val (.remove g) := by
  unfold removeSpan
  unfold SpanEvent.change at *
  rw [Vector.get_eq_getElem, Vector.getElem_ofFn]
  dsimp only at *
  split
  · simp_all
    omega
  · simp_all

/-- The oldest span event in flight is taken, and the overlay follows it. -/
theorem takeSpan_works {e : SpanEvent} {o : Vector Nat 256} (hs : Ready ok n s) (hhead : s.flight.spans.head? = some e)
    (ho : ∀ i : Fin 256, 0 ≤ (s.cvm.overlay.get i : Int) + SpanEvent.change i.val e →
      (o.get i : Int) = s.cvm.overlay.get i + SpanEvent.change i.val e) :
    Works ok n s ((s.setFlight { s.flight with spans := s.flight.spans.tail }).setCvm { s.cvm with overlay := o }) := by
  obtain ⟨rest, hspans⟩ : ∃ rest, s.flight.spans = e :: rest := List.head?_eq_some_iff.1 hhead
  refine ⟨⟨hs.slots.congr rfl, hs.within, hs.replies.congr rfl⟩, id, id, id, fun _ law => ?_, .refl _⟩
  have first (i : Fin 256) : (o.get i : Int) = s.cvm.overlay.get i + SpanEvent.change i.val e := by
    refine ho i ?_
    simpa [hspans, spanChange] using law.prefixes i 1
  refine ⟨fun i => ?_, fun i k => ?_⟩
  · have counted := law.counts i
    rw [hspans] at counted
    show (o.get i : Int) + spanChange i.val s.flight.spans.tail = shadowCount s i.val
    rw [first, hspans, ← counted]
    simp [spanChange, add_assoc]
  · have counted := law.prefixes i (k + 1)
    rw [hspans] at counted
    show 0 ≤ (o.get i : Int) + spanChange i.val (s.flight.spans.tail.take k)
    rw [first, hspans]
    simpa [spanChange, add_assoc] using counted

end

/-! ### The agent (R169 to R174) -/

/-- An entry whose result fits the room keeps the entries within the reply. -/
theorem Execution.fits.push {e : Execution} (h : e.fits) (hnext : e.entries.length < e.count) (st : Status)
    {r : List Byte} (hr : r.length ≤ e.room) : (e.push st r).fits := by
  obtain ⟨-, hcount, hroom⟩ := h
  refine ⟨?_, hcount, ?_⟩
  · rw [Execution.push_entries, List.length_append]
    exact hnext
  · show 4 + 4 * e.count + ((e.push st r).entries.map (·.result.length)).sum + (e.room - r.length) ≤ 1900
    rw [Execution.push_entries, List.map_append, List.sum_append]
    simp only [List.map_cons, List.map_nil, List.sum_cons, List.sum_nil]
    omega

theorem Execution.fits.settle {e : Execution} (n : Nat) (h : e.fits) : (Execution.settle n e).fits :=
  Execution.settle_preserves Execution.fits (fun _ st _ fits hnext => fits.push hnext st (Nat.zero_le _)) n e h

theorem fitResult_length (room : Nat) (st : Status) (r : List Byte) : (fitResult room st r).2.length ≤ room := by
  unfold fitResult
  split_ifs with h h'
  · exact Nat.zero_le _
  · exact h'
  · exact Nat.zero_le _

theorem Execution.fits.afterCommand {e : Execution} (h : e.fits) (hnext : e.entries.length < e.count) (st : Status)
    (r : List Byte) : (e.afterCommand st r).fits :=
  (h.push hnext _ (fitResult_length ..)).settle 16

theorem replyPayload_length (tag : Nat) (st : Status) (entries : List ReplyEntry) :
    (replyPayload tag st entries).length = 4 + 4 * entries.length + (entries.map (·.result.length)).sum := by
  have entry (x : ReplyEntry) : x.bytes.length = 4 + x.result.length := by
    simp [ReplyEntry.bytes, be1, be2]
    omega
  have flat : (entries.flatMap ReplyEntry.bytes).length = 4 * entries.length + (entries.map (·.result.length)).sum := by
    induction entries with
    | nil => rfl
    | cons x xs ih =>
      rw [List.flatMap_cons, List.length_append, ih, entry, List.map_cons, List.sum_cons, List.length_cons]
      omega
  simp [replyPayload, be1, be2, flat]
  omega

section
variable {ok : Body → Prop} {n : Nat} {s : State}

/-- A reply that is within 1,900 bytes, or any reply, meets the predicate (R171). -/
theorem reply_meets (rule : FrameRule ok n) {restart : Bool} (k : Kind) (down : Bool) (x y : Sid) {payload : List Byte}
    (h : (∀ restart bytes, ok (.originated (.reply restart) bytes)) ∨ payload.length ≤ 1900) :
    ok (.originated (.reply restart) (originatedBytes k down x y payload)) := by
  obtain h | h := h
  · exact h _ _
  · refine rule.reply _ _ ?_
    rw [originatedBytes_length]
    omega

/-- The agent's phase is replaced. -/
theorem setPhase_works (hs : Ready ok n s) (queue : List CommandFrame) {phase : Phase}
    (replies : RepliesMeet ok (s.setMga { queue := queue, phase := phase })) :
    Works ok n s (s.setMga { queue := queue, phase := phase }) :=
  .of_agent hs (setMga_agrees ..) (by decide) ((setMga_agrees ..).emits (by decide)) replies

theorem answer_works (rule : FrameRule ok n) (hs : Ready ok n s) (restart : Bool) (p : Port) (x y : Sid)
    {payload : List Byte}
    (h : (∀ restart bytes, ok (.originated (.reply restart) bytes)) ∨ payload.length ≤ 1900) :
    Works ok n s (answer restart p x y payload s) := by
  have phased : Works ok n s (s.setMga { s.mga with phase := if restart then .restartOrdered else .idle }) := by
    refine setPhase_works hs _ (.inr fun e he => ?_)
    cases restart <;> obtain he | he := he <;> cases he
  unfold answer
  refine phased.trans ?_
  dsimp only
  generalize s.setMga { s.mga with phase := if restart then .restartOrdered else .idle } = t
  intro hs
  split
  · exact .of_emits hs (handOff_agrees ..) (by decide) (handOff_emits (reply_meets rule _ _ _ _ h) _)
  · refine (Works.of_reported rule hs (portDownDrop_reported p t)).trans fun hs => ?_
    split
    · exact softRestart_works hs
    · exact .refl hs

theorem continueFrame_works (rule : FrameRule ok n) (hs : Ready ok n s) (restart : Bool) {e : Execution}
    (h : (∀ restart bytes, ok (.originated (.reply restart) bytes)) ∨ e.fits) :
    Works ok n s (continueFrame restart e s) := by
  unfold continueFrame
  split
  · refine answer_works rule hs restart _ _ _ (h.imp_right fun ⟨hle, hcount, hroom⟩ => ?_)
    rw [replyPayload_length]
    omega
  · rename_i hnext
    refine setPhase_works hs _ (h.imp_right fun fits x hx => ?_)
    obtain hx | hx := hx <;> cases hx
    exact ⟨Nat.not_le.1 hnext, fits⟩

theorem completeCommand_works (rule : FrameRule ok n) (hs : Ready ok n s) (restart : Bool) {e : Execution} (st : Status)
    (r : List Byte) (he : s.mga.phase = .executing e ∨ s.mga.phase = .held e) :
    Works ok n s (completeCommand restart e st r s) :=
  continueFrame_works rule hs restart (hs.replies.imp_right fun fits => (fits e he).2.afterCommand (fits e he).1 st r)

theorem beginFrame_works (rule : FrameRule ok n) (hs : Ready ok n s) (f : CommandFrame) :
    Works ok n s (beginFrame f s) := by
  unfold beginFrame
  split
  · exact answer_works rule hs false _ _ _ (.inr (by simp [replyPayload_length]))
  · rename_i hcount
    refine continueFrame_works rule hs false (.inr (Execution.fits.settle 16 ⟨Nat.zero_le _, ?_, ?_⟩))
    · show f.count ≤ 16
      omega
    · show 4 + 4 * f.count + 0 + (1900 - 4 - 4 * f.count) ≤ 1900
      omega

/-- A command is taken where the agent has come to it, and leaves the part as it is elsewhere (R170). -/
theorem takeCommand_cases (i : Instr) (run : Nat → State → Taken) (s : State) :
    takeCommand i run s = s ∨ ∃ e, Awaits s e i ∧ takeCommand i run s =
      completeCommand false e (run e.room s).status (run e.room s).result (run e.room s).state := by
  by_cases h : ∃ e, Awaits s e i
  · obtain ⟨e, he⟩ := h
    exact .inr ⟨e, he, takeCommand_of_awaits he⟩
  · exact .inl (takeCommand_of_not_awaits fun e he => h ⟨e, he⟩)

theorem takeCommand_works (rule : FrameRule ok n) (hs : Ready ok n s) {i : Instr} {run : Nat → State → Taken}
    {c : List Field} (h : ∀ room, Agrees c s (run room s).state) (hc : Field.mga ∉ c)
    (works : ∀ room, Works ok n s (run room s).state) : Works ok n s (takeCommand i run s) := by
  obtain e | ⟨e, ha, heq⟩ := takeCommand_cases i run s
  · rw [e]
    exact .refl hs
  · rw [heq]
    refine (works e.room).trans fun hs => completeCommand_works rule hs false _ _ (.inl ?_)
    have same : (run e.room s).state.mga = s.mga := (h e.room).same .mga hc
    rw [same]
    exact ha.1

end

end Sys2Proof.Machine
end

section
/-! The received frames, the frame store and the management commands as operations of the part, and with them every
command of the table (`exec_works`). -/

namespace Sys2Proof.Machine

section
variable {ok : Body → Prop} {n : Nat} (rule : FrameRule ok n) {s : State}
include rule

/-! ### Received frames (spec 2.2 to 2.5) -/

omit rule in
theorem bound_of_boundLink {x : Sid} {l : LinkNo} (h : boundLink s x = some l) : (s.link l).state ≠ .unbound := by
  have found := List.find?_some h
  rw [Bool.and_eq_true] at found
  exact bne_iff_ne.1 found.1

omit rule in
theorem offer_works (hs : Ready ok n s) (b : BucketNo) (len : Nat) (p : Port) : Works ok n s (offer b len p s).2 :=
  .of_agrees hs (offer_agrees ..) (by decide)

theorem learn_works (hs : Ready ok n s) (sid : Sid) (q : QPort) (g : Nat) : Works ok n s (learn sid q g s) :=
  .of_emits hs (learn_agrees ..) (by decide) (learn_emits rule.short ..)

omit rule in
theorem forwardAsData_works (hs : Ready ok n s) {f : Frame} (hf : ok (.forwarded f.bytes)) (d : Domain) :
    Works ok n s (forwardAsData f d s) := .of_emits hs (forwardAsData_agrees ..) (by decide) (handOff_emits hf _)

theorem forwardLearning_works (hs : Ready ok n s) {f : Frame} (hf : ok (.forwarded f.bytes)) (q : QPort) (d : Domain) :
    Works ok n s (forwardLearning f q d s) :=
  (learn_works rule hs f.station q f.grade).trans fun hs => forwardAsData_works hs hf d

theorem steer_works (hs : Ready ok n s) {f : Frame} (hf : ok (.forwarded f.bytes)) (d : Fin 8) (p : Port) :
    Works ok n s (steer f d p s) := .of_emits hs (steer_agrees ..) (by decide) (steer_emits rule.short hf ..)

theorem takeReport_works (hs : Ready ok n s) {f : Frame} (hf : ok (.forwarded f.bytes)) (p trunk : Port) :
    Works ok n s (takeReport f p trunk s) :=
  .of_consolidates rule hs (takeReport_agrees ..) (by decide) (takeReport_consolidates rule.short hf ..)

theorem acceptCommand_works (hs : Ready ok n s) (f : Frame) (p : Port) (x : Sid) :
    Works ok n s (acceptCommand f p x s) := by
  unfold acceptCommand
  split_ifs
  · exact .of_reported rule hs ((addDrop_reported ..).trans (raise_reported _ _ rfl))
  · exact .of_reported rule hs (addDrop_reported ..)
  · exact .of_reported rule hs ((addDrop_reported ..).trans (raise_reported _ _ rfl))
  · exact setPhase_works hs _ hs.replies

theorem receiveCommand_works (hs : Ready ok n s) (f : Frame) (p : Port) (x : Sid) :
    Works ok n s (receiveCommand f p x s) :=
  (Works.of_reported rule hs (bump_reported p Ctr.rxManagement 1 s)).trans fun hs => acceptCommand_works rule hs f p x

theorem dispatchUplink_works (hs : Ready ok n s) {f : Frame} (hf : ok (.forwarded f.bytes)) (q : QPort) (c : IdClass) :
    Works ok n s (dispatchUplink f q c s) := by
  unfold dispatchUplink
  dsimp only
  split
  · split
    · rename_i hl
      have hbound := bound_of_boundLink hl
      exact .of_eventAt hs (uplinkControl_agrees ..) (by decide) (uplinkControl_eventAt f q _ hbound)
        (uplinkControl_carries rule.short hf q _ hbound hs.slots)
    · exact forwardLearning_works rule hs hf ..
  · split
    · rename_i hl
      have hbound := bound_of_boundLink hl
      exact .of_eventAt hs (positionReport_agrees ..) (by decide) (positionReport_eventAt f _ hbound)
        (positionReport_carries rule.short f _ hbound hs.slots)
    · exact learn_works rule hs ..
  · split
    · exact takeReport_works rule hs hf ..
    · exact forwardLearning_works rule hs hf ..
  · exact forwardLearning_works rule hs hf ..
  all_goals exact forwardAsData_works hs hf _

theorem policed_works (hs : Ready ok n s) (f : Frame) (q : QPort) {next : State → State}
    (h : ∀ t, Ready ok n t → Works ok n t (next t)) : Works ok n s (policed f q next s) := by
  unfold policed
  refine (offer_works hs (ingressBucket q (kindGroup f.kind)) f.length (QPort.port q)).trans fun hs => ?_
  dsimp only
  split
  · exact h _ hs
  · exact .of_reported rule hs (dropAt_reported ..)

theorem dropUnclassified_works (hs : Ready ok n s) (f : Frame) : Works ok n s (dropUnclassified f s) :=
  .of_reported rule hs ((addDrop_reported ..).trans (raise_reported _ _ rfl))

theorem receiveUplink_works (hs : Ready ok n s) {f : Frame} (hf : ok (.forwarded f.bytes)) (q : QPort) :
    Works ok n s (receiveUplink f q s) := by
  unfold receiveUplink
  split
  · exact policed_works rule hs f q fun t ht => receiveCommand_works rule ht ..
  · split
    · exact dropUnclassified_works rule hs f
    · split
      · exact .of_reported rule hs (addDrop_reported ..)
      · exact policed_works rule hs f q fun t ht => dispatchUplink_works rule ht hf ..

theorem dispatchDownlink_works (hs : Ready ok n s) {f : Frame} (hf : ok (.forwarded f.bytes)) (p : Port) (c : IdClass) :
    Works ok n s (dispatchDownlink f p c s) := by
  unfold dispatchDownlink
  split
  · split
    · exact .of_eventAt hs (downlinkControl_agrees ..) (by decide) (downlinkControl_eventAt f p)
        (downlinkControl_carries rule.short hf p hs.slots)
    · exact steer_works rule hs hf ..
  all_goals exact steer_works rule hs hf ..

theorem receiveDownlink_works (hs : Ready ok n s) {f : Frame} (hf : ok (.forwarded f.bytes)) (p : Port) :
    Works ok n s (receiveDownlink f p s) := by
  unfold receiveDownlink
  split
  · exact receiveCommand_works rule hs ..
  · split
    · exact dropUnclassified_works rule hs f
    · split_ifs
      · exact .of_reported rule hs (addDrop_reported ..)
      · exact .of_reported rule hs ((addDrop_reported ..).trans (raise_reported _ _ rfl))
      · exact dispatchDownlink_works rule hs hf ..

theorem receiveForm_works (hs : Ready ok n s) (p : Port) {bytes : List Byte} (hf : ok (.forwarded bytes)) (k : Kind) :
    Works ok n s (receiveForm p bytes k s) := by
  unfold receiveForm
  dsimp only
  split_ifs
  · exact .of_reported rule hs (dropAt_reported ..)
  · exact .of_reported rule hs (dropAt_reported ..)
  · exact .of_reported rule hs (dropAt_reported ..)
  · split
    · exact receiveUplink_works rule hs hf _
    · exact receiveDownlink_works rule hs hf p

theorem countReceived_works (hs : Ready ok n s) (p : Port) (bytes : List Byte) :
    Works ok n s (countReceived p bytes s) :=
  (Works.of_reported rule hs ((bump_reported ..).trans (bump_reported ..))).trans fun hs =>
    .of_agrees hs (setPort_agrees ..) (by decide)

theorem receiveFrame_works (hs : Ready ok n s) (p : Port) (raw : List Byte) : Works ok n s (receiveFrame p raw s) := by
  unfold receiveFrame
  split
  · exact .of_reported rule hs (dropAt_reported ..)
  · rename_i hpass
    have hlen : 64 ≤ (frameBody raw).length ∧ (frameBody raw).length ≤ 2048 := by
      simp only [passesFrameCheck, Bool.not_eq_false, Bool.and_eq_true, decide_eq_true_eq] at hpass
      exact ⟨hpass.1.2, hpass.2⟩
    have counted := countReceived_works rule hs p (frameBody raw)
    split
    · exact counted.trans fun hs => .of_reported rule hs (dropAt_reported ..)
    · exact counted.trans fun hs => receiveForm_works rule hs p (rule.forwarded _ hlen.1 hlen.2) _

/-! ### Usability (R21) -/

theorem announceDown_works (hs : Ready ok n s) (p : Port) (c : Cause) : Works ok n s (announceDown p c s) :=
  (Works.of_flight hs { s.flight with
    stationDowns := s.flight.stationDowns ++ [p]
    queueDowns := s.flight.queueDowns ++ [p]
    linkEvents := s.flight.linkEvents ++
      ((List.finRange 24).filter (fun l => (s.link l).state != .unbound)).map (fun l => ⟨false, l, p⟩) }
    (fun _ => id) rfl).trans fun hs => .of_reported rule hs (raise_reported _ _ rfl)

theorem announceUp_works (hs : Ready ok n s) (p : Port) (c : Cause) : Works ok n s (announceUp p c s) :=
  (Works.of_flight hs { s.flight with
    linkEvents := s.flight.linkEvents ++
      ((List.finRange 24).filter (fun l => (s.link l).state != .unbound)).map (fun l => ⟨true, l, p⟩) }
    (fun _ => id) rfl).trans fun hs => .of_reported rule hs (raise_reported _ _ rfl)

theorem changePort_works (hs : Ready ok n s) (p : Port) (r : PortRec) (c : Cause) :
    Works ok n s (changePort p r c s) := by
  have written : Works ok n s (s.setPort p r) := .of_agrees hs (setPort_agrees ..) (by decide)
  unfold changePort
  dsimp only
  split
  · split
    · exact written.trans fun hs => announceDown_works rule hs p c
    · exact written.trans fun hs => announceUp_works rule hs p c
    · exact written
    · exact written
  · exact written

/-! ### The frame store (chapter 8) -/

omit rule in
theorem select_works (hs : Ready ok n s) (p : Port) : Works ok n s (select p s) :=
  .of_agrees hs (select_agrees ..) (by decide)

omit rule in
theorem pushEntry_works (hs : Ready ok n s) (e : Entry) (d : Port × QClass) : Works ok n s (pushEntry e s d) :=
  .of_agrees hs (pushEntry_agrees ..) (by decide)

theorem storeFrame_works (hs : Ready ok n s) (r : EnqueueRequest) (ds : List (Port × QClass)) :
    Works ok n s (storeFrame r ds s) := by
  have stored (x : Fsq) : Works ok n s (s.setFsq x) := .of_agrees hs (setFsq_agrees ..) (by decide)
  have pushed (x : Fsq) (e : Entry) : Works ok n s (presentPoolLow (ds.foldl (pushEntry e) (s.setFsq x))) :=
    ((stored x).trans fun hs => Works.foldl (fun _ d ht => pushEntry_works ht e d) ds hs).trans fun hs =>
      .of_reported rule hs (presentPoolLow_reported _)
  exact (pushed _ _).trans fun hs => Works.foldl (fun _ d ht => select_works ht d.1) ds hs

omit rule in
theorem setNtu_works (hs : Ready ok n s) {x : Ntu} (h : x.sources = s.ntu.sources) : Works ok n s (s.setNtu x) :=
  ⟨⟨hs.slots.congr rfl, hs.within, hs.replies.congr rfl⟩, id,
    fun law k => by rw [State.source, State.setNtu_ntu, h]; exact law k, id, fun _ law => law.congr rfl rfl rfl, .refl _⟩

omit rule in
theorem admissionEvent_works (hs : Ready ok n s) (o : Origin) (admitted : Bool) :
    Works ok n s (admissionEvent o admitted s) := by
  unfold admissionEvent
  split
  · exact setNtu_works hs rfl
  · exact setNtu_works hs rfl
  · exact softRestart_works hs
  all_goals exact .refl hs

theorem takeFrame_works (hs : Ready ok n s) (r : EnqueueRequest) : Works ok n s (takeFrame r s) := by
  have counted : Works ok n s
      (r.queues.foldl (fun t d => countRefusal d (judgeQueue s r.kind (cellsOf r.body.length) d) t) s) :=
    Works.foldl (fun t d ht => .of_reported rule ht (countRefusal_reported ..)) _ hs
  unfold takeFrame
  dsimp only
  split
  · exact counted.trans fun hs => admissionEvent_works hs ..
  · exact (counted.trans fun hs => storeFrame_works rule hs ..).trans fun hs => admissionEvent_works hs ..

theorem batchDiscarded_works (hs : Ready ok n s) : Works ok n s (batchDiscarded s) :=
  .of_consolidates rule hs (batchDiscarded_agrees s) (by decide) (batchDiscarded_consolidates rule.short s)

theorem takeBatch_works (hs : Ready ok n s) (r : EnqueueRequest) : Works ok n s (takeBatch r s) := by
  unfold takeBatch
  split
  · exact .refl hs
  · split
    · exact (pushEntry_works hs _ _).trans fun hs => select_works hs _
    · exact (Works.of_reported rule hs (portDownDrop_reported _ s)).trans fun hs => batchDiscarded_works rule hs

theorem takeEnqueue_works (hs : Ready ok n s) (r : EnqueueRequest) : Works ok n s (takeEnqueue r s) := by
  unfold takeEnqueue
  split
  · exact takeBatch_works rule hs r
  all_goals exact takeFrame_works rule hs r

omit rule in
theorem releaseEntry_works (hs : Ready ok n s) (e : Entry) : Works ok n s (releaseEntry s e) :=
  .of_agrees hs (releaseEntry_agrees ..) (by decide)

omit rule in
theorem setWire_agrees (x : List (Port × List Byte)) (s : State) : Agrees [.wire] s { s with wire := x } := by
  refine ⟨fun f hf => ?_⟩
  cases f with
  | wire => exact absurd (List.mem_singleton.2 rfl) hf
  | _ => rfl

end

end Sys2Proof.Machine
end

section
/-! Every command of the table as an operation of the part (`exec_works`). -/

namespace Sys2Proof.Machine

section
variable {ok : Body → Prop} {n : Nat} (rule : FrameRule ok n) {s : State}
include rule

/-! ### Transmission and discards (spec 8.3, 8.4) -/

/-- A transmission that has ended, before its counts: the frame has left, and its entry and its cells are released
(R146 steps 1 and 2). -/
def transmissionEnded (p : Port) (cls : QClass) (e : Entry) (rest : List Entry) (s : State) : State :=
  releaseEntry (({ s with wire := s.wire ++ [(p, entryBytes s e ++ fcsBytes (entryBytes s e))] } : State).setQueues p
    { (s.queues p).set cls { (s.queues p).get cls with entries := rest } with sending := none }) e

/-- The counts of a transmission (R146 step 3). -/
def transmissionCounted (p : Port) (e : Entry) (s : State) : State :=
  bump p Ctr.txBytes e.length (bump p Ctr.txFrames 1 (presentPoolLow s))

omit rule in
theorem endTransmission_eq (p : Port) (cls : QClass) (e : Entry) (rest : List Entry) (s : State) :
    endTransmission p cls e rest s =
      let t := transmissionCounted p e (transmissionEnded p cls e rest s)
      let u := if e.isBatch then batchTransmitted t else t
      if isRestartReply s e then softRestart u else select p u := rfl

omit rule in
theorem transmissionCounted_reported (p : Port) (e : Entry) (s : State) : Reported s (transmissionCounted p e s) :=
  ((presentPoolLow_reported s).trans (bump_reported ..)).trans (bump_reported ..)

theorem endTransmission_works (hs : Ready ok n s) (p : Port) (cls : QClass) (e : Entry) (rest : List Entry) :
    Works ok n s (endTransmission p cls e rest s) := by
  have ended : Works ok n s (transmissionEnded p cls e rest s) :=
    ((Works.of_agrees hs (setWire_agrees _ s) (by decide)).trans fun hs =>
      .of_agrees hs (setQueues_agrees ..) (by decide)).trans fun hs => releaseEntry_works hs e
  have counted := ended.trans fun hs => Works.of_reported rule hs (transmissionCounted_reported p e _)
  rw [endTransmission_eq]
  dsimp only
  generalize transmissionCounted p e (transmissionEnded p cls e rest s) = t at counted
  have batched : Works ok n s (if e.isBatch then batchTransmitted t else t) := by
    split
    · exact counted.trans fun hs =>
        .of_consolidates rule hs (batchTransmitted_agrees t) (by decide) (batchTransmitted_consolidates rule.short t)
    · exact counted
  split
  · exact batched.trans fun hs => softRestart_works hs
  · exact batched.trans fun hs => select_works hs p

/-- The queues of a port emptied and the stored frames of their entries released (R147 steps 1 and 2). -/
def portEmptied (p : Port) (s : State) : State :=
  (s.queues p).entries.foldl releaseEntry (s.setQueues p (s.queues p).emptied)

/-- The counts of a discard (R147). -/
def discardCounted (p : Port) (aborted others : Nat) (s : State) : State :=
  bump p Ctr.txPortDown others (addDrop Drop.portDown others
    (bump p Ctr.txAborted aborted (addDrop Drop.portDown aborted (presentPoolLow s))))

/-- The number of entries of a port whose transmission is in progress (R147). -/
def abortedAt (p : Port) (s : State) : Nat := if (s.queues p).sending.isSome then 1 else 0

omit rule in
theorem discardPort_eq (p : Port) (s : State) :
    discardPort p s =
      let t := discardCounted p (abortedAt p s) ((s.queues p).entries.length - abortedAt p s) (portEmptied p s)
      let u := if (s.queues p).entries.any Entry.isBatch then batchDiscarded t else t
      if (s.queues p).entries.any (isRestartReply s) then softRestart u else u := rfl

omit rule in
theorem discardCounted_reported (p : Port) (a b : Nat) (s : State) : Reported s (discardCounted p a b s) :=
  ((((presentPoolLow_reported s).trans (addDrop_reported ..)).trans (bump_reported ..)).trans
    (addDrop_reported ..)).trans (bump_reported ..)

theorem discardPort_works (hs : Ready ok n s) (p : Port) : Works ok n s (discardPort p s) := by
  have emptied : Works ok n s (portEmptied p s) :=
    (Works.of_agrees hs (setQueues_agrees p (s.queues p).emptied s) (by decide)).trans fun hs =>
      Works.foldl (fun _ e ht => releaseEntry_works ht e) _ hs
  have counted := emptied.trans fun hs => Works.of_reported rule hs
    (discardCounted_reported p (abortedAt p s) ((s.queues p).entries.length - abortedAt p s) _)
  rw [discardPort_eq]
  dsimp only
  generalize discardCounted p _ _ (portEmptied p s) = t at counted
  have batched : Works ok n s (if (s.queues p).entries.any Entry.isBatch then batchDiscarded t else t) := by
    split
    · exact counted.trans fun hs => batchDiscarded_works rule hs
    · exact counted
  split
  · exact batched.trans fun hs => softRestart_works hs
  · exact batched

/-! ### The map and the commands at the owners -/

omit rule in
@[simp] theorem Cvm.setShadow_overlay (c : Cvm) (b : Bank) : (c.setShadow b).overlay = c.overlay := by
  unfold Cvm.setShadow
  split <;> rfl

omit rule in
theorem awaits_of_executionAt {i : Instr} {e : Execution} (h : executionAt i s = some e) : Awaits s e i := by
  unfold executionAt at h
  split at h
  · rename_i hphase
    split at h <;> cases h
    rename_i ha
    exact ⟨hphase, ha⟩
  all_goals cases h

omit rule in
/-- The COMMIT-MAP in progress is held until the swap (R12). -/
theorem execCommitMap_works (hs : Ready ok n s) {t : State} (h : execCommitMap s = .next t) : Works ok n s t := by
  cases h
  cases hat : executionAt .commitMap s with
  | none => exact .refl hs
  | some e =>
    refine (Works.setCvm hs (c := { s.cvm with swapPending := true }) rfl).trans fun hs => setPhase_works hs _ ?_
    refine hs.replies.imp_right fun fits x hx => ?_
    obtain hx | hx := hx <;> cases hx
    exact fits e (.inl (awaits_of_executionAt hat).1)

theorem completeCommit_works (hs : Ready ok n s) : Works ok n s (completeCommit s) := by
  unfold completeCommit
  split
  · rename_i e he
    exact completeCommand_works rule hs false _ _ (.inr he)
  all_goals exact .refl hs

omit rule in
theorem sendMapSwapped_works (hs : Ready ok n s) : Works ok n s (sendMapSwapped s) := .of_flight hs _ (fun _ => id) rfl

theorem swapMap_works (hs : Ready ok n s) : Works ok n s (swapMap s) :=
  ((((Works.setCvm hs (c := s.cvm.swapped) rfl).trans fun hs => .of_reported rule hs (raise_reported _ _ rfl)).trans
    fun hs => .of_reported rule hs (presentMapInvalid_reported _)).trans fun hs => sendMapSwapped_works hs).trans
    fun hs => completeCommit_works rule hs

theorem execRestart_works (hs : Ready ok n s) {t : State} (h : execRestart s = .next t) : Works ok n s t := by
  cases h
  cases hat : executionAt .restart s with
  | none => exact .refl hs
  | some e =>
    dsimp only
    split <;> exact completeCommand_works rule hs _ _ _ (.inl (awaits_of_executionAt hat).1)

/-- A command whose effect leaves what the laws read. -/
theorem takeCommand_works_of_agrees (hs : Ready ok n s) {i : Instr} {run : Nat → State → Taken} {c : List Field}
    (h : ∀ room, Agrees c s (run room s).state)
    (hc : ((Field.links ∉ c ∧ Field.rcn ∉ c ∧ Field.cvm ∉ c) ∧ Field.mga ∉ c) ∧ Field.flight ∉ c ∧ Field.ntu ∉ c) :
    Works ok n s (takeCommand i run s) :=
  takeCommand_works rule hs h hc.1.2 fun room => .of_agrees hs (h room) hc

theorem takeSetPort_works (hs : Ready ok n s) (p m q o : Nat) : Works ok n s (takeSetPort p m q o s).state := by
  unfold takeSetPort
  split
  · exact .refl hs
  · dsimp only
    split
    · split
      · exact .refl hs
      · exact changePort_works rule hs ..
    · exact .refl hs

theorem removeDynamicOf_works (hs : Ready ok n s) (x : Sid) : Works ok n s (removeDynamicOf x s) :=
  .of_emits hs (removeDynamicOf_agrees ..) (by decide) (removeDynamicOf_emits rule.short ..)

theorem takeSetStation_works (hs : Ready ok n s) (x : Sid) (p : Nat) : Works ok n s (takeSetStation x p s).state := by
  have written (q : QPort) (k : Nat) : Works ok n s (writeStatic x q k s).state :=
    (Works.of_agrees hs (setStt_agrees ..) (by decide)).trans fun hs => removeDynamicOf_works rule hs x
  unfold takeSetStation
  split
  · exact .refl hs
  · split
    · exact .refl hs
    · exact written ..
    · split
      · exact .refl hs
      · exact written ..

theorem takeClearStation_works (hs : Ready ok n s) (x : Sid) : Works ok n s (takeClearStation x s).state := by
  unfold takeClearStation
  split
  · exact .refl hs
  · exact .of_agrees hs (setStt_agrees ..) (by decide)
  · split
    · exact .refl hs
    · exact .of_emits hs (removeDynamic_agrees ..) (by decide) (removeDynamic_emits rule.short ..)

theorem takeSetCrane_works (hs : Ready ok n s) (l : Nat) (x : Sid) (pf : Nat) (p : Sid)
    (home per lt lp hd r b o : Nat) : Works ok n s (takeSetCrane l x pf p home per lt lp hd r b o s).state := by
  unfold takeSetCrane
  split
  · split
    · exact .refl hs
    · split
      · exact .refl hs
      · rename_i hargs
        have inRange (peer : Option Sid) (q : QPort) : (craneConfig x peer q per lt lp hd).inRange :=
          craneConfig_inRange _ _ _ _ _ _ fun h => hargs (.inl h)
        dsimp only
        split
        · rename_i hunbound
          unfold takeBinding
          split
          · exact .refl hs
          · split
            · exact .refl hs
            · split
              · exact .refl hs
              · exact .refl hs
              · rename_i u hbind
                have bound : Works ok n s u :=
                  .of_emits hs (bindStation_agrees hbind) (by decide) (bindStation_emits rule.short hbind)
                refine bound.trans fun hs => ?_
                refine Works.of_eventAt hs (bindLink_agrees ..) (by decide) (fun _ => bindLink_eventAt _ _ _ (inRange ..) ?_)
                  (bindLink_carries rule.short _ _ _ _ hs.slots)
                have links : u.links = s.links := (bindStation_agrees hbind).same .links (by decide)
                unfold State.link at *
                rwa [links]
        · split
          · exact Works.of_eventAt hs (updateLink_agrees ..) (by decide) (updateLink_eventAt _ _ _ (inRange ..))
              (updateLink_carries rule.short _ _ _ _ hs.slots)
          · exact .refl hs
  · exact .refl hs

omit rule in
theorem linkCounts_works (hs : Ready ok n s) (l : LinkNo) (f : LinkCounts → LinkCounts) :
    Works ok n s (s.linkCounts l f) :=
  .of_eventAt hs (linkCounts_agrees ..) (by decide) (linkCounts_eventAt f) (linkCounts_carries f hs.slots)

omit rule in
theorem unbindLink_agrees (l : LinkNo) (s : State) : Agrees [.stt, .links, .ntu, .ctb, .flight] s (unbindLink l s) := by
  unfold unbindLink
  dsimp only
  split
  · exact ((((sendSpanFor_agrees ..).mono (by decide)).step (unbindStation_agrees ..)).step
      (setLink_agrees ..)).step (presentUncovered_agrees _)
  · exact (((unbindStation_agrees ..).mono (by decide)).step (setLink_agrees ..)).step (presentUncovered_agrees _)

theorem takeClearCrane_works (hs : Ready ok n s) (l : Nat) : Works ok n s (takeClearCrane l s).state := by
  unfold takeClearCrane
  split
  · split
    · exact .refl hs
    · exact .of_eventAt hs (unbindLink_agrees _ s) (by decide) (fun _ => unbindLink_eventAt _ s)
        (unbindLink_carries rule.short hs.slots)
  · exact .refl hs

omit rule in
theorem takeReadCrane_works (hs : Ready ok n s) (l c : Nat) : Works ok n s (takeReadCrane l c s).state := by
  unfold takeReadCrane
  split
  · rename_i hl
    have cleared : Works ok n s (if flagSet c then s.linkCounts ⟨l, hl⟩ (fun _ => .zero) else s) := by
      split
      · exact linkCounts_works hs _ _
      · exact .refl hs
    dsimp only
    split
    · exact cleared
    · refine cleared.trans ?_
      dsimp only [taken]
      generalize (if flagSet c then s.linkCounts ⟨l, hl⟩ (fun _ => .zero) else s) = t
      intro hs
      split
      · exact .of_agrees hs (useFree_agrees ..) (by decide)
      · exact .refl hs
  · exact .refl hs

omit rule in
theorem takeSetWindow_works (hs : Ready ok n s) (a b c d o x : Nat) : Works ok n s (takeSetWindow a b c d o x s).state := by
  unfold takeSetWindow
  split
  · exact .refl hs
  · split
    · exact .refl hs
    · exact .setCvm hs rfl

omit rule in
theorem takeStreamCells_works (hs : Ready ok n s) (c k : Nat) (v : List CellValue) :
    Works ok n s (takeStreamCells c k v s).state := by
  unfold takeStreamCells
  split
  · exact .refl hs
  · exact .setCvm hs (Cvm.setShadow_overlay ..)

omit rule in
theorem takeReadCells_works (hs : Ready ok n s) (b c k room : Nat) : Works ok n s (takeReadCells b c k room s).state := by
  unfold takeReadCells
  split_ifs
  · exact .refl hs
  · exact .refl hs
  · dsimp only
    split
    · exact .refl hs
    · exact .setCvm hs rfl

omit rule in
theorem writeRate_works (hs : Ready ok n s) (b : BucketNo) (r x o : Nat) : Works ok n s (writeRate b r x o s) := by
  unfold writeRate
  dsimp only
  split
  · exact .of_agrees hs (setBucket_agrees ..) (by decide)
  · exact (Works.of_agrees hs (setBucket_agrees ..) (by decide)).trans fun hs => select_works hs _

theorem takeSetReserve_works (hs : Ready ok n s) (r c : Nat) : Works ok n s (takeSetReserve r c s).state := by
  have written (x : Fsq) : Works ok n s (s.setFsq x) := .of_agrees hs (setFsq_agrees ..) (by decide)
  unfold takeSetReserve
  dsimp only [taken]
  refine Works.trans ?_ fun hs => .of_reported rule hs (presentPoolLow_reported _)
  split
  · exact (written _).trans fun hs => .of_agrees hs (setFsq_agrees ..) (by decide)
  · exact written _

/-! ### The notice commands (R161 to R163) -/

omit rule in
theorem keepOr_inRange {old m : Nat} (h : 1 ≤ old ∧ old ≤ 7) : 1 ≤ keepOr 0 1 7 old m ∧ keepOr 0 1 7 old m ≤ 7 := by
  unfold keepOr clampTo
  split <;> omega

/-- A source with its mask and level written (R161). -/
def Source.written (x : Source) (m : Option Bool) (level : Nat) : Source :=
  { x with masked := m.getD x.masked, level := keepOr 0 1 7 x.level level }

section
variable {k : SourceNo} {x : Source} (m : Option Bool) (level : Nat)
omit rule

theorem Source.lawful.written_ranges (h : x.lawful k) :
    1 ≤ (x.written m level).level ∧ (x.written m level).level ≤ 7 ∧ (x.written m level).count ≤ 255 :=
  have hlevel := keepOr_inRange (m := level) ⟨h.ranges.1, h.ranges.2.1⟩
  ⟨hlevel.1, hlevel.2, h.ranges.2.2⟩

theorem Source.lawful.written_same (h : x.lawful k) (hs : (x.written m level).status = x.status) :
    (x.written m level).lawful k :=
  ⟨h.written_ranges m level, fun hk => ⟨(h.level hk).1, (h.level hk).2.trans hs.symm⟩, h.edge⟩

theorem Source.lawful.written_set (h : x.lawful k) (hs : (x.written m level).status = true) (n : Nat) :
    (if isLevelSource k then { x.written m level with holdoff := some n } else x.written m level).lawful k := by
  split
  · rename_i hk
    exact ⟨h.written_ranges m level, fun _ => ⟨(h.level hk).1, hs.symm⟩, fun hn => absurd hk (by simp [hn])⟩
  · rename_i hk
    exact ⟨h.written_ranges m level, fun hl => absurd hl hk, h.edge⟩

theorem Source.lawful.written_stopped (h : x.lawful k) (hs : (x.written m level).status = false) :
    { x.written m level with holdoff := none }.lawful k :=
  ⟨h.written_ranges m level, fun hk => ⟨(h.level hk).1, hs.symm⟩, fun hk => ⟨rfl, (h.edge hk).2⟩⟩

/-- The three cases of a write of a source (R159, R161). -/
theorem writeNotice_eq (m : Option Bool) (level : Nat) (k : SourceNo) (s : State) :
    writeNotice m level k s =
      let x := s.source k
      let y := x.written m level
      if x.status = false ∧ y.status = true then
        issue k (s.setSource k (if isLevelSource k then { y with holdoff := some s.ntu.dest.holdoff } else y))
      else if x.status = true ∧ y.status = false then s.setSource k { y with holdoff := none }
      else s.setSource k y := rfl

end

theorem writeNotice_works (hs : Ready ok n s) (m : Option Bool) (level : Nat) (k : SourceNo) :
    Works ok n s (writeNotice m level k s) := by
  rw [writeNotice_eq]
  dsimp only
  split
  · rename_i hset
    exact .of_reported rule hs ((setSource_reported fun h => h.written_set m level hset.2 _).trans (issue_reported ..))
  · split
    · rename_i hstop
      exact .of_reported rule hs (setSource_reported fun h => h.written_stopped m level hstop.2)
    · rename_i hset hstop
      refine .of_reported rule hs (setSource_reported fun h => h.written_same m level ?_)
      cases h1 : (s.source k).status <;> cases h2 : ((s.source k).written m level).status <;> simp_all

theorem takeSetNotice_works (hs : Ready ok n s) (x m l : Nat) : Works ok n s (takeSetNotice x m l s).state := by
  unfold takeSetNotice
  split
  · exact Works.foldl (fun t k ht => writeNotice_works rule ht ..) _ hs
  · exact .refl hs

theorem issueAll_works (hs : Ready ok n s) : Works ok n s (issueAll s) :=
  Works.foldl (fun _ _ ht => .of_reported rule ht (issue_reported ..)) _ hs

theorem takeSetNoticeDest_works (hs : Ready ok n s) (p : Nat) (x : Sid) (t b y : Nat) :
    Works ok n s (takeSetNoticeDest p x t b y s).state := by
  have written (d : NoticeDest) : Works ok n s (s.setNtu { s.ntu with dest := d }) := setNtu_works hs rfl
  unfold takeSetNoticeDest
  split
  · exact .refl hs
  · exact .ite ((written _).trans fun hs => issueAll_works rule hs) (written _)

omit rule in
theorem takeReadNotice_works (hs : Ready ok n s) (x c : Nat) : Works ok n s (takeReadNotice x c s).state := by
  unfold takeReadNotice
  split
  · exact .refl hs
  · split
    · exact .refl hs
    · dsimp only [taken]
      split
      · exact setNtu_works hs rfl
      · exact .refl hs

theorem clearSource_works (hs : Ready ok n s) (k : SourceNo) : Works ok n s (clearSource k s) := by
  unfold clearSource
  split
  · exact .refl hs
  · rename_i hk
    exact .of_reported rule hs (setSource_reported fun h =>
      ⟨⟨h.ranges.1, h.ranges.2.1, Nat.zero_le _⟩, fun hl => absurd hl hk,
        fun hn => ⟨(h.edge hn).1, rfl, by simp⟩⟩)

theorem takeClearNotice_works (hs : Ready ok n s) (x : Nat) : Works ok n s (takeClearNotice x s).state := by
  unfold takeClearNotice
  split
  · exact .refl hs
  · exact Works.foldl (fun t k ht => clearSource_works rule ht k) _ hs

/-! ### The events -/

omit rule in
theorem stationLinkDown_works (hs : Ready ok n s) (q : QPort) : Works ok n s (stationLinkDown q s) :=
  .of_agrees hs (stationLinkDown_agrees ..) (by decide)

omit rule in
theorem execSttLinkDown_works (hs : Ready ok n s) {p : Port} {t : State} (h : execSttLinkDown p s = .next t) :
    Works ok n s t := by
  cases h
  split
  · have taken : Works ok n s (s.setFlight { s.flight with stationDowns := s.flight.stationDowns.erase p }) :=
      .of_flight hs _ (fun _ => id) rfl
    dsimp only
    split
    · exact taken
    · exact taken.trans fun hs => stationLinkDown_works hs _
  · exact .refl hs

omit rule in
theorem takeLinkEvent_works (hs : Ready ok n s) {e : LinkEvent} {t : State} (h : takeLinkEvent e s = some t) :
    Works ok n s t := by
  unfold takeLinkEvent at h
  split at h <;> cases h
  exact .of_flight hs _ (fun _ => id) rfl

theorem execClsLinkDown_works (hs : Ready ok n s) {l : LinkNo} {p : Port} {t : State}
    (h : execClsLinkDown l p s = .next t) : Works ok n s t := by
  cases h
  split
  · exact .refl hs
  · rename_i u hu
    exact ((takeLinkEvent_works hs hu).trans fun hs => .of_eventAt hs (linkDownAt_agrees l p u) (by decide)
      linkDownAt_eventAt (linkDownAt_carries hs.slots)).trans fun hs => .of_reported rule hs (presentUncovered_reported _)

theorem execClsLinkUp_works (hs : Ready ok n s) {l : LinkNo} {p : Port} {t : State}
    (h : execClsLinkUp l p s = .next t) : Works ok n s t := by
  cases h
  split
  · exact .refl hs
  · rename_i u hu
    exact ((takeLinkEvent_works hs hu).trans fun hs => .of_eventAt hs (linkUpAt_agrees l p u) (by decide)
      linkUpAt_eventAt (linkUpAt_carries hs.slots)).trans fun hs => .of_reported rule hs (presentUncovered_reported _)

theorem execMapSwappedReevaluation_works (hs : Ready ok n s) {l : LinkNo} {t : State}
    (h : execMapSwappedReevaluation l s = .next t) : Works ok n s t := by
  cases h
  refine .ite ?_ (.refl hs)
  exact (Works.of_flight hs { s.flight with reevaluations := s.flight.reevaluations.erase l } (fun _ => id) rfl).trans
    fun hs => .of_eventAt hs (reevaluate_agrees ..) (by decide) reevaluate_eventAt (reevaluate_carries rule.short hs.slots)

theorem execSupervisionExpiry_works (hs : Ready ok n s) {l : LinkNo} {t : State}
    (h : execSupervisionExpiry l s = .next t) : Works ok n s t := by
  cases h
  split
  · exact .refl hs
  · rename_i htimer
    exact .of_eventAt hs (superviseLink_agrees ..) (by decide) (fun law => superviseLink_eventAt law (by simp [htimer]))
      (superviseLink_carries rule.short hs.slots)

theorem execHoldExpiry_works (hs : Ready ok n s) {l : LinkNo} {t : State} (h : execHoldExpiry l s = .next t) :
    Works ok n s t := by
  cases h
  split
  · exact .refl hs
  · rename_i c _
    have written : Works ok n s (s.setLink l ((s.link l).holdExpired c)) :=
      .of_eventAt hs (setLink_agrees ..) (by decide) (fun law => .write (law.holdExpired c) rfl)
        (rewritten_carries hs.slots rfl)
    exact written.trans fun hs => .of_reported rule hs ((raise_reported _ _ rfl).trans (presentUncovered_reported _))

theorem execAgingTimerExpiry_works (hs : Ready ok n s) {t : State} (h : execAgingTimerExpiry s = .next t) :
    Works ok n s t := by
  have written (x : Stt) (t : State) (ht : Ready ok n t) : Works ok n t (t.setStt x) :=
    .of_agrees ht (setStt_agrees ..) (by decide)
  cases h
  split
  · exact .refl hs
  · refine (written _ _ hs).trans fun ht => .ite (written _ _ ht) (.ite (written _ _ ht) ?_)
    exact (written _ _ ht).trans fun hs => .of_reported rule hs (raise_reported _ _ rfl)

theorem execAgingSweepVisit_works (hs : Ready ok n s) {t : State} (h : execAgingSweepVisit s = .next t) :
    Works ok n s t := by
  cases h
  split
  · exact .refl hs
  · exact (Works.of_emits hs (ageAt_agrees ..) (by decide) (ageAt_emits rule.short ..)).trans fun hs =>
      .of_agrees hs (advanceAging_agrees ..) (by decide)

theorem execPurgeWalkVisit_works (hs : Ready ok n s) {t : State} (h : execPurgeWalkVisit s = .next t) :
    Works ok n s t := by
  cases h
  split
  · exact .refl hs
  · exact (Works.of_emits hs (purgeAt_agrees ..) (by decide) (purgeAt_emits rule.short ..)).trans fun hs =>
      .of_agrees hs (advancePurge_agrees ..) (by decide)

omit rule in
/-- A holdoff timer that runs is restarted (R158). -/
theorem Source.lawful.restarted {k : SourceNo} {x : Source} (h : x.lawful k) {a : Nat} (hrun : x.holdoff = some a)
    (b : Nat) : { x with holdoff := some b }.lawful k := by
  refine ⟨h.ranges, fun hk => ⟨(h.level hk).1, ?_⟩, fun hk => ?_⟩
  · have := (h.level hk).2
    rwa [hrun] at this
  · have := (h.edge hk).1
    rw [hrun] at this
    cases this

theorem execHoldoffExpiry_works (hs : Ready ok n s) {k : SourceNo} {t : State} (h : execHoldoffExpiry k s = .next t) :
    Works ok n s t := by
  cases h
  split
  · exact .refl hs
  · rename_i hrun
    exact .of_reported rule hs ((setSource_reported fun h => h.restarted hrun _).trans (issue_reported ..))

theorem execCoverageEpochExpiry_works (hs : Ready ok n s) {t : State} (h : execCoverageEpochExpiry s = .next t) :
    Works ok n s t := by
  cases h
  split
  · exact .refl hs
  · have restarted : Works ok n s (s.setCvm { s.cvm with epochTimer := some s.cvm.epochPeriod }) := .setCvm hs rfl
    exact .ite (restarted.trans fun hs => swapMap_works rule hs) restarted

omit rule in
theorem execAddSpan_works (hs : Ready ok n s) {g : Nat} {t : State} (h : execAddSpan g s = .next t) :
    Works ok n s t := by
  cases h
  unfold takeSpan
  by_cases hhead : s.flight.spans.head? = some (.add g)
  · rw [if_pos hhead]
    exact takeSpan_works hs hhead fun i _ => overlay_get_addSpan g _ i
  · rw [if_neg hhead]
    exact .refl hs

omit rule in
theorem execRemoveSpan_works (hs : Ready ok n s) {g : Nat} {t : State} (h : execRemoveSpan g s = .next t) :
    Works ok n s t := by
  cases h
  unfold takeSpan
  by_cases hhead : s.flight.spans.head? = some (.remove g)
  · rw [if_pos hhead]
    exact takeSpan_works hs hhead fun i hi => overlay_get_removeSpan hi
  · rw [if_neg hhead]
    exact .refl hs

theorem execEnqueue_works (hs : Ready ok n s) {k : Nat} {t : State} (h : execEnqueue k s = .next t) :
    Works ok n s t := by
  cases h
  split
  · exact .refl hs
  · refine (Works.of_flight hs { s.flight with enqueues := s.flight.enqueues.eraseIdx k } (fun r hr => ?_) rfl).trans
      fun hs => takeEnqueue_works rule hs _
    exact List.mem_of_mem_eraseIdx hr

theorem execTransmissionEnd_works (hs : Ready ok n s) {p : Port} {t : State} (h : execTransmissionEnd p s = .next t) :
    Works ok n s t := by
  cases h
  split
  · exact .refl hs
  · split
    · exact .of_agrees hs (setQueues_agrees ..) (by decide)
    · exact endTransmission_works rule hs ..

theorem execFsqLinkDown_works (hs : Ready ok n s) {p : Port} {t : State} (h : execFsqLinkDown p s = .next t) :
    Works ok n s t := by
  cases h
  refine .ite ?_ (.refl hs)
  exact (Works.of_flight hs { s.flight with queueDowns := s.flight.queueDowns.erase p } (fun _ => id) rfl).trans
    fun hs => discardPort_works rule hs p

omit rule in
theorem execRefillExpiry_works (hs : Ready ok n s) {b : BucketNo} {t : State} (h : execRefillExpiry b s = .next t) :
    Works ok n s t :=
  have touched : Agrees [.fsq] s t := exec_agrees (.refillExpiry b) h
  .of_agrees hs touched (by decide)

theorem execCommandFrameTake_works (hs : Ready ok n s) {t : State} (h : execCommandFrameTake s = .next t) :
    Works ok n s t := by
  unfold execCommandFrameTake at h
  split at h <;> cases h
  · rename_i f r _ _
    have taken : Works ok n s (s.setMga { s.mga with queue := r }) := setPhase_works hs r hs.replies
    exact taken.trans fun hs => beginFrame_works rule hs f
  · exact .refl hs

theorem execFrameReceived_works (hs : Ready ok n s) {p : Port} {raw : List Byte} {t : State}
    (h : execFrameReceived p raw s = .next t) : Works ok n s t := by
  cases h
  split
  · exact .refl hs
  · exact .refl hs
  · exact .of_reported rule hs (addDrop_reported ..)
  · exact receiveFrame_works rule hs p raw

theorem execInitializationEnd_works (hs : Ready ok n s) {t : State} (h : execInitializationEnd s = .next t) :
    Works ok n s t := by
  cases h
  refine .ite ?_ (.refl hs)
  exact ((setPart_works .running hs).trans startTimers_works).trans (presentAll_works rule)

theorem execRestartInitializationEnd_works (hs : Ready ok n s) {t : State}
    (h : execRestartInitializationEnd s = .next t) : Works ok n s t := by
  cases h
  refine .ite ?_ (.refl hs)
  exact (((setPart_works .running hs).trans startTimers_works).trans restartCellChecks_works).trans (presentAll_works rule)

/-! ### Every command -/

/-- Every command is an operation of the part. -/
theorem exec_works (hs : Ready ok n s) {i : Instr} {t : State} (h : exec i s = .next t) : Works ok n s t := by
  have reefers {f : State → Outcome} (hf : f s = .next t) (agrees : Agrees Field.reefers s t)
      (g : f s = .next t → Consolidates ok s t) : Works ok n s t :=
    .of_consolidates rule hs agrees (by decide) (g hf)
  cases i with
  | powerOnReset => cases h; exact hardValues_works _ _ rfl s
  | pinReset => cases h; exact hardValues_works _ _ rfl s
  | resetEnd msel addr => cases h; exact .ite (hardValues_works _ _ rfl s) (.refl hs)
  | initializationEnd => exact execInitializationEnd_works rule hs h
  | restartInitializationEnd => exact execRestartInitializationEnd_works rule hs h
  | phyLossOfLink p => cases h; exact changePort_works rule hs ..
  | phyLinkReport p => cases h; exact changePort_works rule hs ..
  | sttLinkDown p => exact execSttLinkDown_works hs h
  | clsLinkDown l p => exact execClsLinkDown_works rule hs h
  | clsLinkUp l p => exact execClsLinkUp_works rule hs h
  | fsqLinkDown p => exact execFsqLinkDown_works rule hs h
  | frameReceived p raw => exact execFrameReceived_works rule hs h
  | addSpan g => exact execAddSpan_works hs h
  | removeSpan g => exact execRemoveSpan_works hs h
  | coverageEpochExpiry => exact execCoverageEpochExpiry_works rule hs h
  | mapSwappedReevaluation l => exact execMapSwappedReevaluation_works rule hs h
  | supervisionExpiry l => exact execSupervisionExpiry_works rule hs h
  | holdExpiry l => exact execHoldExpiry_works rule hs h
  | agingTimerExpiry => exact execAgingTimerExpiry_works rule hs h
  | agingSweepVisit => exact execAgingSweepVisit_works rule hs h
  | purgeWalkVisit => exact execPurgeWalkVisit_works rule hs h
  | reportPeriodExpiry => exact reefers h (exec_agrees _ h) (execReportPeriodExpiry_consolidates rule.short)
  | supervisionSweepVisit => exact reefers h (exec_agrees _ h) (execSupervisionSweepVisit_consolidates rule.short)
  | batchTimerExpiry => exact reefers h (exec_agrees _ h) (execBatchTimerExpiry_consolidates rule.short)
  | enqueue k => exact execEnqueue_works rule hs h
  | transmissionEnd p => exact execTransmissionEnd_works rule hs h
  | refillExpiry b => exact execRefillExpiry_works hs h
  | holdoffExpiry k => exact execHoldoffExpiry_works rule hs h
  | commandFrameTake => exact execCommandFrameTake_works rule hs h
  | ident => cases h; exact takeCommand_works_of_agrees rule hs (fun _ => .refl [] s) (by decide)
  | setIdent x => cases h; exact takeCommand_works_of_agrees rule hs (fun _ => takeSetIdent_agrees x s) (by decide)
  | setPort p m q o =>
    cases h
    exact takeCommand_works rule hs (fun _ => takeSetPort_agrees p m q o s) (by decide) fun _ => takeSetPort_works rule hs ..
  | setGroup g b m v =>
    cases h; exact takeCommand_works_of_agrees rule hs (fun _ => takeSetGroup_agrees g b m v s) (by decide)
  | setClass g c b m v d o =>
    cases h; exact takeCommand_works_of_agrees rule hs (fun _ => takeSetClass_agrees g c b m v d o s) (by decide)
  | readClass g c => cases h; exact takeCommand_works_of_agrees rule hs (fun _ => takeReadClass_agrees g c s) (by decide)
  | setDomain d e r x q =>
    cases h; exact takeCommand_works_of_agrees rule hs (fun _ => takeSetDomain_agrees d e r x q s) (by decide)
  | readDomain d => cases h; exact takeCommand_works_of_agrees rule hs (fun _ => takeReadDomain_agrees d s) (by decide)
  | setStation x p =>
    cases h
    exact takeCommand_works rule hs (fun _ => takeSetStation_agrees x p s) (by decide) fun _ => takeSetStation_works rule hs x p
  | clearStation x =>
    cases h
    exact takeCommand_works rule hs (fun _ => takeClearStation_agrees x s) (by decide) fun _ => takeClearStation_works rule hs x
  | readStation x => cases h; exact takeCommand_works_of_agrees rule hs (fun _ => takeReadStation_agrees x s) (by decide)
  | listStations c a =>
    cases h; exact takeCommand_works_of_agrees rule hs (fun room => takeListStations_agrees c a room s) (by decide)
  | setLearning m p c =>
    cases h; exact takeCommand_works_of_agrees rule hs (fun _ => takeSetLearning_agrees m p c s) (by decide)
  | setCrane l x pf p hm per lt lp hd r b o =>
    cases h
    exact takeCommand_works rule hs (fun _ => takeSetCrane_agrees l x pf p hm per lt lp hd r b o s) (by decide)
      fun _ => takeSetCrane_works rule hs ..
  | clearCrane l =>
    cases h
    exact takeCommand_works rule hs (fun _ => takeClearCrane_agrees l s) (by decide) fun _ => takeClearCrane_works rule hs l
  | readCrane l c =>
    cases h
    exact takeCommand_works rule hs (fun _ => takeReadCrane_agrees l c s) (by decide) fun _ => takeReadCrane_works hs l c
  | setGeometry o l y =>
    cases h
    exact takeCommand_works rule hs (fun _ => setCvm_agrees ..) (by decide) fun _ => .setCvm hs (Cvm.setShadow_overlay ..)
  | setWindow a b c d e f =>
    cases h
    exact takeCommand_works rule hs (fun _ => takeSetWindow_agrees a b c d e f s) (by decide) fun _ => takeSetWindow_works hs ..
  | streamCells c k v =>
    cases h
    exact takeCommand_works rule hs (fun _ => takeStreamCells_agrees c k v s) (by decide) fun _ => takeStreamCells_works hs ..
  | readCells b c k =>
    cases h
    exact takeCommand_works rule hs (fun room => takeReadCells_agrees b c k room s) (by decide)
      fun _ => takeReadCells_works hs ..
  | copyActive =>
    cases h
    exact takeCommand_works rule hs (fun _ => setCvm_agrees ..) (by decide) fun _ => .setCvm hs (Cvm.setShadow_overlay ..)
  | commitMap => exact execCommitMap_works hs h
  | setEpoch p =>
    cases h
    exact takeCommand_works rule hs (fun _ => setCvm_agrees ..) (by decide) fun _ => .setCvm hs rfl
  | setReefer a b c d e f g y =>
    cases h
    exact takeCommand_works rule hs (fun _ => takeSetReefer_agrees a b c d e f g y s) (by decide) fun _ =>
      .of_consolidates rule hs (takeSetReefer_agrees a b c d e f g y s) (by decide) (takeSetReefer_consolidates ..)
  | readReefer x => cases h; exact takeCommand_works_of_agrees rule hs (fun _ => takeReadReefer_agrees x s) (by decide)
  | listReefers a f =>
    cases h; exact takeCommand_works_of_agrees rule hs (fun room => takeListReefers_agrees a f room s) (by decide)
  | forgetReefer x =>
    cases h
    exact takeCommand_works rule hs (fun _ => takeForgetReefer_agrees x s) (by decide) fun _ =>
      .of_consolidates rule hs (takeForgetReefer_agrees x s) (by decide) (takeForgetReefer_consolidates rule.short x s)
  | setRate k i w r b o =>
    cases h; exact takeCommand_works_of_agrees rule hs (fun _ => takeSetRate_agrees k i w r b o s) (by decide)
  | setQueue p q l => cases h; exact takeCommand_works_of_agrees rule hs (fun _ => takeSetQueue_agrees p q l s) (by decide)
  | setSched p b d => cases h; exact takeCommand_works_of_agrees rule hs (fun _ => takeSetSched_agrees p b d s) (by decide)
  | setReserve r c =>
    cases h
    exact takeCommand_works rule hs (fun _ => takeSetReserve_agrees r c s) (by decide) fun _ => takeSetReserve_works rule hs r c
  | readCounters x c =>
    cases h; exact takeCommand_works_of_agrees rule hs (fun room => takeReadCounters_agrees x c room s) (by decide)
  | setNotice x m l =>
    cases h
    exact takeCommand_works rule hs (fun _ => takeSetNotice_agrees x m l s) (by decide) fun _ => takeSetNotice_works rule hs ..
  | setNoticeDest p x r b y =>
    cases h
    exact takeCommand_works rule hs (fun _ => takeSetNoticeDest_agrees p x r b y s) (by decide)
      fun _ => takeSetNoticeDest_works rule hs ..
  | readNotice x c =>
    cases h
    exact takeCommand_works rule hs (fun _ => takeReadNotice_agrees x c s) (by decide) fun _ => takeReadNotice_works hs x c
  | clearNotice x =>
    cases h
    exact takeCommand_works rule hs (fun _ => takeClearNotice_agrees x s) (by decide) fun _ => takeClearNotice_works rule hs x
  | restart => exact execRestart_works rule hs h
  | secondsCounterTick =>
    have touched : Agrees [.seconds, .freeUse] s t := exec_agrees _ h
    exact .of_agrees hs touched (by decide)

end

end Sys2Proof.Machine
end

section
/-! The laws of the links, the overlay, the consolidator and the notice sources at a step (R16, R61, R103, R128, R156). -/

namespace Sys2Proof.Machine

/-- A law that does not read the queue of commands, and that every command keeps, is kept by every step. -/
theorem step_keeps {P : State → Prop} (pending : ∀ s q, P s → P { s with pending := q })
    (keeps : ∀ i s t, P s → exec i s = .next t → P t) {s t : State} (h : P s) (hstep : step s = .next t) : P t := by
  unfold step at hstep
  split at hstep
  · cases hstep
    exact h
  · exact keeps _ _ _ (pending _ _ h) hstep

/-- Every command is an operation of the part, whatever its frames are. -/
theorem exec_works_of_any {i : Instr} {s t : State} (h : exec i s = .next t) :
    ∃ n, Works (fun _ => True) n s t := by
  refine ⟨max 48 (max s.rcn.bufferA.entries.length s.rcn.bufferB.entries.length),
    exec_works ⟨?_, ?_, ?_, Nat.le_max_left .., ?_⟩ ⟨?_, ⟨?_, ?_⟩, .inl fun _ _ => trivial⟩ h⟩
  · exact fun _ _ => trivial
  · exact fun _ _ _ => trivial
  · exact fun _ _ _ => trivial
  · exact fun _ _ _ => trivial
  · exact fun _ _ _ => trivial
  · omega
  · omega

/-- Settles O54: an event at a link keeps that link lawful and leaves the others. -/
theorem stepsKeepTheLinkLaw : Obligations.StepsKeepTheLinkLaw := fun _ _ => step_keeps (fun _ _ => id) fun _ _ _ law h =>
  let ⟨_, works⟩ := exec_works_of_any h
  works.links law

/-- Settles O55: the span events of a link's change take the counts from the old number of links to the new. -/
theorem stepsKeepTheOverlayLaw : Obligations.StepsKeepTheOverlayLaw := fun _ _ hlinks law hstep =>
  (step_keeps (P := fun s => LinkLaw s ∧ OverlayLaw s) (fun _ _ h => ⟨h.1, ⟨h.2.counts, h.2.prefixes⟩⟩)
    (fun _ _ _ h hexec =>
      let ⟨_, works⟩ := exec_works_of_any hexec
      ⟨works.links h.1, works.overlay h.1 h.2⟩) ⟨hlinks, law⟩ hstep).2

/-- Settles O56: the table and the buffers of the consolidator keep their laws together. -/
theorem stepsKeepTheReeferAndBatchLaws : Obligations.StepsKeepTheReeferAndBatchLaws := fun s t hreefers hbatch hstep =>
  (rcn_lawful_iff t).1 (step_keeps (P := fun s => s.rcn.lawful) (fun _ _ => id)
    (fun _ _ _ law hexec =>
      let ⟨_, works⟩ := exec_works_of_any hexec
      works.rcn.lawful law) ((rcn_lawful_iff s).2 ⟨hreefers, hbatch⟩) hstep)

/-- Settles O59: what counts and reports, the notice commands, the holdoff timers and the resets leave every source
lawful. -/
theorem stepsKeepTheNoticeLaw : Obligations.StepsKeepTheNoticeLaw := fun _ _ => step_keeps (fun _ _ => id) fun _ _ _ law h =>
  let ⟨_, works⟩ := exec_works_of_any h
  works.notices law

end Sys2Proof.Machine
end

section
/-! The coverage map (chapter 1): what each command does to it, and the soft restart that some commands begin (O3,
O52). -/

namespace Sys2Proof.Machine

/-! ### Commands that may begin a soft restart (R148, R173, R174) -/

/-- The second state differs from the first in some fields alone, or is the soft restart that such a state begins. -/
def MayRestart (c : List Field) (s t : State) : Prop := ∃ u, Agrees c s u ∧ (t = u ∨ t = softRestart u)

section
variable {c : List Field} {s t u : State}

theorem Agrees.mayRestart (h : Agrees c s t) : MayRestart c s t := ⟨t, h, .inl rfl⟩

theorem Agrees.thenRestart {p : Prop} [Decidable p] (h : Agrees c s t) (g : Agrees c t u) :
    MayRestart c s (if p then softRestart t else u) := by
  split
  · exact ⟨t, h, .inr rfl⟩
  · exact ⟨u, h.step g (fun _ => id), .inl rfl⟩

theorem Agrees.thenMayRestart {a : List Field} (h : Agrees c s t) (g : MayRestart a t u) (ac : a ⊆ c := by decide) :
    MayRestart c s u := by
  obtain ⟨v, hv, e⟩ := g
  exact ⟨v, h.step hv ac, e⟩

theorem admissionEvent_mayRestart (o : Origin) (admitted : Bool) (s : State) :
    MayRestart [.ntu] s (admissionEvent o admitted s) := by
  unfold admissionEvent
  split
  · exact (setNtu_agrees ..).mayRestart
  · exact (setNtu_agrees ..).mayRestart
  · exact ⟨s, .refl _ s, .inr rfl⟩
  all_goals exact (Agrees.refl _ s).mayRestart

theorem takeFrame_mayRestart (r : EnqueueRequest) (s : State) : MayRestart Field.store s (takeFrame r s) := by
  have counted : Agrees Field.store s
      (r.queues.foldl (fun t d => countRefusal d (judgeQueue s r.kind (cellsOf r.body.length) d) t) s) :=
    Agrees.foldl (fun t d => (countRefusal_agrees ..).mono (by decide)) _ s
  unfold takeFrame
  dsimp only
  split
  · exact counted.thenMayRestart (admissionEvent_mayRestart ..)
  · exact (counted.step (storeFrame_agrees ..)).thenMayRestart (admissionEvent_mayRestart ..)

theorem takeEnqueue_mayRestart (r : EnqueueRequest) (s : State) : MayRestart Field.batch s (takeEnqueue r s) := by
  unfold takeEnqueue
  split
  · exact (takeBatch_agrees r s).mayRestart
  all_goals exact (Agrees.refl _ s).thenMayRestart (takeFrame_mayRestart r s)

theorem endTransmission_mayRestart (p : Port) (cls : QClass) (e : Entry) (rest : List Entry) (s : State) :
    MayRestart (.wire :: Field.batch) s (endTransmission p cls e rest s) := by
  have ended : Agrees (.wire :: Field.batch) s (transmissionEnded p cls e rest s) :=
    (((setWire_agrees _ s).mono (by decide)).step (setQueues_agrees ..)).step (releaseEntry_agrees ..)
  have counted := ended.step (transmissionCounted_reported p e (transmissionEnded p cls e rest s)).frame.agrees
  rw [endTransmission_eq]
  dsimp only
  generalize transmissionCounted p e (transmissionEnded p cls e rest s) = t at counted
  have batched : Agrees (.wire :: Field.batch) s (if e.isBatch then batchTransmitted t else t) := by
    split
    · exact counted.step (batchTransmitted_agrees t)
    · exact counted
  exact batched.thenRestart ((select_agrees ..).mono (by decide))

theorem discardPort_mayRestart (p : Port) (s : State) : MayRestart Field.batch s (discardPort p s) := by
  have emptied : Agrees Field.batch s (portEmptied p s) :=
    ((setQueues_agrees ..).mono (by decide)).step (Agrees.foldl (fun t e => releaseEntry_agrees t e) _ _)
  have counted := emptied.step
    (discardCounted_reported p (abortedAt p s) ((s.queues p).entries.length - abortedAt p s) (portEmptied p s)).frame.agrees
  rw [discardPort_eq]
  dsimp only
  generalize discardCounted p _ _ (portEmptied p s) = t at counted
  have batched : Agrees Field.batch s (if (s.queues p).entries.any Entry.isBatch then batchDiscarded t else t) := by
    split
    · exact counted.step (batchDiscarded_agrees t)
    · exact counted
  exact batched.thenRestart (.refl _ _)

theorem answer_mayRestart (restart : Bool) (p : Port) (x y : Sid) (payload : List Byte) (s : State) :
    MayRestart Field.agent s (answer restart p x y payload s) := by
  unfold answer
  dsimp only
  generalize hphase : s.setMga { s.mga with phase := if restart then .restartOrdered else .idle } = t
  have phased : Agrees Field.agent s t := hphase ▸ (setMga_agrees ..).mono (by decide)
  split
  · exact (phased.step (handOff_agrees ..)).mayRestart
  · exact (phased.step (portDownDrop_agrees ..)).thenRestart (.refl _ _)

theorem completeCommand_mayRestart (restart : Bool) (e : Execution) (st : Status) (r : List Byte) (s : State) :
    MayRestart Field.agent s (completeCommand restart e st r s) := by
  unfold completeCommand continueFrame
  split
  · exact answer_mayRestart ..
  · exact ((setMga_agrees ..).mono (by decide)).mayRestart

theorem execRestart_mayRestart (h : execRestart s = .next t) : MayRestart Field.agent s t := by
  cases h
  split
  · exact (Agrees.refl _ s).mayRestart
  · split <;> exact completeCommand_mayRestart ..

/-- The events of the frame store that may begin a soft restart. -/
def Instr.mayRestart : Instr → Bool
  | .enqueue _ | .transmissionEnd _ | .fsqLinkDown _ => true
  | _ => false

theorem exec_mayRestart {i : Instr} (hi : Instr.mayRestart i = true) (h : exec i s = .next t) :
    MayRestart (.wire :: Field.batch) s t := by
  cases i with
  | enqueue k =>
    cases h
    split
    · exact (Agrees.refl _ s).mayRestart
    · exact ((setFlight_agrees _ s).mono (by decide)).thenMayRestart (takeEnqueue_mayRestart ..)
  | transmissionEnd p =>
    cases h
    split
    · exact (Agrees.refl _ s).mayRestart
    · split
      · exact ((setQueues_agrees ..).mono (by decide)).mayRestart
      · exact endTransmission_mayRestart ..
  | fsqLinkDown p =>
    cases h
    show MayRestart _ s (if _ then _ else _)
    split
    · exact ((setFlight_agrees _ s).mono (by decide)).thenMayRestart (discardPort_mayRestart ..)
    · exact (Agrees.refl _ s).mayRestart
  | _ => cases hi

end

/-! ### The laws of the map -/

/-- A cursor is fresh or inside the window (R6). -/
def Window.holdsCursor (w : Window) (c : Cursor) : Prop := ∀ p, c = some p → w.holds p

/-- The laws of the map, of a map. -/
structure Cvm.lawful (c : Cvm) : Prop where
  bank0  : c.bank0.lawful
  bank1  : c.bank1.lawful
  window : c.window.segStart ≤ c.window.segEnd ∧ c.window.segEnd ≤ 255 ∧
    c.window.laneStart ≤ c.window.laneEnd ∧ c.window.laneEnd ≤ 7
  write  : c.window.holdsCursor c.writeCursor
  read   : c.window.holdsCursor c.readCursor
  epoch  : 10 ≤ c.epochPeriod ∧ c.epochPeriod ≤ 1000

theorem cvm_lawful_iff (s : State) : s.cvm.lawful ↔ MapLaw s :=
  ⟨fun h => ⟨h.bank0, h.bank1, h.window, h.write, h.read, h.epoch⟩,
    fun h => ⟨h.bank0, h.bank1, h.window, h.write, h.read, h.epoch⟩⟩

/-- A map after a command that is no swap and no hard reset: its laws are kept, and what the part reads of it is as
before. -/
structure Cvm.Keeps (c d : Cvm) : Prop where
  lawful : c.lawful → d.lawful
  active : d.active = c.active ∧ d.activeIsOne = c.activeIsOne ∧ d.valid = c.valid

section
variable {c d : Cvm}

theorem Cvm.Keeps.refl (c : Cvm) : c.Keeps c := ⟨id, rfl, rfl, rfl⟩

/-- Timers and the overlay are not read by the laws. -/
theorem Cvm.Keeps.of_timers (c : Cvm) (p : Bool) (t : Option Nat) (o : Vector Nat 256) :
    c.Keeps { c with swapPending := p, epochTimer := t, overlay := o } :=
  ⟨fun h => ⟨h.bank0, h.bank1, h.window, h.write, h.read, h.epoch⟩, rfl, rfl, rfl⟩

theorem Cvm.lawful.active (h : c.lawful) : c.active.lawful := by
  unfold Cvm.active
  split
  · exact h.bank1
  · exact h.bank0

theorem Cvm.lawful.shadow (h : c.lawful) : c.shadow.lawful := by
  unfold Cvm.shadow
  split
  · exact h.bank0
  · exact h.bank1

/-- The shadow bank is written (R1). -/
theorem Cvm.Keeps.setShadow (c : Cvm) {b : Bank} (hb : c.lawful → b.lawful) : c.Keeps (c.setShadow b) := by
  unfold Cvm.setShadow
  split
  · rename_i h
    exact ⟨fun law => ⟨hb law, law.bank1, law.window, law.write, law.read, law.epoch⟩, by simp [Cvm.active, h], rfl, rfl⟩
  · rename_i h
    exact ⟨fun law => ⟨law.bank0, hb law, law.window, law.write, law.read, law.epoch⟩, by simp [Cvm.active, h], rfl, rfl⟩

theorem Cvm.Keeps.softRestart (c : Cvm) : c.Keeps c.softRestart :=
  ⟨fun h => ⟨h.bank0, h.bank1, h.window, fun _ hp => (nomatch hp), fun _ hp => (nomatch hp), h.epoch⟩, rfl, rfl, rfl⟩

theorem Cvm.lawful.swapped (h : c.lawful) : c.swapped.lawful :=
  ⟨h.bank0, h.bank1, h.window, fun _ hp => (nomatch hp), fun _ hp => (nomatch hp), h.epoch⟩

theorem Bank.lawful_of_cells {b : Bank} (h : b.lawful) : Bank.lawful ⟨b.cells, .default⟩ :=
  ⟨h.1, h.2.1, show 50 ≤ 300 ∧ 300 ≤ 1000 ∧ 20 ≤ 255 by decide⟩

theorem Cvm.powerOn_lawful : Cvm.powerOn.lawful :=
  ⟨⟨⟨⟨.nil, by simp [Cvm.powerOn]⟩, by simp [Cvm.powerOn]⟩, by simp [Cvm.powerOn], by decide⟩,
    ⟨⟨⟨.nil, by simp [Cvm.powerOn]⟩, by simp [Cvm.powerOn]⟩, by simp [Cvm.powerOn], by decide⟩,
    by decide, fun _ hp => (nomatch hp), fun _ hp => (nomatch hp), by decide⟩

theorem Cvm.lawful.pinReset (h : c.lawful) : c.pinReset.lawful :=
  have hard := Cvm.powerOn_lawful
  ⟨Bank.lawful_of_cells h.bank0, Bank.lawful_of_cells h.bank1, hard.window, hard.write, hard.read, hard.epoch⟩

end

/-! ### The walk through the window (R4, R7, R8) -/

section
variable {w : Window} {p : Nat × Nat}

/-- A window of the map. -/
def Window.lawful (w : Window) : Prop :=
  w.segStart ≤ w.segEnd ∧ w.segEnd ≤ 255 ∧ w.laneStart ≤ w.laneEnd ∧ w.laneEnd ≤ 7

theorem Window.holds_firstCell (h : w.lawful) : w.holds w.firstCell := by
  obtain ⟨hseg, -, hlane, -⟩ := h
  unfold Window.firstCell Window.holds
  dsimp only
  split <;> omega

theorem Window.holds_advance (h : w.lawful) (hp : w.holds p) : w.holds (w.advance p).1 := by
  obtain ⟨hseg, -, hlane, -⟩ := h
  obtain ⟨h1, h2, h3, h4⟩ := hp
  unfold Window.advance Window.holds
  cases w.direction <;> cases w.order <;> dsimp only <;> split_ifs <;> dsimp only <;> simp_all <;> omega

theorem Window.holds_after (h : w.lawful) (hp : w.holds p) (n : Nat) : w.holds (w.after p n) := by
  induction n with
  | zero => exact hp
  | succ n ih => exact Window.holds_advance h ih

theorem Window.holds_startingCell (h : w.lawful) {c : Cursor} (hc : w.holdsCursor c) (cont : Nat) :
    w.holds (startingCell w cont c) := by
  unfold startingCell
  split
  · exact Window.holds_firstCell h
  · split
    · exact hc _ rfl
    · exact Window.holds_firstCell h

theorem cellAddress_lt (h : w.lawful) (hp : w.holds p) : cellAddress p.1 p.2 < 2048 := by
  obtain ⟨-, hseg, -, hlane⟩ := h
  obtain ⟨-, h2, -, h4⟩ := hp
  unfold cellAddress
  omega

theorem storedCell_lawful (v : CellValue) : (storedCell v).lawful := by
  intro q hq
  have hq : storedPort v.primary = some q := hq
  simp only [storedCell, hq, Option.isSome_some, Bool.true_and]
  split
  · simp
  · rename_i hne
    exact fun h => hne (by simp [h])

theorem Bank.lawful.writeCell {b : Bank} (h : b.lawful) {g a : Nat} (haddr : cellAddress g a < 2048) {c : Cell}
    (hc : c.lawful) : (b.writeCell g a c).lawful := by
  refine ⟨Memory.wf_write c h.1 haddr, fun e he => ?_, h.2.2⟩
  have he : e ∈ Memory.write b.cells (cellAddress g a) c := he
  unfold Memory.write at he
  split at he
  · exact h.2.1 e (List.mem_of_mem_filter he)
  · obtain rfl | he := Table.mem_put _ _ _ _ he
    · exact hc
    · exact h.2.1 e he

/-- A walk that stores values keeps the bank lawful and stays in the window. -/
theorem streamValues_lawful {b : Bank} (hw : w.lawful) (hb : b.lawful) (hp : w.holds p) (values : List CellValue) :
    (streamValues w b p values).bank.lawful ∧ w.holds (streamValues w b p values).position := by
  unfold streamValues
  generalize hx : (⟨b, p, 0⟩ : Streaming) = x
  have start : x.bank.lawful ∧ w.holds x.position := hx ▸ ⟨hb, hp⟩
  clear hx
  induction values generalizing x with
  | nil => exact start
  | cons v values ih =>
    exact ih _ ⟨start.1.writeCell (cellAddress_lt hw start.2) (storedCell_lawful v), Window.holds_advance hw start.2⟩

theorem readWindow_position (w : Window) (b : Bank) (n : Nat) (p : Nat × Nat) :
    (readWindow w b n p).position = w.after p n := by
  have shift (n : Nat) (p : Nat × Nat) : w.after (w.advance p).1 n = w.after p (n + 1) := by
    induction n with
    | zero => rfl
    | succ n ih => simp only [Window.after] at ih ⊢; rw [ih]
  induction n generalizing p with
  | zero => rfl
  | succ n ih => exact (ih _).trans (shift n p)

end

/-! ### The commands at the map -/

section
variable {c : Cvm}

theorem storedGeometry_inRange (o n h : Nat) :
    50 ≤ (storedGeometry o n h).length ∧ (storedGeometry o n h).length ≤ 1000 ∧ (storedGeometry o n h).hysteresis ≤ 255 := by
  simp only [storedGeometry, clampTo]
  omega

theorem takeSetWindow_cvm (a b x d o y : Nat) (s : State) : s.cvm.Keeps (takeSetWindow a b x d o y s).state.cvm := by
  unfold takeSetWindow
  split
  · exact .refl _
  · split
    · exact .refl _
    · rename_i hw
      refine ⟨fun h => ⟨h.bank0, h.bank1, ?_, fun _ hp => (nomatch hp), fun _ hp => (nomatch hp), h.epoch⟩, rfl, rfl, rfl⟩
      show a ≤ min 255 b ∧ min 255 b ≤ 255 ∧ x ≤ min 7 d ∧ min 7 d ≤ 7
      omega

theorem takeStreamCells_cvm (x k : Nat) (values : List CellValue) (s : State) :
    s.cvm.Keeps (takeStreamCells x k values s).state.cvm := by
  unfold takeStreamCells
  split
  · exact .refl _
  · have walked (h : s.cvm.lawful) := streamValues_lawful h.window h.shadow (Window.holds_startingCell h.window h.write x)
      values
    have kept := Cvm.Keeps.setShadow s.cvm fun h => (walked h).1
    refine ⟨fun h => ?_, kept.active⟩
    have law := kept.lawful h
    have window (b : Bank) : (s.cvm.setShadow b).window = s.cvm.window := by unfold Cvm.setShadow; split <;> rfl
    refine ⟨law.bank0, law.bank1, law.window, fun p hp => ?_, law.read, law.epoch⟩
    cases hp
    show (s.cvm.setShadow _).window.holds _
    rw [window]
    exact (walked h).2

theorem takeReadCells_cvm (b x k room : Nat) (s : State) : s.cvm.Keeps (takeReadCells b x k room s).state.cvm := by
  unfold takeReadCells
  split
  · exact .refl _
  · split
    · exact .refl _
    · dsimp only
      split
      · exact .refl _
      · refine ⟨fun h => ⟨h.bank0, h.bank1, h.window, h.write, fun p hp => ?_, h.epoch⟩, rfl, rfl, rfl⟩
        cases hp
        rw [readWindow_position]
        exact Window.holds_after h.window (Window.holds_startingCell h.window h.read x) _

/-- What a command that is taken does to the map, its effect does. -/
theorem takeCommand_cvm {i : Instr} {run : Nat → State → Taken} {s : State}
    (h : ∀ room, s.cvm.Keeps (run room s).state.cvm) : s.cvm.Keeps (takeCommand i run s).cvm := by
  obtain e | ⟨e, -, heq⟩ := takeCommand_cases i run s
  · rw [e]
    exact .refl _
  · have same : (takeCommand i run s).cvm = (run e.room s).state.cvm := by
      rw [heq]
      exact (completeCommand_agrees ..).same .cvm (by decide)
    rw [same]
    exact h _

/-- A swap is carried out where one is pending at an epoch expiry (R13). -/
theorem swapMap_cvm (s : State) : (swapMap s).cvm = s.cvm.swapped :=
  ((((raise_agrees ..).step (presentMapInvalid_agrees _)).step (sendMapSwapped_agrees _)).mono
    (by decide) |>.step (completeCommit_agrees _) : Agrees Field.agent (s.setCvm s.cvm.swapped) (swapMap s)).same .cvm
    (by decide)

theorem execCoverageEpochExpiry_swaps {s : State} {n : Nat} (hpending : s.cvm.swapPending = true)
    (htimer : s.cvm.epochTimer = some n) :
    execCoverageEpochExpiry s = .next (swapMap (s.setCvm { s.cvm with epochTimer := some s.cvm.epochPeriod })) := by
  simp only [execCoverageEpochExpiry, htimer, hpending, if_true]

/-- An epoch expiry at which no swap is carried out restarts the timer (R11). -/
theorem execCoverageEpochExpiry_waits {s t : State} (hno : s.cvm.swapPending = false ∨ s.cvm.epochTimer = none)
    (h : execCoverageEpochExpiry s = .next t) : s.cvm.Keeps t.cvm := by
  cases h
  split
  · exact .refl _
  · rename_i htimer
    have hpending : s.cvm.swapPending = false := hno.resolve_right (by simp [htimer])
    simp only [hpending, Bool.false_eq_true, if_false]
    exact .of_timers _ _ _ _

theorem Agrees.cvm {a : List Field} {s t : State} (h : Agrees a s t) (ha : Field.cvm ∉ a) : s.cvm.Keeps t.cvm := by
  have same : t.cvm = s.cvm := h.same .cvm ha
  rw [same]
  exact .refl _

theorem MayRestart.cvm {a : List Field} {s t : State} (h : MayRestart a s t) (ha : Field.cvm ∉ a) : s.cvm.Keeps t.cvm := by
  obtain ⟨u, hu, rfl | rfl⟩ := h
  · exact hu.cvm ha
  · have same : u.cvm = s.cvm := hu.same .cvm ha
    rw [softRestart_cvm, same]
    exact .softRestart _

/-- Every command that is no hard reset and carries out no swap keeps what the part reads of the map (R1, R13, R14,
R19). -/
theorem exec_cvm {i : Instr} {s t : State} (h : exec i s = .next t) (hpower : i ≠ .powerOnReset) (hpin : i ≠ .pinReset)
    (hend : ∀ m a, i ≠ .resetEnd m a)
    (hswap : i ≠ .coverageEpochExpiry ∨ s.cvm.swapPending = false ∨ s.cvm.epochTimer = none) : s.cvm.Keeps t.cvm := by
  cases i with
  | powerOnReset => exact absurd rfl hpower
  | pinReset => exact absurd rfl hpin
  | resetEnd m a => exact absurd rfl (hend m a)
  | coverageEpochExpiry => exact execCoverageEpochExpiry_waits (hswap.resolve_left fun hne => hne rfl) h
  | initializationEnd =>
    cases h
    show s.cvm.Keeps (if _ then _ else _ : State).cvm
    split
    · have same : (presentAll (startTimers { s with part := .running })).cvm = (startTimers { s with part := .running }).cvm :=
        (presentAll_agrees _).same .cvm (by decide)
      rw [same]
      exact .of_timers _ _ _ _
    · exact .refl _
  | restartInitializationEnd =>
    cases h
    show s.cvm.Keeps (if _ then _ else _ : State).cvm
    split
    · have same : (presentAll (restartCellChecks (startTimers { s with part := .running }))).cvm =
          (startTimers { s with part := .running }).cvm :=
        (((restartCellChecks_agrees _).mono (by decide)).step (presentAll_agrees _) :
          Agrees Field.cranes _ _).same .cvm (by decide)
      rw [same]
      exact .of_timers _ _ _ _
    · exact .refl _
  | enqueue k => exact (exec_mayRestart (i := .enqueue k) rfl h).cvm (by decide)
  | transmissionEnd p => exact (exec_mayRestart (i := .transmissionEnd p) rfl h).cvm (by decide)
  | fsqLinkDown p => exact (exec_mayRestart (i := .fsqLinkDown p) rfl h).cvm (by decide)
  | restart => exact (execRestart_mayRestart h).cvm (by decide)
  | addSpan g =>
    cases h
    unfold takeSpan
    split
    · exact .refl _
    · rename_i hspan
      split at hspan <;> cases hspan
      exact .of_timers _ _ _ _
  | removeSpan g =>
    cases h
    unfold takeSpan
    split
    · exact .refl _
    · rename_i hspan
      split at hspan <;> cases hspan
      exact .of_timers _ _ _ _
  | setGeometry o n y =>
    cases h
    exact takeCommand_cvm fun _ => .setShadow _ fun law => ⟨law.shadow.1, law.shadow.2.1, storedGeometry_inRange ..⟩
  | setWindow a b x d o y => cases h; exact takeCommand_cvm fun _ => takeSetWindow_cvm ..
  | streamCells x k v => cases h; exact takeCommand_cvm fun _ => takeStreamCells_cvm ..
  | readCells b x k => cases h; exact takeCommand_cvm fun _ => takeReadCells_cvm ..
  | copyActive => cases h; exact takeCommand_cvm fun _ => .setShadow _ fun law => law.active
  | commitMap =>
    cases h
    split
    · exact .refl _
    · exact .of_timers _ _ _ _
  | setEpoch p =>
    cases h
    refine takeCommand_cvm fun _ => ⟨fun law => ⟨law.bank0, law.bank1, law.window, law.write, law.read, ?_⟩, rfl, rfl, rfl⟩
    show 10 ≤ clampTo 10 1000 p ∧ clampTo 10 1000 p ≤ 1000
    unfold clampTo
    omega
  | _ => exact (exec_agrees _ h).cvm (by dsimp only [Instr.touches]; decide)

end

/-- Settles O52: a hard reset and a swap keep the laws of the map, and every other command does by `exec_cvm`. -/
theorem stepsKeepTheMapLaw : Obligations.StepsKeepTheMapLaw := fun s t law hstep =>
  (cvm_lawful_iff t).1 (step_keeps (P := fun s => s.cvm.lawful) (fun _ _ => id) (fun i s t law h => by
    cases i with
    | powerOnReset => cases h; exact Cvm.powerOn_lawful
    | pinReset => cases h; exact law.pinReset
    | resetEnd m a =>
      cases h
      show (if _ then _ else _ : State).cvm.lawful
      split
      · exact law.pinReset
      · exact law
    | coverageEpochExpiry =>
      by_cases hno : s.cvm.swapPending = false ∨ s.cvm.epochTimer = none
      · exact (execCoverageEpochExpiry_waits hno h).lawful law
      · obtain ⟨hpending, htimer⟩ := not_or.1 hno
        obtain ⟨n, htimer⟩ := Option.ne_none_iff_exists'.1 htimer
        rw [exec, execCoverageEpochExpiry_swaps (eq_true_of_ne_false hpending) htimer] at h
        cases h
        rw [swapMap_cvm]
        exact ((Cvm.Keeps.of_timers s.cvm s.cvm.swapPending (some s.cvm.epochPeriod) s.cvm.overlay).lawful law).swapped
    | _ => exact (exec_cvm h (by simp) (by simp) (by simp) (.inl (by simp))).lawful law)
    ((cvm_lawful_iff s).2 law) hstep)

/-- Settles O3. -/
theorem activeMapChangesOnlyAtSwapOrHardReset : Obligations.ActiveMapChangesOnlyAtSwapOrHardReset :=
  fun _ _ _ h hpower hpin hend hswap => (exec_cvm h hpower hpin hend hswap).active

end Sys2Proof.Machine
end

section
/-! A received frame, for a law that reads the station table, the frame store or the agent: it is kept where an offer to a
policer, learning, the counts of steering and the acceptance of a command frame keep it. -/

namespace Sys2Proof.Machine

/-- What a received frame may touch but for its port's record, the station table, the frame store and the agent. -/
abbrev Field.around : List Field := [.links, .rcn, .ntu, .ctb, .flight]

/-- A law that reads the port records, the station table, the frame store and the agent, and that the count of an
arrival, offers, learning, the counts of steering and the acceptance of a command frame keep. -/
structure FrameStable (P : State → Prop) : Prop where
  quiet    : ∀ {s t}, Agrees Field.around s t → P s → P t
  arrived  : ∀ p b s, P s → P (countReceived p b s)
  offered  : ∀ b n p s, P s → P (offer b n p s).2
  learnt   : ∀ sid q g s, g ≤ 15 → P s → P (learn sid q g s)
  counted  : ∀ f s, P s → P (s.sttStats f)
  accepted : ∀ f p x s, P s → P (acceptCommand f p x s)

section
variable {P : State → Prop} (law : FrameStable P) {s : State}
include law

theorem alarmPath_keeps (f : Frame) (arrival trunk : Port) (h : P s) : P (alarmPath f arrival trunk s) := by
  have offered := law.offered alarmBucket f.length arrival s h
  unfold alarmPath
  dsimp only
  split
  · exact law.quiet ((((rcnStats_agrees ..).mono (by decide)).step (raise_agrees ..)).step (forwardTo_agrees ..)) offered
  · exact law.quiet ((((rcnStats_agrees ..).mono (by decide)).step (addDrop_agrees ..)).step (raise_agrees ..)) offered

theorem acceptReport_keeps (k : Nat) (r : Reefer) (x : Readings) (sig : Bool) (fresh : List Byte) (f : Frame)
    (arrival trunk : Port) (h : P s) : P (acceptReport k r x sig fresh f arrival trunk s) := by
  have updated : P ((s.setReefer k (r.updated x s.seconds)).rcnStats
      (fun x => { x with accepted := countUp x.accepted 1 })) :=
    law.quiet (((setReefer_agrees ..).mono (by decide)).step (rcnStats_agrees ..)) h
  have passed (b : Prop) [Decidable b] : P (if b then (s.setReefer k (r.updated x s.seconds)).rcnStats
      (fun x => { x with accepted := countUp x.accepted 1 })
      else alarmPath f arrival trunk ((s.setReefer k (r.updated x s.seconds)).rcnStats
      (fun x => { x with accepted := countUp x.accepted 1 }))) := by
    split
    · exact updated
    · exact alarmPath_keeps law _ _ _ updated
  unfold acceptReport
  dsimp only
  split
  · exact law.quiet ((batchAppend_agrees ..).mono (by decide)) (passed _)
  · exact passed _

theorem takeReport_keeps (f : Frame) (arrival trunk : Port) (h : P s) : P (takeReport f arrival trunk s) := by
  have stats (g : RcnStats → RcnStats) (t : State) (ht : P t) : P (t.rcnStats g) :=
    law.quiet ((rcnStats_agrees ..).mono (by decide)) ht
  have dropped (r : Fin 20) (t : State) (ht : P t) : P (addDrop r 1 t) :=
    law.quiet ((addDrop_agrees ..).mono (by decide)) ht
  unfold takeReport
  split
  · exact dropped _ _ (stats _ _ h)
  · rename_i rep _
    have truncated : P (if rep.truncated then s.rcnStats (fun x => { x with truncations := countUp x.truncations 1 })
        else s) := by
      split
      · exact stats _ _ h
      · exact h
    dsimp only
    generalize (if rep.truncated then s.rcnStats (fun x => { x with truncations := countUp x.truncations 1 })
      else s) = u at truncated
    split
    · split
      · exact law.quiet ((forwardTo_agrees ..).mono (by decide)) (stats _ _ truncated)
      · refine acceptReport_keeps law _ _ _ _ _ _ _ _ (law.quiet ?_ truncated)
        exact (((setReefer_agrees ..).mono (by decide)).step (rcnStats_agrees ..)).step (presentReeferFull_agrees _)
    · split
      · exact dropped _ _ (stats _ _ truncated)
      · exact dropped _ _ (stats _ _ truncated)
      · exact acceptReport_keeps law _ _ _ _ _ _ _ _ truncated
      · exact acceptReport_keeps law _ _ _ _ _ _ _ _ (stats _ _ truncated)

theorem downlinkControl_keeps (l : LinkNo) (f : Frame) (p : Port) (h : P s) : P (downlinkControl l f p s) := by
  have counted (g : LinkCounts → LinkCounts) (r : Fin 20) (n : Nat) :
      Agrees Field.around s (addDrop r n (s.linkCounts l g)) :=
    ((linkCounts_agrees ..).mono (by decide)).step (addDrop_agrees ..)
  have offered := law.offered (linkBucket l) f.length p s h
  unfold downlinkControl
  dsimp only
  split
  · exact law.quiet (counted ..) h
  · split
    · exact law.quiet ((counted ..).step (raise_agrees ..)) h
    · split
      · exact law.quiet (((setLink_agrees ..).mono (by decide)).step (deliverControl_agrees ..)) offered
      · exact law.quiet (((addDrop_agrees ..).mono (by decide)).step (bump_agrees ..)) offered

theorem flood_keeps (f : Frame) (n : Fin 8) (p : Port) (h : P s) : P (flood f n p s) := by
  have offered := law.offered (floodBucket n) f.length p s h
  unfold flood
  dsimp only
  split
  · exact law.quiet ((addDrop_agrees ..).mono (by decide)) h
  · split
    · exact law.quiet ((deliverSteered_agrees ..).mono (by decide)) (law.counted _ _ offered)
    · exact law.quiet (((addDrop_agrees ..).mono (by decide)).step (bump_agrees ..)) offered

theorem steer_keeps (f : Frame) (n : Fin 8) (p : Port) (h : P s) : P (steer f n p s) := by
  have toPort (d : Domain) (q : QPort) : P (steerToPort f d q s) :=
    law.quiet ((steerToPort_agrees ..).mono (by decide)) h
  unfold steer
  split
  · split <;> exact toPort ..
  · split
    · exact toPort ..
    · unfold steerMiss
      split
      · exact flood_keeps law f n p h
      · exact law.quiet ((deliverSteered_agrees ..).mono (by decide)) (law.counted _ _ h)

theorem forwardAsData_keeps (f : Frame) (d : Domain) (h : P s) : P (forwardAsData f d s) :=
  law.quiet ((forwardAsData_agrees ..).mono (by decide)) h

theorem dispatchUplink_keeps {f : Frame} (hf : f.grade ≤ 15) (q : QPort) (c : IdClass) (h : P s) :
    P (dispatchUplink f q c s) := by
  have learning (d : Domain) : P (forwardLearning f q d s) :=
    forwardAsData_keeps law f d (law.learnt f.station q f.grade s hf h)
  unfold dispatchUplink
  dsimp only
  split
  · split
    · exact law.quiet ((uplinkControl_agrees ..).mono (by decide)) h
    · exact learning _
  · split
    · exact law.quiet ((positionReport_agrees ..).mono (by decide)) h
    · exact law.learnt _ _ _ _ hf h
  · split
    · exact takeReport_keeps law _ _ _ h
    · exact learning _
  · exact learning _
  all_goals exact forwardAsData_keeps law f _ h

theorem policed_keeps (f : Frame) (q : QPort) {next : State → State} (hnext : ∀ t, P t → P (next t)) (h : P s) :
    P (policed f q next s) := by
  have offered := law.offered (ingressBucket q (kindGroup f.kind)) f.length (QPort.port q) s h
  unfold policed
  dsimp only
  split
  · exact hnext _ offered
  · exact law.quiet ((dropAt_agrees ..).mono (by decide)) offered

theorem receiveCommand_keeps (f : Frame) (p : Port) (x : Sid) (h : P s) : P (receiveCommand f p x s) :=
  law.accepted f p x _ (law.quiet ((bump_agrees p Ctr.rxManagement 1 s).mono (by decide)) h)

theorem receiveUplink_keeps {f : Frame} (hf : f.grade ≤ 15) (q : QPort) (h : P s) : P (receiveUplink f q s) := by
  unfold receiveUplink
  split
  · exact policed_keeps law f q (fun t => receiveCommand_keeps law f _ _) h
  · split
    · exact law.quiet ((dropUnclassified_agrees ..).mono (by decide)) h
    · split
      · exact law.quiet ((addDrop_agrees ..).mono (by decide)) h
      · exact policed_keeps law f q (fun t => dispatchUplink_keeps law hf q _) h

theorem receiveDownlink_keeps (f : Frame) (p : Port) (h : P s) : P (receiveDownlink f p s) := by
  unfold receiveDownlink
  split
  · exact receiveCommand_keeps law f _ _ h
  · split
    · exact law.quiet ((dropUnclassified_agrees ..).mono (by decide)) h
    · split
      · exact law.quiet ((addDrop_agrees ..).mono (by decide)) h
      · split
        · exact law.quiet (((addDrop_agrees ..).mono (by decide)).step (raise_agrees ..)) h
        · unfold dispatchDownlink
          split
          · split
            · exact downlinkControl_keeps law _ f p h
            · exact steer_keeps law f _ p h
          all_goals exact steer_keeps law f _ p h

omit law in
theorem readFrame_grade (bytes : List Byte) (k : Kind) : (readFrame bytes k).grade ≤ 15 := by
  show (byteAt bytes 15).toNat % 16 ≤ 15
  omega

theorem execFrameReceived_keeps {p : Port} {raw : List Byte} {t : State} (h : P s)
    (hexec : execFrameReceived p raw s = .next t) : P t := by
  have counted (b : List Byte) : P (countReceived p b s) := law.arrived p b s h
  have dropped (c : Fin 12) (r : Fin 20) (t : State) (ht : P t) : P (dropAt p c r t) :=
    law.quiet ((dropAt_agrees ..).mono (by decide)) ht
  cases hexec
  split
  · exact h
  · exact h
  · exact law.quiet ((addDrop_agrees ..).mono (by decide)) h
  · unfold receiveFrame
    split
    · exact dropped _ _ _ h
    · split
      · exact dropped _ _ _ (counted _)
      · unfold receiveForm
        dsimp only
        split
        · exact dropped _ _ _ (counted _)
        · split
          · exact dropped _ _ _ (counted _)
          · split
            · exact dropped _ _ _ (counted _)
            · split
              · exact receiveUplink_keeps law (readFrame_grade ..) _ (counted _)
              · exact receiveDownlink_keeps law _ p (counted _)

end

end Sys2Proof.Machine
end

section
/-! The law of the station table (R42): every command keeps it (O53). -/

namespace Sys2Proof.Machine

/-- The law of the station table, of its two collections (R42). -/
structure StationTables (x : Table StaticRec) (y : Table DynRec) : Prop where
  statics  : Table.wf Config.staticPlaces x
  dynamics : Table.wf Config.dynamicPlaces y
  unique   : (x.map (fun e => e.2.sid) ++ y.map (fun e => e.2.sid)).Nodup
  ranges   : ∀ e ∈ y, e.2.grade ≤ 15 ∧ 1 ≤ e.2.age ∧ e.2.age ≤ 3

/-- The law of the station table, of a station table. -/
def Stt.lawful (t : Stt) : Prop := StationTables t.statics t.dynamics

theorem stt_lawful_iff (s : State) : s.stt.lawful ↔ StationLaw s :=
  ⟨fun h => ⟨h.statics, h.dynamics, h.unique, h.ranges⟩, fun h => ⟨h.statics, h.dynamics, h.unique, h.ranges⟩⟩

/-- No record of a table holds a SID. -/
theorem Table.sid_notMem_of_find_none {α : Type} {t : Table α} {f : α → Sid} {sid : Sid}
    (h : Table.find t (fun r => f r == sid) = none) : sid ∉ t.map (fun e => f e.2) := by
  intro hmem
  obtain ⟨e, he, hsid⟩ := List.mem_map.1 hmem
  simpa [hsid] using Table.not_of_find_none h he

section
variable {x : Table StaticRec} {y : Table DynRec}

theorem Table.sid_of_find {α : Type} {t : Table α} {f : α → Sid} {sid : Sid} {k : Nat} {r : α}
    (h : Table.find t (fun r => f r == sid) = some (k, r)) : f r = sid := by
  simpa using List.find?_some h

/-- A place of the static collection is freed. -/
theorem StationTables.eraseStatic (h : StationTables x y) (k : Nat) : StationTables (Table.erase x k) y :=
  ⟨Table.wf_erase k h.statics, h.dynamics,
    h.unique.sublist ((List.filter_sublist.map _).append (List.Sublist.refl _)), h.ranges⟩

/-- A place of the dynamic collection is freed. -/
theorem StationTables.eraseDynamic (h : StationTables x y) (k : Nat) : StationTables x (Table.erase y k) :=
  ⟨h.statics, Table.wf_erase k h.dynamics,
    h.unique.sublist ((List.Sublist.refl _).append (List.filter_sublist.map _)),
    fun e he => h.ranges e (List.mem_of_mem_filter he)⟩

theorem StationTables.ranges_put (h : StationTables x y) {k : Nat} {w : DynRec}
    (hw : w.grade ≤ 15 ∧ 1 ≤ w.age ∧ w.age ≤ 3) (e : Nat × DynRec) (he : e ∈ Table.put y k w) :
    e.2.grade ≤ 15 ∧ 1 ≤ e.2.age ∧ e.2.age ≤ 3 := by
  obtain rfl | he := Table.mem_put _ _ _ _ he
  · exact hw
  · exact h.ranges e he

/-- A dynamic record is written again in its place (R50, R53). -/
theorem StationTables.rewriteDynamic (h : StationTables x y) {k : Nat} {v w : DynRec} (hget : Table.get y k = some v)
    (hsid : w.sid = v.sid) (hw : w.grade ≤ 15 ∧ 1 ≤ w.age ∧ w.age ≤ 3) : StationTables x (Table.put y k w) := by
  have hk := h.dynamics.2 _ ((Table.get_eq_some y k v h.dynamics.1).1 hget)
  refine ⟨h.statics, Table.wf_put w h.dynamics hk, ?_, h.ranges_put hw⟩
  rw [Table.map_put_of_get (fun r : DynRec => r.sid) h.dynamics.1 hget hsid]
  exact h.unique

/-- A dynamic record of a new SID is inserted (R49). -/
theorem StationTables.insertDynamic (h : StationTables x y) {k : Nat} {w : DynRec}
    (hk : Table.lowestFree y Config.dynamicPlaces = some k) (hx : w.sid ∉ x.map (fun e => e.2.sid))
    (hy : w.sid ∉ y.map (fun e => e.2.sid)) (hw : w.grade ≤ 15 ∧ 1 ≤ w.age ∧ w.age ≤ 3) :
    StationTables x (Table.put y k w) := by
  obtain ⟨hfree, hlt⟩ := Table.lowestFree_some hk
  refine ⟨h.statics, Table.wf_put w h.dynamics hlt, ?_, h.ranges_put hw⟩
  have perm := (Table.map_put_of_free w (fun r : DynRec => r.sid) hfree).append_left (x.map fun e => e.2.sid)
  rw [perm.nodup_iff, List.perm_middle.nodup_iff, List.nodup_cons, List.mem_append]
  exact ⟨fun hmem => hmem.elim hx hy, h.unique⟩

/-- The dynamic collection without the record of a SID (R44, R47). -/
def withoutSid (y : Table DynRec) (sid : Sid) : Table DynRec :=
  match Table.find y (fun r => r.sid == sid) with
  | none => y
  | some (k, _) => Table.erase y k

theorem removeDynamicOf_tables (sid : Sid) (s : State) :
    (removeDynamicOf sid s).stt = { s.stt with dynamics := withoutSid s.stt.dynamics sid } := by
  unfold removeDynamicOf findDynamic withoutSid
  cases Table.find s.stt.dynamics fun r => r.sid == sid with
  | none => rfl
  | some e => exact (presentStationFull_agrees _).same .stt (by decide)

theorem StationTables.withoutSid (h : StationTables x y) (sid : Sid) :
    StationTables x (Machine.withoutSid y sid) ∧ sid ∉ (Machine.withoutSid y sid).map fun e => e.2.sid := by
  unfold Machine.withoutSid
  split
  · rename_i hnone
    exact ⟨h, Table.sid_notMem_of_find_none (f := fun r : DynRec => r.sid) hnone⟩
  · rename_i k r hfind
    refine ⟨h.eraseDynamic k, fun hmem => ?_⟩
    obtain ⟨e, he, hsid⟩ := List.mem_map.1 hmem
    obtain ⟨hey, hne⟩ := List.mem_filter.1 he
    have hr : (k, r) ∈ y := List.mem_of_find?_eq_some hfind
    have same := List.inj_on_of_nodup_map (List.Nodup.of_append_right h.unique) hey hr
      (hsid.trans (Table.sid_of_find (f := fun r : DynRec => r.sid) hfind).symm)
    simp [same] at hne

/-- A static record is written for a SID, and its dynamic record removed (R44, R47). -/
theorem StationTables.writeStatic (h : StationTables x y) {k : Nat} {w : StaticRec}
    (hplace : (∃ v, Table.find x (fun r => r.sid == w.sid) = some (k, v)) ∨
      Table.find x (fun r => r.sid == w.sid) = none ∧ Table.lowestFree x Config.staticPlaces = some k) :
    StationTables (Table.put x k w) (Machine.withoutSid y w.sid) := by
  obtain ⟨law, hno⟩ := h.withoutSid w.sid
  obtain ⟨v, hfind⟩ | ⟨hnone, hk⟩ := hplace
  · have hget := Table.get_of_find h.statics hfind
    have hlt := h.statics.2 _ (List.mem_of_find?_eq_some hfind)
    refine ⟨Table.wf_put w h.statics hlt, law.dynamics, ?_, law.ranges⟩
    rw [Table.map_put_of_get (fun r : StaticRec => r.sid) h.statics.1 hget
      (Table.sid_of_find (f := fun r : StaticRec => r.sid) hfind).symm]
    exact law.unique
  · obtain ⟨hfree, hlt⟩ := Table.lowestFree_some hk
    refine ⟨Table.wf_put w h.statics hlt, law.dynamics, ?_, law.ranges⟩
    have perm := (Table.map_put_of_free w (fun r : StaticRec => r.sid) hfree).append_right
      ((Machine.withoutSid y w.sid).map fun e => e.2.sid)
    rw [perm.nodup_iff, List.cons_append, List.nodup_cons, List.mem_append]
    exact ⟨fun hmem => hmem.elim (Table.sid_notMem_of_find_none (f := fun r : StaticRec => r.sid) hnone) hno, law.unique⟩

end

/-! ### The operations -/

section
variable {s : State}

theorem Agrees.stt {c : List Field} {t : State} (h : Agrees c s t) (hc : Field.stt ∉ c) (law : s.stt.lawful) :
    t.stt.lawful := by
  have same : t.stt = s.stt := h.same .stt hc
  rwa [same]

theorem learn_stt (law : s.stt.lawful) {sid : Sid} {q : QPort} {g : Nat} (hg : g ≤ 15) : (learn sid q g s).stt.lawful := by
  by_cases hs : findStatic s sid = none
  case neg => rwa [learn_of_static hs]
  case pos =>
    have hx := Table.sid_notMem_of_find_none (f := fun r : StaticRec => r.sid) hs
    cases hd : findDynamic s sid with
    | none =>
      have hy := Table.sid_notMem_of_find_none (f := fun r : DynRec => r.sid) hd
      cases hk : Table.lowestFree s.stt.dynamics 2048 with
      | none => rwa [learn_of_full hs hd hk]
      | some k =>
        rw [(learn_inserts hs hd hk).stt]
        exact StationTables.insertDynamic law hk hx hy ⟨hg, Nat.one_le_ofNat, Nat.le_refl 3⟩
    | some found =>
      obtain ⟨k, r⟩ := found
      have hget := Table.get_of_find law.dynamics hd
      have rewritten : StationTables s.stt.statics (Table.put s.stt.dynamics k ⟨r.sid, q, g, 3⟩) :=
        StationTables.rewriteDynamic law hget rfl ⟨hg, Nat.one_le_ofNat, Nat.le_refl 3⟩
      by_cases hport : r.port = q
      · rw [(learn_refreshes hs hd hport).stt]
        exact rewritten
      · by_cases hevidence : r.grade + s.stt.margin ≤ g ∨ r.age ≤ 1
        · rw [(learn_moves hs hd hport hevidence).stt]
          exact rewritten
        · rw [learn_competes hs hd hport (by omega) (by omega)]
          exact law

theorem frameStable_stt : FrameStable fun s => s.stt.lawful :=
  ⟨fun h => h.stt (by decide), fun _ _ _ => (countReceived_agrees ..).stt (by decide), fun _ _ _ _ => (offer_agrees ..).stt (by decide),
    fun _ _ _ _ hg law => learn_stt law hg,
    fun _ _ => id, fun _ _ _ _ => (acceptCommand_agrees ..).stt (by decide)⟩

theorem ageAt_stt (law : s.stt.lawful) (k : Nat) : (ageAt k s).stt.lawful := by
  cases hget : Table.get s.stt.dynamics k with
  | none => rwa [ageAt_free hget]
  | some r =>
    have range := law.ranges _ ((Table.get_eq_some _ k r law.dynamics.1).1 hget)
    obtain hage | hage := Nat.lt_or_ge 1 r.age
    · rw [ageAt_ages hget hage]
      exact StationTables.rewriteDynamic law hget rfl
        ⟨range.1, Nat.le_sub_one_of_lt hage, (Nat.sub_le ..).trans range.2.2⟩
    · rw [(ageAt_removes hget hage).stt]
      exact StationTables.eraseDynamic law k

theorem purgeAt_stt (law : s.stt.lawful) (k : Nat) (ports : QuaySet) : (purgeAt k ports s).stt.lawful := by
  by_cases hpass : ∀ r, Table.get s.stt.dynamics k = some r → ports.getLsbD r.port.val = false
  · rwa [purgeAt_passes hpass]
  · obtain ⟨r, hr⟩ := not_forall.1 hpass
    obtain ⟨hget, hport⟩ := Classical.not_imp.1 hr
    rw [(purgeAt_removes hget (eq_true_of_ne_false hport)).stt]
    exact StationTables.eraseDynamic law k

theorem writeStatic_stt (law : s.stt.lawful) {k : Nat} {w : StaticRec}
    (hplace : (∃ v, findStatic s w.sid = some (k, v)) ∨
      findStatic s w.sid = none ∧ Table.lowestFree s.stt.statics Config.staticPlaces = some k) :
    (removeDynamicOf w.sid (s.setStt { s.stt with statics := Table.put s.stt.statics k w })).stt.lawful := by
  rw [removeDynamicOf_tables]
  exact StationTables.writeStatic law hplace

theorem bindStation_stt (law : s.stt.lawful) {sid : Sid} {l : LinkNo} {t : State} (h : bindStation sid l s = .bound t) :
    t.stt.lawful := by
  unfold bindStation at h
  split at h
  · rename_i k r hfind
    split at h
    · split at h <;> cases h
      rw [removeDynamicOf_tables]
      exact (StationTables.withoutSid law sid).1
    · cases h
      exact writeStatic_stt law (w := ⟨sid, .crane l⟩) (.inl ⟨r, hfind⟩)
  · rename_i hnone
    split at h <;> cases h
    rename_i k hk
    exact writeStatic_stt law (w := ⟨sid, .crane l⟩) (.inr ⟨hnone, hk⟩)

theorem unbindStation_stt (law : s.stt.lawful) (sid : Sid) : (unbindStation sid s).stt.lawful := by
  unfold unbindStation
  split
  · exact StationTables.eraseStatic law _
  · exact law
  · exact law

theorem takeSetStation_stt (law : s.stt.lawful) (x : Sid) (p : Nat) : (takeSetStation x p s).state.stt.lawful := by
  unfold takeSetStation
  split
  · exact law
  · rename_i q _
    split
    · exact law
    · rename_i k _ hfind
      exact writeStatic_stt law (w := ⟨x, .static q⟩) (.inl ⟨_, hfind⟩)
    · rename_i hnone
      split
      · exact law
      · rename_i k hk
        exact writeStatic_stt law (w := ⟨x, .static q⟩) (.inr ⟨hnone, hk⟩)

theorem takeClearStation_stt (law : s.stt.lawful) (x : Sid) : (takeClearStation x s).state.stt.lawful := by
  unfold takeClearStation
  split
  · exact law
  · exact StationTables.eraseStatic law _
  · split
    · exact law
    · exact (presentStationFull_agrees _).stt (by decide) (StationTables.eraseDynamic law _)

theorem updateLink_stt (law : s.stt.lawful) (l : LinkNo) (c : LinkConfig) (r b o : Nat) :
    (updateLink l c r b o s).stt.lawful := by
  unfold updateLink
  dsimp only
  split
  · exact law
  · exact (presentUncovered_agrees _).stt (by decide) law

theorem takeSetCrane_stt (law : s.stt.lawful) (l : Nat) (x : Sid) (pf : Nat) (p : Sid)
    (home per lt lp hd r b o : Nat) : (takeSetCrane l x pf p home per lt lp hd r b o s).state.stt.lawful := by
  unfold takeSetCrane
  split
  · split
    · exact law
    · split
      · exact law
      · dsimp only
        split
        · unfold takeBinding
          split
          · exact law
          · split
            · exact law
            · split
              · exact law
              · exact law
              · rename_i u hbind
                obtain ⟨y, e⟩ := bindLink_eq ⟨l, ‹_›⟩ (craneConfig x (if pf = 1 then some p else none) ‹_› per lt lp hd)
                  r b o u
                show (bindLink _ _ r b o u).stt.lawful
                rw [e]
                have bound : u.stt.lawful := bindStation_stt law hbind
                exact (presentUncovered_agrees _).stt (by decide) bound
        · split
          · exact updateLink_stt law ..
          · exact law
  · exact law

/-- What a command that is taken does to the station table, its effect does. -/
theorem takeCommand_stt {i : Instr} {run : Nat → State → Taken} (law : s.stt.lawful)
    (h : ∀ room, (run room s).state.stt.lawful) : (takeCommand i run s).stt.lawful := by
  obtain e | ⟨e, -, heq⟩ := takeCommand_cases i run s
  · rwa [e]
  · rw [heq]
    exact (completeCommand_agrees ..).stt (by decide) (h _)

theorem softRestart_stt_lawful (law : s.stt.lawful) : (softRestart s).stt.lawful := by
  rw [softRestart_stt]
  refine ⟨law.statics, ⟨List.Pairwise.nil, by simp [Stt.softRestart]⟩, ?_, by simp [Stt.softRestart]⟩
  simpa [Stt.softRestart] using List.Nodup.of_append_left law.unique

theorem MayRestart.stt {a : List Field} {t : State} (h : MayRestart a s t) (ha : Field.stt ∉ a) (law : s.stt.lawful) :
    t.stt.lawful := by
  obtain ⟨u, hu, rfl | rfl⟩ := h
  · exact hu.stt ha law
  · exact softRestart_stt_lawful (hu.stt ha law)

theorem Stt.hard_lawful : Stt.hard.lawful :=
  ⟨⟨.nil, by simp [Stt.hard]⟩, ⟨.nil, by simp [Stt.hard]⟩, by simp [Stt.hard], by simp [Stt.hard]⟩

theorem exec_stt {i : Instr} {t : State} (law : s.stt.lawful) (h : exec i s = .next t) : t.stt.lawful := by
  cases i with
  | powerOnReset => cases h; exact Stt.hard_lawful
  | pinReset => cases h; exact Stt.hard_lawful
  | resetEnd m a =>
    cases h
    show (if _ then _ else _ : State).stt.lawful
    split
    · exact Stt.hard_lawful
    · exact law
  | initializationEnd =>
    cases h
    show (if _ then _ else _ : State).stt.lawful
    split
    · exact (presentAll_agrees _).stt (by decide) law
    · exact law
  | restartInitializationEnd =>
    cases h
    show (if _ then _ else _ : State).stt.lawful
    split
    · exact (presentAll_agrees _).stt (by decide) ((restartCellChecks_agrees _).stt (by decide) law)
    · exact law
  | sttLinkDown p =>
    cases h
    show (if _ then _ else _ : State).stt.lawful
    split
    · dsimp only
      split
      · exact law
      · unfold stationLinkDown
        split <;> exact law
    · exact law
  | enqueue k => exact (exec_mayRestart (i := .enqueue k) rfl h).stt (by decide) law
  | transmissionEnd p => exact (exec_mayRestart (i := .transmissionEnd p) rfl h).stt (by decide) law
  | fsqLinkDown p => exact (exec_mayRestart (i := .fsqLinkDown p) rfl h).stt (by decide) law
  | restart => exact (execRestart_mayRestart h).stt (by decide) law
  | frameReceived p raw => exact execFrameReceived_keeps frameStable_stt law h
  | agingTimerExpiry =>
    cases h
    split
    · exact law
    · show (if _ then _ else if _ then _ else _ : State).stt.lawful
      split
      · exact law
      · split
        · exact law
        · exact (raise_agrees ..).stt (by decide) law
  | agingSweepVisit =>
    cases h
    split
    · exact law
    · unfold advanceAging
      split
      · exact ageAt_stt law _
      · split <;> exact ageAt_stt law _
  | purgeWalkVisit =>
    cases h
    split
    · exact law
    · unfold advancePurge
      split
      · exact purgeAt_stt law _ _
      · split <;> exact purgeAt_stt law _ _
  | setStation x p => cases h; exact takeCommand_stt law fun _ => takeSetStation_stt law x p
  | clearStation x => cases h; exact takeCommand_stt law fun _ => takeClearStation_stt law x
  | setLearning m p c =>
    cases h
    refine takeCommand_stt law fun _ => ?_
    show (if _ then _ else _ : Stt).lawful
    split <;> exact law
  | setCrane l x pf p hm per lt lp hd r b o => cases h; exact takeCommand_stt law fun _ => takeSetCrane_stt law ..
  | clearCrane l =>
    cases h
    refine takeCommand_stt law fun _ => ?_
    unfold takeClearCrane
    split
    · split
      · exact law
      · refine (presentUncovered_agrees _).stt (by decide) (unbindStation_stt ?_ _)
        split
        · exact (sendSpanFor_agrees ..).stt (by decide) law
        · exact law
    · exact law
  | _ => exact (exec_agrees _ h).stt (by dsimp only [Instr.touches]; decide) law

end

/-- Settles O53. -/
theorem stepsKeepTheStationLaw : Obligations.StepsKeepTheStationLaw := fun s t law hstep =>
  (stt_lawful_iff t).1 (step_keeps (P := fun s => s.stt.lawful) (fun _ _ => id) (fun _ _ _ => exec_stt)
    ((stt_lawful_iff s).2 law) hstep)

end Sys2Proof.Machine
end

section
/-! The law of the management agent (R12, R168, R169): every command keeps it (O60). -/

namespace Sys2Proof.Machine

/-- The law of the agent, of an agent and of whether a swap is pending. -/
def Mga.lawful (m : Mga) (swap : Bool) : Prop :=
  m.queue.length ≤ 4 ∧ match m.phase with
    | .idle | .restartOrdered => True
    | .executing e => e.count ≤ 16 ∧ e.awaited.isSome = true
    | .held e => e.count ≤ 16 ∧ e.awaited = some .commitMap ∧ swap = true

theorem mga_lawful_iff (s : State) : s.mga.lawful s.cvm.swapPending ↔ AgentLaw s := by
  unfold Mga.lawful
  constructor
  · rintro ⟨room, phase⟩
    refine ⟨room, fun e he => ?_, fun e he => ?_⟩ <;> simpa only [he] using phase
  · rintro ⟨room, executing, held⟩
    refine ⟨room, ?_⟩
    cases hp : s.mga.phase with
    | idle | restartOrdered => trivial
    | executing e => exact executing e hp
    | held e => exact held e hp

section
variable {s t : State}

/-- A command that leaves the agent and a pending swap. -/
theorem AgentLaw.congr (h : AgentLaw s) (hmga : t.mga = s.mga) (hswap : t.cvm.swapPending = s.cvm.swapPending) :
    AgentLaw t := by
  rw [← mga_lawful_iff] at *
  rwa [hmga, hswap]

theorem Agrees.agentLaw {c : List Field} (h : Agrees c s t) (hc : Field.mga ∉ c ∧ Field.cvm ∉ c) (law : AgentLaw s) :
    AgentLaw t := law.congr (h.same .mga hc.1) (congrArg Cvm.swapPending (h.same .cvm hc.2))

/-- An agent that holds no frame is lawful whatever stands in the map. -/
theorem AgentLaw.of_mga {queue : List CommandFrame} {phase : Phase} (hmga : t.mga = ⟨queue, phase⟩)
    (room : queue.length ≤ 4)
    (h : phase = .idle ∨ phase = .restartOrdered ∨ ∃ e, phase = .executing e ∧ e.count ≤ 16 ∧ e.awaited.isSome = true) :
    AgentLaw t := by
  rw [← mga_lawful_iff, hmga]
  refine ⟨room, ?_⟩
  obtain rfl | rfl | ⟨e, rfl, he⟩ := h
  · trivial
  · trivial
  · exact he

theorem AgentLaw.of_hard (hmga : t.mga = .hard) : AgentLaw t := .of_mga hmga (Nat.zero_le _) (.inl rfl)

/-- An agent that holds no frame, and is as it was, is lawful whatever stands in the map. -/
theorem AgentLaw.of_unheld (law : AgentLaw s) (hmga : t.mga = s.mga) (hno : ∀ e, t.mga.phase ≠ .held e) : AgentLaw t :=
  ⟨by rw [hmga]; exact law.room, fun e he => law.executing e (hmga ▸ he), fun e he => absurd he (hno e)⟩

/-- A frame that is answered leaves the agent free, or a soft restart ordered or begun (R172 to R174). -/
theorem answer_agentLaw (law : s.mga.queue.length ≤ 4) (restart : Bool) (p : Port) (x y : Sid) (payload : List Byte) :
    AgentLaw (answer restart p x y payload s) := by
  have phased : AgentLaw (s.setMga { s.mga with phase := if restart then .restartOrdered else .idle }) :=
    .of_mga rfl law (by cases restart <;> simp)
  unfold answer
  dsimp only
  generalize s.setMga { s.mga with phase := if restart then .restartOrdered else .idle } = t at phased
  split
  · exact (handOff_agrees ..).agentLaw (by decide) phased
  · split
    · exact .of_hard rfl
    · exact (portDownDrop_agrees ..).agentLaw (by decide) phased

theorem continueFrame_agentLaw (law : s.mga.queue.length ≤ 4) (restart : Bool) {e : Execution} (hcount : e.count ≤ 16)
    (hends : e.count ≤ e.entries.length ∨ e.awaited.isSome = true) : AgentLaw (continueFrame restart e s) := by
  unfold continueFrame
  split
  · exact answer_agentLaw law ..
  · rename_i hmore
    exact .of_mga rfl law (.inr (.inr ⟨e, rfl, hcount, hends.resolve_left hmore⟩))

theorem settle_count (n : Nat) (e : Execution) : (e.settle n).count = e.count :=
  Execution.settle_preserves (fun x => x.count = e.count) (fun _ _ _ h _ => h) n e rfl

/-- A frame of at most 16 commands settles with every entry or at a command that an owner takes (R169). -/
theorem settle_within (e : Execution) (h : e.count ≤ 16) :
    (e.settle 16).count ≤ (e.settle 16).entries.length ∨ (e.settle 16).awaited.isSome = true :=
  Execution.settle_ends 16 e (h.trans (Nat.le_add_left ..))

theorem completeCommand_agentLaw (law : s.mga.queue.length ≤ 4) (restart : Bool) {e : Execution} (hcount : e.count ≤ 16)
    (st : Status) (r : List Byte) : AgentLaw (completeCommand restart e st r s) :=
  continueFrame_agentLaw law restart ((settle_count ..).trans_le hcount) (settle_within _ hcount)

theorem takeCommand_agentLaw {i : Instr} {run : Nat → State → Taken} {c : List Field} (law : AgentLaw s)
    (h : ∀ room, Agrees c s (run room s).state) (hc : Field.mga ∉ c) : AgentLaw (takeCommand i run s) := by
  obtain e | ⟨e, ha, heq⟩ := takeCommand_cases i run s
  · rwa [e]
  · have same : (run e.room s).state.mga = s.mga := (h e.room).same .mga hc
    rw [heq]
    exact completeCommand_agentLaw (same ▸ law.room) false (law.executing e ha.1).1 ..

theorem acceptCommand_agentLaw (f : Frame) (p : Port) (x : Sid) (law : AgentLaw s) : AgentLaw (acceptCommand f p x s) := by
  unfold acceptCommand
  split
  · exact (raise_agrees ..).agentLaw (by decide) ((addDrop_agrees ..).agentLaw (by decide) law)
  · split
    · exact (addDrop_agrees ..).agentLaw (by decide) law
    · split
      · exact (raise_agrees ..).agentLaw (by decide) ((addDrop_agrees ..).agentLaw (by decide) law)
      · rename_i hroom
        have hroom : s.mga.queue.length < 4 := Nat.not_le.1 hroom
        exact ⟨by simpa using hroom, law.executing, law.held⟩

theorem frameStable_agent : FrameStable AgentLaw :=
  ⟨fun h => h.agentLaw (by decide), fun _ _ _ => (countReceived_agrees ..).agentLaw (by decide), fun _ _ _ _ => (offer_agrees ..).agentLaw (by decide),
    fun _ _ _ _ _ => (learn_agrees ..).agentLaw (by decide), fun _ _ => (sttStats_agrees ..).agentLaw (by decide),
    fun f p x _ => acceptCommand_agentLaw f p x⟩

theorem MayRestart.agentLaw {a : List Field} (h : MayRestart a s t) (ha : Field.mga ∉ a ∧ Field.cvm ∉ a)
    (law : AgentLaw s) : AgentLaw t := by
  obtain ⟨u, hu, rfl | rfl⟩ := h
  · exact hu.agentLaw ha law
  · exact .of_hard rfl

/-- A swap ends the COMMIT-MAP that is held (R12, R13). -/
theorem swapMap_agentLaw (law : AgentLaw s) : AgentLaw (swapMap s) := by
  have before : Agrees Field.reports (s.setCvm s.cvm.swapped) (sendMapSwapped (presentMapInvalid
      (raise Src.mapCommitted (.bank s.cvm.swapped.activeIsOne) (s.setCvm s.cvm.swapped)))) :=
    ((raise_agrees ..).step (presentMapInvalid_agrees _)).step (sendMapSwapped_agrees _)
  unfold swapMap
  dsimp only [State.setCvm_cvm]
  generalize sendMapSwapped (presentMapInvalid
      (raise Src.mapCommitted (.bank s.cvm.swapped.activeIsOne) (s.setCvm s.cvm.swapped))) = u at before
  have hmga : u.mga = s.mga := before.same .mga (by decide)
  unfold completeCommit
  split
  · rename_i e he
    rw [hmga] at he
    exact completeCommand_agentLaw (hmga ▸ law.room) false (law.held e he).1 ..
  all_goals
    rename_i hphase
    exact law.of_unheld hmga fun e he => by simp [hphase] at he

theorem AgentLaw.setOverlay (law : AgentLaw s) (o : Vector Nat 256) :
    AgentLaw (s.setCvm { s.cvm with overlay := o }) := law.congr rfl rfl

theorem exec_agentLaw {i : Instr} (law : AgentLaw s) (h : exec i s = .next t) : AgentLaw t := by
  cases i with
  | powerOnReset => cases h; exact .of_hard rfl
  | pinReset => cases h; exact .of_hard rfl
  | resetEnd m a =>
    cases h
    show AgentLaw (if _ then _ else _ : State)
    split
    · exact .of_hard rfl
    · exact law
  | initializationEnd =>
    have started : AgentLaw (startTimers { s with part := .running }) := law.congr rfl rfl
    cases h
    show AgentLaw (if _ then _ else _ : State)
    split
    · exact (presentAll_agrees _).agentLaw (by decide) started
    · exact law
  | restartInitializationEnd =>
    have started : AgentLaw (startTimers { s with part := .running }) := law.congr rfl rfl
    cases h
    show AgentLaw (if _ then _ else _ : State)
    split
    · exact (presentAll_agrees _).agentLaw (by decide) ((restartCellChecks_agrees _).agentLaw (by decide) started)
    · exact law
  | addSpan g =>
    cases h
    split
    · exact law
    · rename_i hspan
      exact ((takeSpan_agrees hspan).agentLaw (by decide) law).setOverlay _
  | removeSpan g =>
    cases h
    split
    · exact law
    · rename_i hspan
      exact ((takeSpan_agrees hspan).agentLaw (by decide) law).setOverlay _
  | coverageEpochExpiry =>
    cases h
    split
    · exact law
    · show AgentLaw (if _ then _ else _ : State)
      split
      · exact swapMap_agentLaw (law.congr rfl rfl)
      · exact law.congr rfl rfl
  | frameReceived p raw => exact execFrameReceived_keeps frameStable_agent law h
  | enqueue k => exact (exec_mayRestart (i := .enqueue k) rfl h).agentLaw (by decide) law
  | transmissionEnd p => exact (exec_mayRestart (i := .transmissionEnd p) rfl h).agentLaw (by decide) law
  | fsqLinkDown p => exact (exec_mayRestart (i := .fsqLinkDown p) rfl h).agentLaw (by decide) law
  | commandFrameTake =>
    change execCommandFrameTake s = _ at h
    unfold execCommandFrameTake at h
    split at h <;> cases h
    · rename_i f r _ hqueue
      have room : r.length ≤ 4 := by
        have := law.room
        rw [hqueue] at this
        exact (Nat.le_succ _).trans this
      unfold beginFrame
      split
      · exact answer_agentLaw room ..
      · rename_i hcount
        have hcount : f.begin.count ≤ 16 := Nat.not_lt.1 fun hlt => hcount (.inr hlt)
        exact continueFrame_agentLaw room false ((settle_count ..).trans_le hcount) (settle_within _ hcount)
    · exact law
  | restart =>
    cases h
    split
    · exact law
    · rename_i e he
      have hcount := (law.executing e (awaits_of_executionAt he).1).1
      split <;> exact completeCommand_agentLaw law.room _ hcount ..
  | commitMap =>
    cases h
    split
    · exact law
    · rename_i e he
      obtain ⟨hphase, ha⟩ := awaits_of_executionAt he
      refine ⟨law.room, fun x hx => (nomatch hx), fun x hx => ?_⟩
      cases hx
      exact ⟨(law.executing e hphase).1, ha, rfl⟩
  | ident => cases h; exact takeCommand_agentLaw law (fun _ => .refl [] s) (by decide)
  | setIdent x => cases h; exact takeCommand_agentLaw law (fun _ => takeSetIdent_agrees x s) (by decide)
  | setPort p m q o => cases h; exact takeCommand_agentLaw law (fun _ => takeSetPort_agrees p m q o s) (by decide)
  | setGroup g b m v => cases h; exact takeCommand_agentLaw law (fun _ => takeSetGroup_agrees g b m v s) (by decide)
  | setClass g c b m v d o =>
    cases h; exact takeCommand_agentLaw law (fun _ => takeSetClass_agrees g c b m v d o s) (by decide)
  | readClass g c => cases h; exact takeCommand_agentLaw law (fun _ => takeReadClass_agrees g c s) (by decide)
  | setDomain d e r x q => cases h; exact takeCommand_agentLaw law (fun _ => takeSetDomain_agrees d e r x q s) (by decide)
  | readDomain d => cases h; exact takeCommand_agentLaw law (fun _ => takeReadDomain_agrees d s) (by decide)
  | setStation x p => cases h; exact takeCommand_agentLaw law (fun _ => takeSetStation_agrees x p s) (by decide)
  | clearStation x => cases h; exact takeCommand_agentLaw law (fun _ => takeClearStation_agrees x s) (by decide)
  | readStation x => cases h; exact takeCommand_agentLaw law (fun _ => takeReadStation_agrees x s) (by decide)
  | listStations c a => cases h; exact takeCommand_agentLaw law (fun room => takeListStations_agrees c a room s) (by decide)
  | setLearning m p c => cases h; exact takeCommand_agentLaw law (fun _ => takeSetLearning_agrees m p c s) (by decide)
  | setCrane l x pf p hm per lt lp hd r b o =>
    cases h; exact takeCommand_agentLaw law (fun _ => takeSetCrane_agrees l x pf p hm per lt lp hd r b o s) (by decide)
  | clearCrane l => cases h; exact takeCommand_agentLaw law (fun _ => takeClearCrane_agrees l s) (by decide)
  | readCrane l c => cases h; exact takeCommand_agentLaw law (fun _ => takeReadCrane_agrees l c s) (by decide)
  | setGeometry o l y => cases h; exact takeCommand_agentLaw law (fun _ => setCvm_agrees ..) (by decide)
  | setWindow a b c d e f => cases h; exact takeCommand_agentLaw law (fun _ => takeSetWindow_agrees a b c d e f s) (by decide)
  | streamCells c k v => cases h; exact takeCommand_agentLaw law (fun _ => takeStreamCells_agrees c k v s) (by decide)
  | readCells b c k => cases h; exact takeCommand_agentLaw law (fun room => takeReadCells_agrees b c k room s) (by decide)
  | copyActive => cases h; exact takeCommand_agentLaw law (fun _ => setCvm_agrees ..) (by decide)
  | setEpoch p => cases h; exact takeCommand_agentLaw law (fun _ => setCvm_agrees ..) (by decide)
  | setReefer a b c d e f g y =>
    cases h; exact takeCommand_agentLaw law (fun _ => takeSetReefer_agrees a b c d e f g y s) (by decide)
  | readReefer x => cases h; exact takeCommand_agentLaw law (fun _ => takeReadReefer_agrees x s) (by decide)
  | listReefers a f => cases h; exact takeCommand_agentLaw law (fun room => takeListReefers_agrees a f room s) (by decide)
  | forgetReefer x => cases h; exact takeCommand_agentLaw law (fun _ => takeForgetReefer_agrees x s) (by decide)
  | setRate k i w r b o => cases h; exact takeCommand_agentLaw law (fun _ => takeSetRate_agrees k i w r b o s) (by decide)
  | setQueue p q l => cases h; exact takeCommand_agentLaw law (fun _ => takeSetQueue_agrees p q l s) (by decide)
  | setSched p b d => cases h; exact takeCommand_agentLaw law (fun _ => takeSetSched_agrees p b d s) (by decide)
  | setReserve r c => cases h; exact takeCommand_agentLaw law (fun _ => takeSetReserve_agrees r c s) (by decide)
  | readCounters x c => cases h; exact takeCommand_agentLaw law (fun room => takeReadCounters_agrees x c room s) (by decide)
  | setNotice x m l => cases h; exact takeCommand_agentLaw law (fun _ => takeSetNotice_agrees x m l s) (by decide)
  | setNoticeDest p x r b y =>
    cases h; exact takeCommand_agentLaw law (fun _ => takeSetNoticeDest_agrees p x r b y s) (by decide)
  | readNotice x c => cases h; exact takeCommand_agentLaw law (fun _ => takeReadNotice_agrees x c s) (by decide)
  | clearNotice x => cases h; exact takeCommand_agentLaw law (fun _ => takeClearNotice_agrees x s) (by decide)
  | _ => exact (exec_agrees _ h).agentLaw (by dsimp only [Instr.touches]; decide) law

end

/-- Settles O60. -/
theorem stepsKeepTheAgentLaw : Obligations.StepsKeepTheAgentLaw := fun _ _ =>
  step_keeps (fun _ _ law => ⟨law.room, law.executing, law.held⟩) fun _ _ _ => exec_agentLaw

end Sys2Proof.Machine
end

section
/-! The events of the frame store, for a law that reads the frame store and the port records: it is kept where selections,
entries added and removed, the pool's cells and a soft restart keep it (chapter 8). -/

namespace Sys2Proof.Machine

/-- What the events of the frame store may touch beside it. -/
abbrev Field.besideStore : List Field :=
  [.part, .sid, .seconds, .restarts, .cvm, .idc, .stt, .links, .rcn, .ntu, .ctb, .mga, .flight, .wire, .freeUse]

/-- A law that reads the frame store and the port records, and that the work of the frame store keeps, where the frames it
stores meet `ok`. -/
structure StoreStable (ok : Body → Prop) (P : State → Prop) : Prop where
  quiet     : ∀ {s t}, Agrees Field.besideStore s t → P s → P t
  selected  : ∀ p s, P s → P (select p s)
  restarted : ∀ s, P s → P (softRestart s)
  stored    : ∀ {r ds s}, ok r.body → ds ≠ [] → cellsOf r.body.length ≤ s.fsq.free → P s → P (storeFrame r ds s)
  batched   : ∀ {r bytes d ds s}, r.body = .batch bytes → r.queues = d :: ds → ok r.body → P s →
    P (pushEntry (.batch (storedBytes s r)) s d)
  ended     : ∀ {p cls e rest s}, ((s.queues p).get cls).entries = e :: rest → P s → P (transmissionEnded p cls e rest s)
  stopped   : ∀ {p cls s}, ((s.queues p).get cls).entries = [] → P s →
    P (s.setQueues p { s.queues p with sending := none })
  emptied   : ∀ p s, P s → P (portEmptied p s)

theorem foldl_keeps {α : Type} {P : State → Prop} {f : State → α → State} (hf : ∀ s x, P s → P (f s x)) (xs : List α)
    {s : State} (h : P s) : P (xs.foldl f s) := by
  induction xs generalizing s with
  | nil => exact h
  | cons x xs ih => exact ih (hf s x h)

theorem judgeQueue_admitted {s : State} {kind : Kind} {n : Nat} {d : Port × QClass}
    (h : judgeQueue s kind n d = .admitted) : n ≤ s.fsq.free := by
  unfold judgeQueue at h
  dsimp only at h
  split_ifs at h with hdown hmode hclass hroom hroom
  · exact hroom.2
  · exact le_trans (Nat.le_add_right ..) hroom.2

section
variable {ok : Body → Prop} {P : State → Prop} (law : StoreStable ok P) {s : State}
include law

theorem admissionEvent_keeps (o : Origin) (admitted : Bool) (h : P s) : P (admissionEvent o admitted s) := by
  unfold admissionEvent
  split
  · exact law.quiet ((setNtu_agrees ..).mono (by decide)) h
  · exact law.quiet ((setNtu_agrees ..).mono (by decide)) h
  · exact law.restarted s h
  all_goals exact h

theorem takeFrame_keeps {r : EnqueueRequest} (hok : ok r.body) (h : P s) : P (takeFrame r s) := by
  have counts := Agrees.foldl (fun t (d : Port × QClass) =>
    countRefusal_agrees d (judgeQueue s r.kind (cellsOf r.body.length) d) t) r.queues s
  have counted := law.quiet (counts.mono (by decide)) h
  have same := counts.same .fsq (by decide)
  unfold takeFrame
  dsimp only
  split
  · exact admissionEvent_keeps law _ _ counted
  · rename_i hne
    refine admissionEvent_keeps law _ _ (law.stored hok hne ?_ counted)
    obtain ⟨d, hd⟩ := List.exists_mem_of_ne_nil _ hne
    have admitted := judgeQueue_admitted (beq_iff_eq.1 (List.mem_filter.1 hd).2)
    rwa [same]

omit law in
theorem withAddresses_length (dst src : Mac) (bytes : List Byte) :
    (withAddresses dst src bytes).length = max 64 (12 + bytes.length) := by
  simp [withAddresses, macBytes, be2, be4]
  omega

omit law in
theorem storedBytes_batch_length {r : EnqueueRequest} {bytes : List Byte} {d : Port × QClass} {ds : List (Port × QClass)}
    (hbody : r.body = .batch bytes) (hqueues : r.queues = d :: ds) : (storedBytes s r).length = r.body.length := by
  simp only [storedBytes, hbody, hqueues]
  exact withAddresses_length ..

theorem takeBatch_keeps {r : EnqueueRequest} {bytes : List Byte} (hbody : r.body = .batch bytes)
    (hok : ok r.body) (h : P s) : P (takeBatch r s) := by
  unfold takeBatch
  split
  · exact h
  · rename_i d ds hqueues
    split
    · exact law.selected _ _ (law.batched hbody hqueues hok h)
    · exact law.quiet (((portDownDrop_agrees ..).mono (by decide)).step (batchDiscarded_agrees _)) h

theorem takeEnqueue_keeps {r : EnqueueRequest} (hok : ok r.body) (h : P s) : P (takeEnqueue r s) := by
  unfold takeEnqueue
  split
  · rename_i hbody
    exact takeBatch_keeps law hbody hok h
  all_goals exact takeFrame_keeps law hok h

theorem endTransmission_keeps {p : Port} {cls : QClass} {e : Entry} {rest : List Entry}
    (hhead : ((s.queues p).get cls).entries = e :: rest) (h : P s) : P (endTransmission p cls e rest s) := by
  have ended := law.ended hhead h
  have counted : P (transmissionCounted p e (transmissionEnded p cls e rest s)) :=
    law.quiet ((transmissionCounted_reported p e _).frame.agrees.mono (by decide)) ended
  rw [endTransmission_eq]
  dsimp only
  generalize transmissionCounted p e (transmissionEnded p cls e rest s) = t at counted
  have batched : P (if e.isBatch then batchTransmitted t else t) := by
    split
    · exact law.quiet ((batchTransmitted_agrees t).mono (by decide)) counted
    · exact counted
  split
  · exact law.restarted _ batched
  · exact law.selected p _ batched

theorem discardPort_keeps (p : Port) (h : P s) : P (discardPort p s) := by
  have counted := law.quiet ((discardCounted_reported p (abortedAt p s) ((s.queues p).entries.length - abortedAt p s)
    (portEmptied p s)).frame.agrees.mono (by decide)) (law.emptied p s h)
  rw [discardPort_eq]
  dsimp only
  generalize discardCounted p _ _ (portEmptied p s) = t at counted
  have batched : P (if (s.queues p).entries.any Entry.isBatch then batchDiscarded t else t) := by
    split
    · exact law.quiet ((batchDiscarded_agrees t).mono (by decide)) counted
    · exact counted
  split
  · exact law.restarted _ batched
  · exact batched

/-- The events of the frame store keep the law. -/
theorem storeEvent_keeps {i : Instr} {t : State} (hi : Instr.mayRestart i = true) (hframes : FramesMeet ok s) (h : P s)
    (hexec : exec i s = .next t) : P t := by
  have flight (x : Flight) : P (s.setFlight x) := law.quiet ((setFlight_agrees ..).mono (by decide)) h
  cases i with
  | enqueue k =>
    cases hexec
    split
    · exact h
    · rename_i r hr
      exact takeEnqueue_keeps law (hframes r (List.mem_of_getElem? hr)) (flight _)
  | transmissionEnd p =>
    cases hexec
    split
    · exact h
    · split
      · exact law.stopped ‹_› h
      · rename_i hhead
        exact endTransmission_keeps law hhead h
  | fsqLinkDown p =>
    cases hexec
    show P (if _ then _ else _ : State)
    split
    · exact discardPort_keeps law p (flight _)
    · exact h
  | _ => cases hi

theorem execRestart_keeps {t : State} (h : P s) (hexec : execRestart s = .next t) : P t := by
  obtain ⟨u, hu, rfl | rfl⟩ := execRestart_mayRestart hexec
  · exact law.quiet (hu.mono (by decide)) h
  · exact law.restarted u (law.quiet (hu.mono (by decide)) h)

end

/-! ### Laws of the entries -/

/-- A law that does not read the stored frames, and that entries added and removed keep; `len` holds of the length of
every entry that is added. -/
structure EntryStable (len : Nat → Prop) (P : State → Prop) : Prop where
  quiet     : ∀ {s t}, Agrees Field.besideStore s t → P s → P t
  selected  : ∀ p s, P s → P (select p s)
  restarted : ∀ s, P s → P (softRestart s)
  pushed    : ∀ e s d, len e.length → P s → P (pushEntry e s d)
  popped    : ∀ {p cls e rest s}, ((s.queues p).get cls).entries = e :: rest → P s →
    P (s.setQueues p { (s.queues p).set cls { (s.queues p).get cls with entries := rest } with sending := none })
  stopped   : ∀ p s, P s → P (s.setQueues p { s.queues p with sending := none })
  emptied   : ∀ p s, P s → P (s.setQueues p (s.queues p).emptied)
  pooled    : ∀ free store s, P s → P (s.setFsq { s.fsq with free := free, store := store })

section
variable {len : Nat → Prop} {P : State → Prop} (law : EntryStable len P) {s : State}
include law

theorem releaseEntry_keeps (e : Entry) (h : P s) : P (releaseEntry s e) := by
  unfold releaseEntry
  split
  · exact h
  · split
    · exact h
    · split <;> exact law.pooled _ _ s h

theorem storeFrame_keeps {r : EnqueueRequest} (hlen : len r.body.length) (ds : List (Port × QClass)) (h : P s) :
    P (storeFrame r ds s) := by
  have pushed (id n : Nat) (t : State) (ht : P t) : P (ds.foldl (pushEntry (.frame id n r.body.length)) t) :=
    foldl_keeps (fun t d => law.pushed (.frame id n r.body.length) t d hlen) ds ht
  unfold storeFrame
  refine foldl_keeps (fun t (d : Port × QClass) => law.selected d.1 t) _ ?_
  exact law.quiet ((presentPoolLow_agrees _).mono (by decide)) (pushed _ _ _ (law.pooled _ _ s h))

theorem EntryStable.storeStable : StoreStable (fun x => len x.length) P where
  quiet := law.quiet
  selected := law.selected
  restarted := law.restarted
  stored hlen _ _ := storeFrame_keeps law hlen _
  batched {r bytes d ds s} hbody hqueues hlen := law.pushed _ s d (by
    rwa [← storedBytes_batch_length (s := s) hbody hqueues] at hlen)
  ended {p cls e rest s} hhead h := by
    have sent : P { s with wire := s.wire ++ [(p, entryBytes s e ++ fcsBytes (entryBytes s e))] } :=
      law.quiet ((setWire_agrees _ s).mono (by decide)) h
    exact releaseEntry_keeps law e (law.popped hhead sent)
  stopped _ := law.stopped _ _
  emptied p s h := foldl_keeps (fun t e => releaseEntry_keeps law e) _ (law.emptied p s h)

end

end Sys2Proof.Machine
end

section
/-! The buckets (R149 to R155): every command keeps the laws of their credits (O57). -/

namespace Sys2Proof.Machine

/-- A law that reads the frame store and the port records, and that every command keeps, where the frames on their way to
the FSQ meet `ok`. -/
structure StoreLaw (ok : Body → Prop) (P : State → Prop) : Prop extends StoreStable ok P where
  hard       : ∀ part straps map s, P (hardValues part straps map s)
  started    : ∀ s, P s → P (startTimers s)
  ported     : ∀ p r s, r.overhead ≤ 63 ∨ r.overhead = (s.port p).overhead → P s → P (s.setPort p r)
  offered    : ∀ b n p s, P s → P (offer b n p s).2
  refilled   : ∀ b s, P s → P (s.setBucket b (s.bucket b).refilled)
  written    : ∀ b rate burst o s, P s → P (s.setBucket b ((s.bucket b).reprogram rate burst o))
  filled     : ∀ b rate burst o s, P s → P (s.setBucket b
    { (s.bucket b).reprogram rate burst o with credit := ((s.bucket b).reprogram rate burst o).cmax })
  configured : ∀ {p x s}, (∀ cls, (x.get cls).entries = ((s.queues p).get cls).entries) →
    x.sending = (s.queues p).sending → P s → P (s.setQueues p x)
  reserved   : ∀ n k s, P s → P (s.setFsq { s.fsq with reserve := n, overBurst := k })

@[simp] theorem PortQueues.get_set (x : PortQueues) (k cls : QClass) (q : Queue) :
    (x.set k q).get cls = if cls = k then q else x.get cls := by
  cases k <;> cases cls <;> rfl

@[simp] theorem PortQueues.sending_set (x : PortQueues) (k : QClass) (q : Queue) : (x.set k q).sending = x.sending := by
  cases k <;> rfl

section
variable {ok : Body → Prop} {P : State → Prop} (law : StoreLaw ok P) {s : State}
include law

theorem StoreLaw.frameStable : FrameStable P where
  quiet h := law.quiet (h.mono (by decide))
  arrived p b s h := by
    have counted : P (bump p Ctr.rxFrames 1 (bump p Ctr.rxBytes b.length s)) :=
      law.quiet (((bump_agrees ..).mono (by decide)).step (bump_agrees ..)) h
    exact law.ported _ _ _ (.inr rfl) counted
  offered := law.offered
  learnt sid q g s _ := law.quiet ((learn_agrees ..).mono (by decide))
  counted f s := law.quiet ((sttStats_agrees ..).mono (by decide))
  accepted f p x s := law.quiet ((acceptCommand_agrees ..).mono (by decide))

theorem StoreLaw.changePort {p : Port} {r : PortRec} (c : Cause)
    (hr : r.overhead ≤ 63 ∨ r.overhead = (s.port p).overhead) (h : P s) : P (changePort p r c s) := by
  have written := law.ported p r s hr h
  unfold Machine.changePort
  dsimp only
  split
  · split
    · exact law.quiet ((announceDown_agrees ..).mono (by decide)) written
    · exact law.quiet ((announceUp_agrees ..).mono (by decide)) written
    · exact written
    · exact written
  · exact written

theorem StoreLaw.takeCommand {i : Instr} {run : Nat → State → Taken} (h : P s) (hrun : ∀ room, P (run room s).state) :
    P (takeCommand i run s) := by
  obtain e | ⟨e, -, heq⟩ := takeCommand_cases i run s
  · rwa [e]
  · rw [heq]
    exact law.quiet ((completeCommand_agrees ..).mono (by decide)) (hrun _)

omit law in
theorem keepOr_overhead (old n : Nat) : keepOr 255 0 63 old n ≤ 63 ∨ keepOr 255 0 63 old n = old := by
  unfold keepOr clampTo
  split
  · exact .inr rfl
  · omega

theorem StoreLaw.takeSetPort (p m q o : Nat) (h : P s) : P (takeSetPort p m q o s).state := by
  unfold Machine.takeSetPort
  split
  · exact h
  · dsimp only
    split
    · split
      · exact h
      · exact law.changePort _ (keepOr_overhead ..) h
    · exact h

theorem StoreLaw.bindLink (l : LinkNo) (c : LinkConfig) (r b o : Nat) (h : P s) : P (bindLink l c r b o s) := by
  refine law.quiet ((presentUncovered_agrees _).mono (by decide)) ?_
  exact law.filled (linkBucket l) r b (flagSet o) (s.setLink l (Link.bound c)) (law.quiet ((setLink_agrees ..).mono (by decide)) h)

theorem StoreLaw.updateLink (l : LinkNo) (c : LinkConfig) (r b o : Nat) (h : P s) : P (updateLink l c r b o s) := by
  have updated := law.written (linkBucket l) r b (flagSet o) (s.setLink l { s.link l with config := c })
    (law.quiet ((setLink_agrees ..).mono (by decide)) h)
  unfold Machine.updateLink
  dsimp only
  split
  · exact updated
  · exact law.quiet ((presentUncovered_agrees _).mono (by decide)) updated

theorem StoreLaw.takeSetCrane (l : Nat) (x : Sid) (pf : Nat) (p : Sid) (home per lt lp hd r b o : Nat) (h : P s) :
    P (takeSetCrane l x pf p home per lt lp hd r b o s).state := by
  unfold Machine.takeSetCrane
  split
  · split
    · exact h
    · split
      · exact h
      · dsimp only
        split
        · unfold takeBinding
          split
          · exact h
          · split
            · exact h
            · split
              · exact h
              · exact h
              · rename_i u hbind
                have bound : P u := law.quiet ((bindStation_agrees hbind).mono (by decide)) h
                exact law.bindLink _ _ _ _ _ bound
        · split
          · exact law.updateLink _ _ _ _ _ h
          · exact h
  · exact h

theorem StoreLaw.takeSetRate (k i w r b o : Nat) (h : P s) : P (takeSetRate k i w r b o s).state := by
  unfold Machine.takeSetRate
  split
  · exact h
  · split
    · exact h
    · split
      · exact h
      · rename_i x _ _ _
        have written := law.written x r b (flagSet o) s h
        dsimp only [taken]
        unfold writeRate
        dsimp only
        split
        · exact written
        · exact law.selected _ _ written

theorem StoreLaw.takeSetQueue (p q l : Nat) (h : P s) : P (takeSetQueue p q l s).state := by
  unfold Machine.takeSetQueue
  split
  · refine law.configured (fun cls => ?_) (PortQueues.sending_set ..) h
    rw [PortQueues.get_set]
    split
    · rename_i e
      rw [e]
    · rfl
  · exact h

theorem StoreLaw.takeSetSched (p b d : Nat) (h : P s) : P (takeSetSched p b d s).state := by
  unfold Machine.takeSetSched
  split
  · exact h
  · exact law.configured (fun cls => by cases cls <;> rfl) rfl h

theorem StoreLaw.takeSetReserve (r c : Nat) (h : P s) : P (takeSetReserve r c s).state := by
  unfold Machine.takeSetReserve
  refine law.quiet ((presentPoolLow_agrees _).mono (by decide)) ?_
  split
  · exact law.reserved (min 1024 r) 0 s h
  · exact law.reserved (min 1024 r) s.fsq.overBurst s h

/-- Every command keeps the law. -/
theorem StoreLaw.exec {i : Instr} {t : State} (hframes : FramesMeet ok s) (h : P s)
    (hexec : exec i s = .next t) : P t := by
  cases i with
  | powerOnReset => cases hexec; exact law.hard ..
  | pinReset => cases hexec; exact law.hard ..
  | resetEnd m a =>
    cases hexec
    show P (if _ then _ else _ : State)
    split
    · exact law.hard ..
    · exact h
  | initializationEnd =>
    have started := law.started _ (law.quiet ((setPart_agrees .running s).mono (by decide)) h)
    cases hexec
    show P (if _ then _ else _ : State)
    split
    · exact law.quiet ((presentAll_agrees _).mono (by decide)) started
    · exact h
  | restartInitializationEnd =>
    have started := law.started _ (law.quiet ((setPart_agrees .running s).mono (by decide)) h)
    cases hexec
    show P (if _ then _ else _ : State)
    split
    · exact law.quiet (((restartCellChecks_agrees _).mono (by decide)).step (presentAll_agrees _)) started
    · exact h
  | phyLossOfLink p => cases hexec; exact law.changePort _ (.inr rfl) h
  | phyLinkReport p => cases hexec; exact law.changePort _ (.inr rfl) h
  | enqueue k => exact storeEvent_keeps law.toStoreStable (i := .enqueue k) rfl hframes h hexec
  | transmissionEnd p => exact storeEvent_keeps law.toStoreStable (i := .transmissionEnd p) rfl hframes h hexec
  | fsqLinkDown p => exact storeEvent_keeps law.toStoreStable (i := .fsqLinkDown p) rfl hframes h hexec
  | restart => exact execRestart_keeps law.toStoreStable h hexec
  | frameReceived p raw => exact execFrameReceived_keeps law.frameStable h hexec
  | refillExpiry b =>
    cases hexec
    show P (if _ then _ else _ : State)
    split
    · dsimp only
      split
      · exact law.refilled b s h
      · exact law.selected _ _ (law.refilled b s h)
    · exact h
  | setPort p m q o => cases hexec; exact law.takeCommand h fun _ => law.takeSetPort p m q o h
  | setCrane l x pf p hm per lt lp hd r b o => cases hexec; exact law.takeCommand h fun _ => law.takeSetCrane _ _ _ _ _ _ _ _ _ _ _ _ h
  | setRate k i w r b o => cases hexec; exact law.takeCommand h fun _ => law.takeSetRate k i w r b o h
  | setQueue p q l => cases hexec; exact law.takeCommand h fun _ => law.takeSetQueue p q l h
  | setSched p b d => cases hexec; exact law.takeCommand h fun _ => law.takeSetSched p b d h
  | setReserve r c => cases hexec; exact law.takeCommand h fun _ => law.takeSetReserve r c h
  | _ => exact law.quiet ((exec_agrees _ hexec).mono (by dsimp only [Instr.touches]; decide)) h

end

end Sys2Proof.Machine
end

section
/-! The credits of the buckets (R149 to R153): every command keeps their laws (O57). -/

namespace Sys2Proof.Machine

/-- A law of a single bucket that everything done to a bucket keeps, where the frames it is charged for have lengths of
which `len` holds, and the ports overheads of which `ovh` holds. -/
structure BucketRule (B : BucketNo → Bucket → Prop) (len ovh : Nat → Prop) : Prop where
  hard         : ∀ b, B b .hard
  restarted    : ∀ {b x}, B b x → B b x.softRestart
  started      : ∀ {b x}, B b x → B b { x with refill := true }
  refilled     : ∀ {b x}, B b x → B b x.refilled
  reprogrammed : ∀ {b x} rate burst o, B b x → B b (x.reprogram rate burst o)
  filled       : ∀ {b x} rate burst o, B b x → B b
    { x.reprogram rate burst o with credit := (x.reprogram rate burst o).cmax }
  offered      : ∀ {b x cost}, 0 ≤ cost → cost ≤ x.credit → B b x → B b { x with credit := x.credit - cost }
  charged      : ∀ {b x n o}, 81 ≤ b.val → len n → ovh o → 0 ≤ x.credit → B b x →
    B b { x with credit := x.credit - costOf x n o }
  overhead     : ∀ o, o ≤ 63 → ovh o

/-- Every bucket is lawful, and what it may be charged for is. -/
structure BucketsLaw (B : BucketNo → Bucket → Prop) (len ovh : Nat → Prop) (s : State) : Prop where
  buckets   : ∀ b, B b (s.bucket b)
  overheads : ∀ p, ovh (s.port p).overhead
  entries   : ∀ p cls, ∀ e ∈ ((s.queues p).get cls).entries, len e.length

@[simp] theorem PortQueues.get_serve (x : PortQueues) (t : Turn) (cls : QClass) : (x.serve t).get cls = x.get cls := by
  unfold PortQueues.serve
  generalize (if t = x.turn then x.served else 0) + 1 = n
  dsimp only
  split <;> cases cls <;> rfl

@[simp] theorem PortQueues.get_sending (x : PortQueues) (o : Option QClass) (cls : QClass) :
    ({ x with sending := o } : PortQueues).get cls = x.get cls := by cases cls <;> rfl

@[simp] theorem PortQueues.get_emptied (x : PortQueues) (cls : QClass) : (x.emptied.get cls).entries = [] := by
  cases cls <;> rfl

/-- A selection chooses an eligible queue, and moves at most the turn (R145). -/
theorem chooseQueue_some {s : State} {p : Port} {cls : QClass} {x : PortQueues} (h : chooseQueue s p = some (cls, x)) :
    eligible s p cls = true ∧ (x = s.queues p ∨ ∃ t : Turn, x = (s.queues p).serve t) := by
  unfold chooseQueue at h
  dsimp only at h
  split at h
  · cases h
    exact ⟨‹_›, .inl rfl⟩
  · split at h
    · cases h
      exact ⟨‹_›, .inl rfl⟩
    · split at h
      · rename_i hb hd
        cases h
        refine ⟨?_, .inr ⟨_, rfl⟩⟩
        cases (s.queues p).turn
        · exact hb
        · exact hd
      · cases h
        exact ⟨‹_›, .inr ⟨_, rfl⟩⟩
      · cases h
        exact ⟨‹_›, .inr ⟨_, rfl⟩⟩
      · cases h

theorem chooseQueue_get {s : State} {p : Port} {cls : QClass} {x : PortQueues} (h : chooseQueue s p = some (cls, x))
    (k : QClass) : x.get k = (s.queues p).get k := by
  obtain ⟨-, rfl | ⟨t, rfl⟩⟩ := chooseQueue_some h
  · rfl
  · exact PortQueues.get_serve ..

theorem costOf_nonneg (x : Bucket) (n o : Nat) : 0 ≤ costOf x n o := by
  unfold costOf
  split <;> omega

section
variable {B : BucketNo → Bucket → Prop} {len ovh : Nat → Prop} {s t : State}

theorem BucketsLaw.congr (h : BucketsLaw B len ovh s) (hports : t.ports = s.ports)
    (hqueues : t.fsq.ports = s.fsq.ports) (hbuckets : t.fsq.buckets = s.fsq.buckets) : BucketsLaw B len ovh t := by
  have port (p : Port) : t.port p = s.port p := by unfold State.port; rw [hports]
  have queues (p : Port) : t.queues p = s.queues p := by unfold State.queues; rw [hqueues]
  have bucket (b : BucketNo) : t.bucket b = s.bucket b := by unfold State.bucket; rw [hbuckets]
  exact ⟨fun b => bucket b ▸ h.buckets b, fun p => port p ▸ h.overheads p, fun p => queues p ▸ h.entries p⟩

theorem BucketsLaw.setBucket (h : BucketsLaw B len ovh s) {b : BucketNo} {x : Bucket} (hx : B b x) :
    BucketsLaw B len ovh (s.setBucket b x) := by
  refine ⟨fun c => ?_, h.overheads, h.entries⟩
  rw [State.bucket_setBucket]
  split
  · rename_i e
    exact e ▸ hx
  · exact h.buckets c

theorem BucketsLaw.setQueues (h : BucketsLaw B len ovh s) {p : Port} {x : PortQueues}
    (hx : ∀ cls, ∀ e ∈ (x.get cls).entries, len e.length) : BucketsLaw B len ovh (s.setQueues p x) := by
  refine ⟨h.buckets, h.overheads, fun q => ?_⟩
  rw [State.queues_setQueues]
  split
  · exact hx
  · exact h.entries q

theorem BucketsLaw.setPort (h : BucketsLaw B len ovh s) {p : Port} {r : PortRec} (hr : ovh r.overhead) :
    BucketsLaw B len ovh (s.setPort p r) := by
  refine ⟨h.buckets, fun q => ?_, h.entries⟩
  rw [State.port_setPort]
  split
  · exact hr
  · exact h.overheads q

theorem BucketsLaw.of_hard (rule : BucketRule B len ovh) {ports : Vector PortRec 14}
    (hfsq : s.fsq = .hard) (hports : s.ports = ports) (hover : ∀ p, (ports.get p).overhead = 20) :
    BucketsLaw B len ovh s := by
  refine ⟨fun b => ?_, fun p => ?_, fun p cls e he => ?_⟩
  · unfold State.bucket
    rw [hfsq, show Fsq.hard.buckets = Vector.replicate 137 .hard from rfl, vector_get_replicate]
    exact rule.hard b
  · unfold State.port
    rw [hports, hover]
    exact rule.overhead 20 (by decide)
  · unfold State.queues at he
    rw [hfsq, show Fsq.hard.ports = Vector.replicate 14 .hard from rfl, vector_get_replicate] at he
    cases cls <;> cases he

/-- A selection charges the shaper of an eligible queue for the head entry of that queue (R145, R153). -/
theorem BucketsLaw.select (rule : BucketRule B len ovh) (p : Port) (h : BucketsLaw B len ovh s) :
    BucketsLaw B len ovh (select p s) := by
  unfold Machine.select
  split
  · exact h
  · split
    · exact h
    · rename_i cls x hchoice
      have get := chooseQueue_get hchoice
      obtain ⟨heligible, -⟩ := chooseQueue_some hchoice
      have hset : BucketsLaw B len ovh (s.setQueues p { x with sending := some cls }) := h.setQueues fun k e he => by
        rw [PortQueues.get_sending, get] at he
        exact h.entries p k e he
      unfold chargeShaper
      dsimp only
      split
      · exact hset
      · rename_i hrate
        simp only [eligible, Bool.and_eq_true, Bool.or_eq_true, beq_iff_eq, decide_eq_true_eq, Bool.not_eq_true',
          List.isEmpty_eq_false_iff_exists_mem] at heligible
        obtain ⟨hne, hopen⟩ := heligible
        have hlen : len (headLength (x.get cls)) := by
          rw [get]
          cases hq : ((s.queues p).get cls).entries with
          | nil => simp [hq] at hne
          | cons e rest => simpa [headLength, hq] using h.entries p cls e (by simp [hq])
        refine hset.setBucket (rule.charged ?_ hlen (h.overheads p) (hopen.resolve_left hrate) (h.buckets _))
        exact Nat.le_add_right_of_le (Nat.le_add_right ..)

theorem BucketsLaw.softRestart (rule : BucketRule B len ovh) (h : BucketsLaw B len ovh s) :
    BucketsLaw B len ovh (softRestart s) := by
  refine ⟨fun b => ?_, fun p => ?_, fun p cls e he => ?_⟩
  · unfold State.bucket
    rw [softRestart_fsq]
    exact (vector_get_map Bucket.softRestart s.fsq.buckets b) ▸ rule.restarted (h.buckets b)
  · have hports : (Machine.softRestart s).ports = s.ports := by
      rw [softRestart_eq]
      exact (restartCounted_reported s).frame.agrees.same .ports (by decide)
    unfold State.port
    rw [hports]
    exact h.overheads p
  · unfold State.queues at he
    rw [softRestart_fsq] at he
    have hq := vector_get_map (fun q : PortQueues => { q.emptied with turn := .b, served := 0 }) s.fsq.ports p
    simp only [Fsq.softRestart] at he
    rw [hq] at he
    cases cls <;> cases he

/-- The events of the frame store keep the law of the buckets. -/
theorem BucketRule.entryStable (rule : BucketRule B len ovh) : EntryStable len (BucketsLaw B len ovh) where
  quiet h law := law.congr (h.same .ports (by decide)) (congrArg Fsq.ports (h.same .fsq (by decide)))
    (congrArg Fsq.buckets (h.same .fsq (by decide)))
  selected p _ law := law.select rule p
  pushed e s d hlen law := law.setQueues fun cls x hx => by
    rw [PortQueues.get_set] at hx
    split at hx
    · obtain hx | hx := List.mem_append.1 hx
      · exact law.entries _ _ x hx
      · exact List.mem_singleton.1 hx ▸ hlen
    · exact law.entries _ _ x hx
  popped {p cls e rest s} hhead law := law.setQueues fun k x hx => by
    rw [PortQueues.get_sending, PortQueues.get_set] at hx
    split at hx
    · exact law.entries p cls x (hhead ▸ List.mem_cons_of_mem e hx)
    · exact law.entries p k x hx
  stopped p _ law := law.setQueues fun k x hx => law.entries p k x (by rwa [PortQueues.get_sending] at hx)
  emptied p _ law := law.setQueues fun k x hx => by simp at hx
  pooled _ _ _ law := law.congr rfl rfl rfl
  restarted _ law := law.softRestart rule

/-- Every command keeps the law of the buckets. -/
theorem BucketRule.storeLaw (rule : BucketRule B len ovh) :
    StoreLaw (fun x => len x.length) (BucketsLaw B len ovh) where
  toStoreStable := rule.entryStable.storeStable
  hard _ straps _ s := .of_hard rule rfl rfl fun p => by simp [hardValues, hardPorts, Vector.get_eq_getElem, PortRec.hard]
  started s law := by
    refine ⟨fun b => ?_, law.overheads, law.entries⟩
    have hb : (startTimers s).bucket b = { s.bucket b with refill := true } := vector_get_map _ s.fsq.buckets b
    exact hb ▸ rule.started (law.buckets b)
  ported p r s hr law := law.setPort (hr.elim (rule.overhead _) fun e => e ▸ law.overheads p)
  offered b n p s law := by
    unfold offer
    dsimp only
    split
    · exact law
    · split
      · exact law.setBucket (rule.offered (costOf_nonneg ..) ‹_› (law.buckets b))
      · split
        · exact law.congr rfl rfl rfl
        · exact law
  refilled b _ law := law.setBucket (rule.refilled (law.buckets b))
  written b rate burst o _ law := law.setBucket (rule.reprogrammed rate burst o (law.buckets b))
  filled b rate burst o _ law := law.setBucket (rule.filled rate burst o (law.buckets b))
  configured hentries _ law := law.setQueues fun cls e he => law.entries _ cls e (hentries cls ▸ he)
  reserved _ _ _ law := law.congr rfl rfl rfl

end

/-! ### Credits at most Cmax -/

/-- The law of a bucket (R149, R151). -/
def Bucket.lawful (b : BucketNo) (x : Bucket) : Prop :=
  x.rate ≤ 240 ∧ 64 ≤ x.burst ∧ x.credit ≤ x.burst * 16 ∧ (b.val < 81 → 0 ≤ x.credit)

theorem refillOf_nonneg (rate : Nat) : 0 ≤ refillOf rate := by
  unfold refillOf
  split <;> omega

theorem storedBurst_ge (n : Nat) : 64 ≤ storedBurst n := Nat.le_max_left ..

theorem storedRate_le (n : Nat) : storedRate n ≤ 240 := Nat.min_le_left ..

theorem Bucket.lawful_rule : BucketRule Bucket.lawful (fun _ => True) fun _ => True where
  hard b := ⟨by decide, by decide, by decide, fun _ => by decide⟩
  restarted := fun ⟨_, hburst, _, _⟩ =>
    ⟨Nat.zero_le _, hburst, le_refl _, fun _ => by simp only [Bucket.softRestart, Bucket.cmax]; omega⟩
  started := id
  refilled {b x} := fun ⟨hrate, hburst, hcredit, hpolicer⟩ => by
    have := refillOf_nonneg x.rate
    unfold Bucket.refilled
    split
    · exact ⟨hrate, hburst, hcredit, hpolicer⟩
    · refine ⟨hrate, hburst, ?_, fun hb => ?_⟩
      · exact Int.min_le_right ..
      · have := hpolicer hb
        simp only [Bucket.cmax]
        omega
  reprogrammed rate burst o := fun ⟨_, _, _, hpolicer⟩ => by
    have := storedBurst_ge burst
    refine ⟨storedRate_le rate, this, Int.min_le_right .., fun hb => ?_⟩
    have := hpolicer hb
    simp only [Bucket.reprogram, Bucket.cmax]
    omega
  filled rate burst o := fun _ => by
    have := storedBurst_ge burst
    refine ⟨storedRate_le rate, this, le_refl _, fun _ => ?_⟩
    simp only [Bucket.reprogram, Bucket.cmax]
    omega
  offered hcost hle := fun ⟨hrate, hburst, hcredit, _⟩ =>
    ⟨hrate, hburst, by dsimp only; omega, fun _ => by dsimp only; omega⟩
  charged {b x n o} hb _ _ _ := fun ⟨hrate, hburst, hcredit, _⟩ => by
    have := costOf_nonneg x n o
    exact ⟨hrate, hburst, by dsimp only; omega, fun h => by omega⟩
  overhead _ _ := trivial

theorem creditLaw_iff (s : State) :
    CreditLaw s ↔ BucketsLaw Bucket.lawful (fun _ => True) (fun _ => True) s :=
  ⟨fun h => ⟨h, fun _ => trivial, fun _ _ _ _ => trivial⟩, fun h => h.buckets⟩

/-! ### Credits at least −33,776 -/

/-- The floor of a bucket's credit (R151, R153). -/
def Bucket.aboveFloor (x : Bucket) : Prop := -33776 ≤ x.credit

theorem Bucket.aboveFloor_rule : BucketRule (fun _ x => x.aboveFloor) (· ≤ 2048) (· ≤ 63) where
  hard b := show (-33776 : Int) ≤ 65536 by decide
  restarted {b x} _ := by
    simp only [Bucket.aboveFloor, Bucket.softRestart, Bucket.cmax]
    omega
  started := id
  refilled {b x} h := by
    have := refillOf_nonneg x.rate
    unfold Bucket.refilled
    split
    · exact h
    · simp only [Bucket.aboveFloor, Bucket.cmax] at h ⊢
      omega
  reprogrammed {b x} rate burst o h := by
    simp only [Bucket.aboveFloor, Bucket.cmax, Bucket.reprogram] at h ⊢
    omega
  filled rate burst o _ := by
    simp only [Bucket.aboveFloor, Bucket.cmax, Bucket.reprogram]
    omega
  offered hcost hle h := by
    simp only [Bucket.aboveFloor] at h ⊢
    omega
  charged {b x n o} _ hn ho hcredit h := by
    simp only [Bucket.aboveFloor, costOf] at h ⊢
    split <;> omega
  overhead _ := id

/-! ### The lengths of the frames -/

/-- A frame holds at most 2,048 bytes (R27). -/
def Body.bounded (x : Body) : Prop := x.length ≤ 2048

theorem batchEntryBytes_length (e : BatchEntry) : (batchEntryBytes e).length = 21 := by
  have temperature (o : Option Int) : (temperatureBytes o).length = 2 := by cases o <;> rfl
  simp [batchEntryBytes, temperature, sidBytes, be1, be2, be4]
  omega

theorem batchPayload_length (entries : List BatchEntry) : (batchPayload entries).length = 1 + 21 * entries.length := by
  have sum : (entries.flatMap batchEntryBytes).length = 21 * entries.length := by
    induction entries with
    | nil => rfl
    | cons e rest ih =>
      rw [List.flatMap_cons, List.length_append, ih, batchEntryBytes_length, List.length_cons]
      omega
  rw [batchPayload, List.length_append, sum]
  rfl

theorem Body.bounded_rule : FrameRule Body.bounded 48 where
  short x h := by
    cases x <;> simp only [Body.isShort] at h
    simp only [Body.bounded, Body.length]
    omega
  forwarded _ _ h := h
  batch _ entries h := by
    simp only [Body.bounded, Body.length, originatedBytes_length, batchPayload_length]
    omega
  size := le_refl _
  reply _ bytes h := by
    simp only [Body.bounded, Body.length]
    omega

theorem creditFloor_iff (s : State) : CreditFloor s ↔
    BucketsLaw (fun _ x => x.aboveFloor) (· ≤ 2048) (· ≤ 63) s ∧ FramesMeet Body.bounded s ∧
      SlotsMeet Body.bounded s ∧ s.rcn.within 48 ∧ RepliesFit s := by
  constructor
  · intro h
    exact ⟨⟨h.credits, h.overhead, h.entries⟩, h.flight, h.slots, h.buffers, fun e he =>
      let ⟨hlt, hcount, hfit⟩ := h.replies e he
      ⟨hlt, hlt.le, hcount, hfit⟩⟩
  · rintro ⟨⟨hcredits, hover, hentries⟩, hframes, hslots, hwithin, hreplies⟩
    exact ⟨hcredits, hover, hentries, hframes, hslots, hwithin, fun e he =>
      let ⟨hlt, _, hcount, hfit⟩ := hreplies e he
      ⟨hlt, hcount, hfit⟩⟩

/-- Settles O57: a shaper is charged from a credit that is not below 0, and by no more than 2,048 bytes with an overhead
of 63. -/
theorem stepsKeepTheCreditLaw : Obligations.StepsKeepTheCreditLaw := by
  refine ⟨fun _ _ => step_keeps (fun _ _ => id) fun i s t law h => ?_,
    fun _ _ => step_keeps (fun _ q law => ⟨law.credits, law.overhead, law.entries, law.flight, law.slots, law.buffers,
      law.replies⟩) fun i s t law h => ?_⟩
  · exact (creditLaw_iff t).2 (Bucket.lawful_rule.storeLaw.exec (fun _ _ => trivial) ((creditLaw_iff s).1 law) h)
  · obtain ⟨buckets, frames, slots, within, replies⟩ := (creditFloor_iff s).1 law
    have works := exec_works Body.bounded_rule ⟨slots, within, .inr replies⟩ h
    refine (creditFloor_iff t).2 ⟨Bucket.aboveFloor_rule.storeLaw.exec frames buckets h, works.frames frames,
      works.ready.slots, works.ready.within, works.ready.replies.resolve_left fun hall => ?_⟩
    have long := hall true (List.replicate 2048 0)
    simp only [Body.bounded, Body.length, List.length_replicate] at long
    omega

end Sys2Proof.Machine
end

section
/-! The pool of the frame store (R138, R144): every command keeps its laws (O58). -/

namespace Sys2Proof.Machine

/-! ### Places and sums -/

/-- A collection without a free place holds a record at each. -/
theorem Table.length_of_full {α : Type} {n : Nat} {t : Table α} (h : Table.wf n t) (hfull : Table.lowestFree t n = none) :
    n ≤ t.length := by
  have occupied (fuel k : Nat) (hfree : Table.freeFrom t fuel k = none) (j : Nat) (hj : k ≤ j) (hlt : j < k + fuel) :
      ∃ v, Table.get t j = some v := by
    induction fuel generalizing k with
    | zero => omega
    | succ fuel ih =>
      rw [Table.freeFrom] at hfree
      split at hfree
      · cases hfree
      · rename_i hk
        by_cases hjk : j = k
        · rw [hjk]
          exact Option.ne_none_iff_exists'.1 (by simpa using hk)
        · exact ih (k + 1) hfree (by omega) (by omega)
  have sub : List.range n ⊆ t.map (·.1) := fun j hj => by
    obtain ⟨v, hv⟩ := occupied n 0 hfull j (Nat.zero_le _) (by simpa using hj)
    exact List.mem_map.2 ⟨(j, v), (Table.get_eq_some t j v h.1).1 hv, rfl⟩
  simpa using (List.subperm_of_subset List.nodup_range sub).length_le

/-- The values of a table after a place is freed are those before without its own. -/
theorem Table.map_erase_of_get {α β : Type} {t : Table α} {k : Nat} {v : α} (f : α → β)
    (hsorted : t.Pairwise (fun a b => a.1 < b.1)) (h : Table.get t k = some v) :
    (t.map (fun e => f e.2)).Perm (f v :: (Table.erase t k).map (fun e => f e.2)) := by
  induction t with
  | nil => cases h
  | cons e t ih =>
    obtain ⟨j, x⟩ := e
    obtain ⟨hlt, hrest⟩ := List.pairwise_cons.1 hsorted
    by_cases hjk : j = k
    · subst hjk
      have hx : x = v := by simpa [Table.get] using h
      have hkept : Table.erase t j = t := List.filter_eq_self.2 fun e he => by
        have := hlt e he
        exact decide_eq_true (by dsimp only at this; omega)
      have hhead : Table.erase ((j, x) :: t) j = Table.erase t j := by simp [Table.erase]
      rw [hhead, hkept, List.map_cons, hx]
    · have hget : Table.get t k = some v := by simpa [Table.get, hjk] using h
      have hhead : Table.erase ((j, x) :: t) k = (j, x) :: Table.erase t k := by simp [Table.erase, hjk]
      rw [hhead, List.map_cons, List.map_cons]
      exact ((ih hrest hget).cons _).trans (.swap ..)

/-! ### The stored frames and the entries that point at them -/

/-- The laws of the pool for its free cells, its stored frames and a list of entries (R138). -/
structure Pooled (free : Nat) (store : Table Stored) (es : List Entry) : Prop where
  places  : Table.wf Config.poolCells store
  total   : free + (store.map (fun e => e.2.cells)).sum = 4096
  counted : ∀ e ∈ store, 1 ≤ e.2.cells ∧ 1 ≤ e.2.refs ∧ e.2.refs = es.countP (Entry.pointsAt e.1)
  entries : ∀ id n len, Entry.frame id n len ∈ es → ∃ f, Table.get store id = some f ∧ f.cells = n

section
variable {free : Nat} {store : Table Stored} {es fs : List Entry}

theorem Pooled.perm (h : Pooled free store es) (p : es.Perm fs) : Pooled free store fs :=
  ⟨h.places, h.total, fun e he => p.countP_eq (Entry.pointsAt e.1) ▸ h.counted e he,
    fun id n len he => h.entries id n len (p.mem_iff.2 he)⟩

theorem Pooled.hard : Pooled Config.poolCells [] [] :=
  ⟨⟨List.Pairwise.nil, by simp⟩, rfl, by simp, by simp⟩

theorem Pooled.batch_iff {bytes : List Byte} : Pooled free store (.batch bytes :: es) ↔ Pooled free store es := by
  have count (id : Nat) : (Entry.batch bytes :: es).countP (Entry.pointsAt id) = es.countP (Entry.pointsAt id) :=
    List.countP_cons_of_neg (by simp [Entry.pointsAt])
  refine ⟨fun h => ⟨h.places, h.total, fun e he => count e.1 ▸ h.counted e he,
    fun id n len he => h.entries id n len (List.mem_cons_of_mem _ he)⟩,
    fun h => ⟨h.places, h.total, fun e he => (count e.1).symm ▸ h.counted e he, fun id n len he => ?_⟩⟩
  exact h.entries id n len ((List.mem_cons.1 he).resolve_left (by simp))

/-- A frame is stored at a free place for a number of entries. -/
theorem Pooled.stored (h : Pooled free store es) {id len : Nat} {x : Stored} (hid : Table.get store id = none)
    (hlt : id < Config.poolCells) (hcells : 1 ≤ x.cells) (hroom : x.cells ≤ free) (hrefs : 1 ≤ x.refs) :
    Pooled (free - x.cells) (Table.put store id x) (List.replicate x.refs (.frame id x.cells len) ++ es) := by
  have none_points : es.countP (Entry.pointsAt id) = 0 := List.countP_eq_zero.2 fun e he => by
    cases e with
    | frame k n len =>
      obtain ⟨f, hf, -⟩ := h.entries k n len he
      have : k ≠ id := fun hk => by rw [hk, hid] at hf; cases hf
      simp [Entry.pointsAt, this]
    | batch => simp [Entry.pointsAt]
  refine ⟨Table.wf_put x h.places hlt, ?_, fun e he => ?_, fun k n len he => ?_⟩
  · rw [(Table.map_put_of_free x (fun y : Stored => y.cells) hid).sum_eq, List.sum_cons]
    have := h.total
    omega
  · rw [List.countP_append, List.countP_replicate]
    obtain rfl | ⟨hne, hmem⟩ := (Table.mem_put_iff h.places.1).1 he
    · exact ⟨hcells, hrefs, by simp [Entry.pointsAt, none_points]⟩
    · obtain ⟨hone, hlive, hcount⟩ := h.counted e hmem
      exact ⟨hone, hlive, by simpa [Entry.pointsAt, Ne.symm hne] using hcount⟩
  · rw [Table.get_put _ _ _ _ h.places.1]
    obtain he | he := List.mem_append.1 he
    · obtain ⟨-, heq⟩ := List.mem_replicate.1 he
      cases heq
      exact ⟨x, if_pos rfl, rfl⟩
    · obtain ⟨f, hf, hn⟩ := h.entries k n len he
      refine ⟨f, ?_, hn⟩
      rwa [if_neg fun hk => by rw [hk, hid] at hf; cases hf]

theorem Pooled.exists_free (h : Pooled free store es) (hfree : 1 ≤ free) :
    ∃ id, Table.lowestFree store Config.poolCells = some id := by
  cases hid : Table.lowestFree store Config.poolCells with
  | some id => exact ⟨id, rfl⟩
  | none =>
    have hfull := Table.length_of_full h.places hid
    have hsum := List.length_le_sum_of_one_le (store.map (fun e => e.2.cells)) fun n hn => by
      obtain ⟨e, he, rfl⟩ := List.mem_map.1 hn
      exact (h.counted e he).1
    rw [List.length_map] at hsum
    have := h.total
    simp only [Config.poolCells] at hfull
    omega

/-- The stored frame of an entry loses that entry, and is kept for the others. -/
theorem Pooled.unref {id n len : Nat} {x : Stored} (h : Pooled free store (.frame id n len :: es))
    (hget : Table.get store id = some x) (hrefs : 2 ≤ x.refs) :
    Pooled free (Table.put store id { x with refs := x.refs - 1 }) es := by
  have hmem := (Table.get_eq_some _ _ _ h.places.1).1 hget
  refine ⟨Table.wf_put _ h.places (h.places.2 _ hmem), ?_, fun e he => ?_, fun k m l he => ?_⟩
  · have same := Table.map_put_of_get (w := { x with refs := x.refs - 1 }) (fun y : Stored => y.cells) h.places.1 hget rfl
    rw [same]
    exact h.total
  · obtain rfl | ⟨hne, hmem⟩ := (Table.mem_put_iff h.places.1).1 he
    · obtain ⟨hone, -, hcount⟩ := h.counted _ hmem
      rw [List.countP_cons_of_pos (by simp [Entry.pointsAt])] at hcount
      exact ⟨hone, by dsimp only; omega, by dsimp only at hcount ⊢; omega⟩
    · have hcount := h.counted e hmem
      rwa [List.countP_cons_of_neg (by simp [Entry.pointsAt, Ne.symm hne])] at hcount
  · obtain ⟨f, hf, hm⟩ := h.entries k m l (List.mem_cons_of_mem _ he)
    rw [Table.get_put _ _ _ _ h.places.1]
    by_cases hk : k = id
    · rw [hk, hget] at hf
      cases hf
      exact ⟨_, if_pos hk, hm⟩
    · exact ⟨f, by rwa [if_neg hk], hm⟩

/-- The stored frame of a last entry frees its cells with it. -/
theorem Pooled.freed {id n len : Nat} {x : Stored} (h : Pooled free store (.frame id n len :: es))
    (hget : Table.get store id = some x) (hrefs : x.refs ≤ 1) :
    Pooled (free + x.cells) (Table.erase store id) es := by
  have hmem := (Table.get_eq_some _ _ _ h.places.1).1 hget
  have last : es.countP (Entry.pointsAt id) = 0 := by
    obtain ⟨-, -, hcount⟩ := h.counted _ hmem
    rw [List.countP_cons_of_pos (by simp [Entry.pointsAt])] at hcount
    dsimp only at hcount
    omega
  refine ⟨Table.wf_erase _ h.places, ?_, fun e he => ?_, fun k m l he => ?_⟩
  · have := h.total
    rw [(Table.map_erase_of_get (fun y : Stored => y.cells) h.places.1 hget).sum_eq, List.sum_cons] at this
    omega
  · obtain ⟨hmem, hne⟩ := List.mem_filter.1 he
    have hcount := h.counted e hmem
    rwa [List.countP_cons_of_neg (by simpa [Entry.pointsAt] using Ne.symm (of_decide_eq_true hne))] at hcount
  · obtain ⟨f, hf, hm⟩ := h.entries k m l (List.mem_cons_of_mem _ he)
    have hk : k ≠ id := fun hk => by
      have := List.countP_eq_zero.1 last _ he
      simp [Entry.pointsAt, hk] at this
    exact ⟨f, by rw [Table.get_erase, if_neg hk]; exact hf, hm⟩

end

/-- The pool of a state meets its laws for a list of entries. -/
abbrev State.pools (s : State) (es : List Entry) : Prop := Pooled s.fsq.free s.fsq.store es

theorem releaseEntry_ports (s : State) (e : Entry) : (releaseEntry s e).fsq.ports = s.fsq.ports := by
  unfold releaseEntry
  split
  · rfl
  · split
    · rfl
    · split <;> rfl

/-- An entry is released (R138). -/
theorem releaseEntry_pools {s : State} {e : Entry} {es : List Entry} (h : s.pools (e :: es)) :
    (releaseEntry s e).pools es := by
  cases e with
  | batch bytes => exact Pooled.batch_iff.1 h
  | frame id n len =>
    obtain ⟨f, hf, -⟩ := h.entries id n len List.mem_cons_self
    simp only [releaseEntry, hf]
    split
    · exact h.freed hf ‹_›
    · exact h.unref hf (by omega)

theorem foldl_releaseEntry {s : State} {es fs : List Entry} (h : s.pools (es ++ fs)) :
    (es.foldl releaseEntry s).pools fs ∧ (es.foldl releaseEntry s).fsq.ports = s.fsq.ports := by
  induction es generalizing s with
  | nil => exact ⟨h, rfl⟩
  | cons e es ih =>
    obtain ⟨hpools, hports⟩ := ih (releaseEntry_pools h)
    exact ⟨hpools, hports.trans (releaseEntry_ports s e)⟩

/-! ### The entries of the queues -/

/-- The entries of every port but one. -/
def otherEntries (p : Port) (s : State) : List Entry :=
  ((List.finRange 14).erase p).flatMap (fun q => (s.queues q).entries)

theorem allEntries_perm (p : Port) (s : State) : (allEntries s).Perm ((s.queues p).entries ++ otherEntries p s) :=
  (List.perm_cons_erase (List.mem_finRange p)).flatMap_right _

theorem otherEntries_setQueues (p : Port) (s : State) (x : PortQueues) :
    otherEntries p (s.setQueues p x) = otherEntries p s := by
  refine List.flatMap_congr fun q hq => ?_
  have hne : q ≠ p := ((List.nodup_finRange 14).mem_erase_iff.1 hq).1
  rw [State.queues_setQueues_of_ne _ _ hne]

theorem allEntries_congr {s t : State} (h : ∀ p, (t.queues p).entries = (s.queues p).entries) :
    allEntries t = allEntries s := List.flatMap_congr fun p _ => h p

theorem allEntries_setQueues {p : Port} {s : State} {x : PortQueues} :
    (allEntries (s.setQueues p x)).Perm (x.entries ++ otherEntries p s) := by
  have h := allEntries_perm p (s.setQueues p x)
  rwa [otherEntries_setQueues, State.queues_setQueues_self] at h

theorem PortQueues.entries_congr {x y : PortQueues} (h : ∀ cls, (x.get cls).entries = (y.get cls).entries) :
    x.entries = y.entries := by
  unfold PortQueues.entries
  rw [show x.queueC.entries = _ from h .c, show x.queueU.entries = _ from h .u, show x.queueB.entries = _ from h .b,
    show x.queueD.entries = _ from h .d]
  rfl

/-- A port's entries are those of a queue and those of the others. -/
theorem PortQueues.entries_set (x : PortQueues) (cls : QClass) (q : Queue) :
    ∃ others, x.entries.Perm ((x.get cls).entries ++ others) ∧ (x.set cls q).entries.Perm (q.entries ++ others) := by
  have pull (a b : List Entry) : (a ++ b).Perm (b ++ a) := List.perm_append_comm
  cases cls with
  | c =>
    refine ⟨x.queueU.entries ++ x.queueB.entries ++ x.queueD.entries, ?_, ?_⟩ <;>
      simp [PortQueues.entries, PortQueues.get, PortQueues.set, List.append_assoc]
  | u =>
    refine ⟨x.queueC.entries ++ (x.queueB.entries ++ x.queueD.entries), ?_, ?_⟩ <;>
      simpa [PortQueues.entries, PortQueues.get, PortQueues.set, List.append_assoc] using List.perm_append_comm_assoc ..
  | b =>
    refine ⟨(x.queueC.entries ++ x.queueU.entries) ++ x.queueD.entries, ?_, ?_⟩ <;>
      · simp only [PortQueues.entries, PortQueues.get, PortQueues.set]
        rw [← List.append_assoc _ _ x.queueD.entries]
        exact (pull _ _).append_right _
  | d =>
    exact ⟨x.queueC.entries ++ x.queueU.entries ++ x.queueB.entries, pull _ _, pull _ _⟩

theorem pushEntry_allEntries (e : Entry) (s : State) (d : Port × QClass) :
    (allEntries (pushEntry e s d)).Perm (e :: allEntries s) := by
  unfold pushEntry
  dsimp only
  generalize hq : ({ (s.queues d.1).get d.2 with entries := ((s.queues d.1).get d.2).entries ++ [e] } : Queue) = q
  obtain ⟨others, hbefore, hafter⟩ := (s.queues d.1).entries_set d.2 q
  have hnew : (q.entries ++ others).Perm (e :: (((s.queues d.1).get d.2).entries ++ others)) := by
    rw [← hq]
    simp
  have hport : ((s.queues d.1).set d.2 q).entries.Perm (e :: (s.queues d.1).entries) :=
    (hafter.trans hnew).trans (hbefore.symm.cons e)
  exact (allEntries_setQueues.trans (hport.append_right _)).trans ((allEntries_perm d.1 s).symm.cons e)

theorem foldl_pushEntry_allEntries (e : Entry) (ds : List (Port × QClass)) (s : State) :
    (allEntries (ds.foldl (pushEntry e) s)).Perm (List.replicate ds.length e ++ allEntries s) := by
  induction ds generalizing s with
  | nil => exact .refl _
  | cons d ds ih =>
    refine (ih (pushEntry e s d)).trans (((pushEntry_allEntries e s d).append_left _).trans ?_)
    rw [List.length_cons, List.replicate_succ, List.cons_append]
    exact List.perm_middle

theorem foldl_pushEntry_fsq (e : Entry) (ds : List (Port × QClass)) (s : State) :
    (ds.foldl (pushEntry e) s).fsq.free = s.fsq.free ∧ (ds.foldl (pushEntry e) s).fsq.store = s.fsq.store := by
  induction ds generalizing s with
  | nil => exact ⟨rfl, rfl⟩
  | cons d ds ih => exact ih (pushEntry e s d)

/-! ### The law -/

/-- The pool meets its laws for the entries of the queues. -/
def PoolCounted (s : State) : Prop := s.pools (allEntries s)

section
variable {s t : State}

theorem PoolCounted.congr (h : PoolCounted s) (hfree : t.fsq.free = s.fsq.free) (hstore : t.fsq.store = s.fsq.store)
    (hports : ∀ p, (t.queues p).entries = (s.queues p).entries) : PoolCounted t := by
  unfold PoolCounted State.pools
  rw [hfree, hstore, allEntries_congr hports]
  exact h

theorem PoolCounted.congr_ports (h : PoolCounted s) (hfree : t.fsq.free = s.fsq.free)
    (hstore : t.fsq.store = s.fsq.store) (hports : t.fsq.ports = s.fsq.ports) : PoolCounted t :=
  h.congr hfree hstore fun p => by unfold State.queues; rw [hports]

theorem PoolCounted.of_ports (h : t.pools (allEntries s)) (hports : t.fsq.ports = s.fsq.ports) : PoolCounted t := by
  have same : allEntries t = allEntries s := allEntries_congr fun p => by unfold State.queues; rw [hports]
  unfold PoolCounted
  rwa [same]

theorem PoolCounted.of_none (hfree : s.fsq.free = Config.poolCells) (hstore : s.fsq.store = [])
    (hports : ∀ p, (s.queues p).entries = []) : PoolCounted s := by
  have none : allEntries s = [] := List.flatMap_eq_nil_iff.2 fun p _ => hports p
  unfold PoolCounted State.pools
  rw [hfree, hstore, none]
  exact .hard

/-- The queues of a port change as to their entries by no more than `x` says. -/
theorem PoolCounted.setQueues (h : PoolCounted s) {p : Port} {x : PortQueues}
    (hx : ∀ cls, (x.get cls).entries = ((s.queues p).get cls).entries) : PoolCounted (s.setQueues p x) :=
  h.congr rfl rfl fun q => by
    rw [State.queues_setQueues]
    split
    · rename_i e
      rw [e]
      exact PortQueues.entries_congr hx
    · rfl

theorem PoolCounted.select (p : Port) (h : PoolCounted s) : PoolCounted (select p s) := by
  unfold Machine.select
  split
  · exact h
  · split
    · exact h
    · rename_i cls x hchoice
      have hset : PoolCounted (s.setQueues p { x with sending := some cls }) := h.setQueues fun k => by
        rw [PortQueues.get_sending, chooseQueue_get hchoice]
      unfold chargeShaper
      dsimp only
      split
      · exact hset
      · exact hset.congr_ports rfl rfl rfl

theorem PoolCounted.storeFrame {r : EnqueueRequest} {ds : List (Port × QClass)} (hbody : r.body.holdsCells)
    (hds : ds ≠ []) (hroom : cellsOf r.body.length ≤ s.fsq.free) (h : PoolCounted s) :
    PoolCounted (storeFrame r ds s) := by
  have hcells : 1 ≤ cellsOf r.body.length := by
    have hlen : 1 ≤ r.body.length := by
      cases hb : r.body with
      | forwarded bytes =>
        rw [hb] at hbody
        exact List.length_pos_iff.2 hbody
      | originated o bytes => simp only [Body.length]; omega
      | batch bytes => simp only [Body.length]; omega
    unfold cellsOf
    omega
  obtain ⟨id, hid⟩ := Pooled.exists_free h (hcells.trans hroom)
  obtain ⟨hnone, hlt⟩ := Table.lowestFree_some hid
  unfold Machine.storeFrame
  simp only [hid, Option.getD_some]
  refine foldl_keeps (fun t (d : Port × QClass) => PoolCounted.select d.1) _ ?_
  have hstored := Pooled.stored (len := r.body.length)
    (x := { bytes := storedBytes s r, cells := cellsOf r.body.length, refs := ds.length, kind := r.kind, origin := r.body.origin })
    h hnone hlt hcells hroom (List.length_pos_iff.2 hds)
  generalize hs1 : s.setFsq _ = s1
  replace hstored : s1.pools (List.replicate ds.length (.frame id (cellsOf r.body.length) r.body.length) ++ allEntries s1) := by
    subst hs1
    exact hstored
  generalize Entry.frame id (cellsOf r.body.length) r.body.length = e at hstored
  obtain ⟨hfree, hstore⟩ := foldl_pushEntry_fsq e ds s1
  have hpushed : PoolCounted (ds.foldl (pushEntry e) s1) := by
    unfold PoolCounted State.pools
    rw [hfree, hstore]
    exact hstored.perm (foldl_pushEntry_allEntries e ds s1).symm
  have same := (presentPoolLow_agrees (ds.foldl (pushEntry e) s1)).same .fsq (by decide)
  exact hpushed.congr_ports (congrArg Fsq.free same) (congrArg Fsq.store same) (congrArg Fsq.ports same)

theorem PoolCounted.transmissionEnded {p : Port} {cls : QClass} {e : Entry} {rest : List Entry}
    (hhead : ((s.queues p).get cls).entries = e :: rest) (h : PoolCounted s) :
    PoolCounted (transmissionEnded p cls e rest s) := by
  unfold Machine.transmissionEnded
  generalize hu : ({ s with wire := s.wire ++ [(p, entryBytes s e ++ fcsBytes (entryBytes s e))] } : State) = u
  obtain ⟨others, hbefore, hafter⟩ := (s.queues p).entries_set cls { (s.queues p).get cls with entries := rest }
  have hqueues : s.queues p = u.queues p := by rw [← hu]; rfl
  have hothers : otherEntries p s = otherEntries p u := by rw [← hu]; rfl
  generalize hx : ({ (s.queues p).set cls { (s.queues p).get cls with entries := rest } with sending := none } : PortQueues) = x
  have hset : (allEntries (u.setQueues p x)).Perm (rest ++ others ++ otherEntries p s) := by
    rw [hothers]
    refine allEntries_setQueues.trans (List.Perm.append_right _ ?_)
    rw [← hx]
    exact hafter
  have hall : (allEntries s).Perm (e :: allEntries (u.setQueues p x)) := by
    rw [hhead] at hbefore
    exact ((allEntries_perm p s).trans (hbefore.append_right _)).trans (hset.symm.cons e)
  have hpools : (u.setQueues p x).pools (e :: allEntries (u.setQueues p x)) := by
    subst hu
    exact Pooled.perm h hall
  exact .of_ports (releaseEntry_pools hpools) (releaseEntry_ports _ e)

theorem PoolCounted.portEmptied (p : Port) (h : PoolCounted s) : PoolCounted (portEmptied p s) := by
  unfold Machine.portEmptied
  have none : (s.queues p).emptied.entries = [] := rfl
  have hset : (allEntries (s.setQueues p (s.queues p).emptied)).Perm (otherEntries p s) := by
    simpa [none] using allEntries_setQueues (p := p) (s := s) (x := (s.queues p).emptied)
  have hpools : (s.setQueues p (s.queues p).emptied).pools
      ((s.queues p).entries ++ allEntries (s.setQueues p (s.queues p).emptied)) :=
    Pooled.perm h ((allEntries_perm p s).trans (hset.symm.append_left _))
  obtain ⟨hreleased, hports⟩ := foldl_releaseEntry hpools
  exact .of_ports hreleased hports

/-- The work of the frame store keeps the law of the pool. -/
theorem PoolCounted.storeLaw : StoreLaw Body.holdsCells PoolCounted where
  quiet h law := by
    have same := h.same .fsq (by decide)
    exact law.congr_ports (congrArg Fsq.free same) (congrArg Fsq.store same) (congrArg Fsq.ports same)
  selected p _ := PoolCounted.select p
  restarted s _ := by
    refine .of_none (by rw [softRestart_fsq]; rfl) (by rw [softRestart_fsq]; rfl) fun p => ?_
    unfold State.queues
    rw [softRestart_fsq]
    exact congrArg PortQueues.entries
      (vector_get_map (fun q : PortQueues => { q.emptied with turn := .b, served := 0 }) s.fsq.ports p)
  stored hok hne hroom := PoolCounted.storeFrame hok hne hroom
  batched {r bytes d ds s} _ _ _ h :=
    Pooled.perm (Pooled.batch_iff.2 h) (pushEntry_allEntries (.batch (storedBytes s r)) s d).symm
  ended hhead h := PoolCounted.transmissionEnded hhead h
  stopped _ h := h.setQueues fun k => by rw [PortQueues.get_sending]
  emptied p _ := PoolCounted.portEmptied p
  hard part straps map s := .of_none rfl rfl fun p => by
    have hq := vector_get_replicate PortQueues.hard p
    exact congrArg PortQueues.entries hq
  started _ h := h.congr_ports rfl rfl rfl
  ported _ _ _ _ h := h.congr_ports rfl rfl rfl
  offered b n p s h := by
    unfold offer
    dsimp only
    split
    · exact h
    · split
      · exact h.congr_ports rfl rfl rfl
      · split
        · exact h.congr_ports rfl rfl rfl
        · exact h
  refilled _ _ h := h.congr_ports rfl rfl rfl
  written _ _ _ _ _ h := h.congr_ports rfl rfl rfl
  filled _ _ _ _ _ h := h.congr_ports rfl rfl rfl
  configured hentries _ h := h.setQueues hentries
  reserved _ _ _ h := h.congr_ports rfl rfl rfl

end

/-! ### The head entries that are sent -/

/-- A port that is SENDING sends the head entry of a queue that has one (R144). -/
def HeadsSent (s : State) : Prop :=
  ∀ p cls, (s.queues p).sending = some cls → ((s.queues p).get cls).entries ≠ []

section
variable {s t : State}

theorem HeadsSent.congr (h : HeadsSent s) (hports : t.fsq.ports = s.fsq.ports) : HeadsSent t := by
  unfold HeadsSent State.queues at *
  rwa [hports]

theorem HeadsSent.setQueues (h : HeadsSent s) {p : Port} {x : PortQueues}
    (hx : ∀ cls, x.sending = some cls → (x.get cls).entries ≠ []) : HeadsSent (s.setQueues p x) := fun q => by
  rw [State.queues_setQueues]
  split
  · exact hx
  · exact h q

theorem HeadsSent.select (p : Port) (h : HeadsSent s) : HeadsSent (select p s) := by
  unfold Machine.select
  split
  · exact h
  · split
    · exact h
    · rename_i cls x hchoice
      have hset : HeadsSent (s.setQueues p { x with sending := some cls }) := h.setQueues fun k hk => by
        cases hk
        obtain ⟨heligible, -⟩ := chooseQueue_some hchoice
        rw [PortQueues.get_sending, chooseQueue_get hchoice]
        intro hempty
        simp [eligible, hempty] at heligible
      unfold chargeShaper
      dsimp only
      split
      · exact hset
      · exact hset.congr rfl

theorem HeadsSent.entryStable : EntryStable (fun _ => True) HeadsSent where
  quiet h law := law.congr (congrArg Fsq.ports (h.same .fsq (by decide)))
  selected p _ := HeadsSent.select p
  restarted s _ p cls := by
    have hq := vector_get_map (fun q : PortQueues => { q.emptied with turn := .b, served := 0 }) s.fsq.ports p
    unfold State.queues
    rw [softRestart_fsq]
    simp only [Fsq.softRestart, hq]
    exact nofun
  pushed e s d _ h := h.setQueues fun cls hcls => by
    rw [PortQueues.sending_set] at hcls
    rw [PortQueues.get_set]
    split
    · simp
    · exact h _ _ hcls
  popped _ h := h.setQueues nofun
  stopped _ _ h := h.setQueues nofun
  emptied _ _ h := h.setQueues nofun
  pooled _ _ _ h := h.congr rfl

theorem HeadsSent.storeLaw : StoreLaw (fun _ => True) HeadsSent where
  toStoreStable := HeadsSent.entryStable.storeStable
  hard part straps map s p cls := by
    have hq := vector_get_replicate PortQueues.hard p
    unfold State.queues
    simp only [hardValues, Fsq.hard, hq]
    exact nofun
  started _ h := h.congr rfl
  ported _ _ _ _ h := h.congr rfl
  offered b n p s h := by
    unfold offer
    dsimp only
    split
    · exact h
    · split
      · exact h.congr rfl
      · split
        · exact h.congr rfl
        · exact h
  refilled _ _ h := h.congr rfl
  written _ _ _ _ _ h := h.congr rfl
  filled _ _ _ _ _ h := h.congr rfl
  configured hentries hsending h := h.setQueues fun cls hcls => by
    rw [hentries]
    exact h _ cls (hsending ▸ hcls)
  reserved _ _ _ h := h.congr rfl

end

/-! ### The frames handed on -/

theorem Body.holdsCells_rule (n : Nat) (hn : 48 ≤ n) : FrameRule Body.holdsCells n where
  short x h := by
    cases x with
    | forwarded => cases h
    | originated => trivial
    | batch => trivial
  forwarded bytes h _ := by
    rintro rfl
    simp at h
  batch _ _ _ := trivial
  size := hn
  reply _ _ _ := trivial

theorem poolLaw_iff (s : State) : PoolLaw s ↔
    PoolCounted s ∧ HeadsSent s ∧ FramesMeet Body.holdsCells s ∧ SlotsMeet Body.holdsCells s :=
  ⟨fun h => ⟨⟨h.places, h.total, h.counted, h.entries⟩, h.sending, h.flight, h.slots⟩,
    fun ⟨h, hsending, hframes, hslots⟩ => ⟨h.places, h.total, h.counted, h.entries, hsending, hframes, hslots⟩⟩

/-- Settles O58: a frame is stored for the entries that are added at once, and an entry that leaves its queue takes its
reference with it. -/
theorem stepsKeepThePoolLaw : Obligations.StepsKeepThePoolLaw := fun _ _ => step_keeps
  (fun _ _ law => ⟨law.places, law.total, law.counted, law.entries, law.sending, law.flight, law.slots⟩)
  fun i s t law h => by
    obtain ⟨counted, sent, frames, slots⟩ := (poolLaw_iff s).1 law
    have works := exec_works
      (Body.holdsCells_rule (max 48 (max s.rcn.bufferA.entries.length s.rcn.bufferB.entries.length)) (Nat.le_max_left ..))
      ⟨slots, ⟨by omega, by omega⟩, .inl fun _ _ => trivial⟩ h
    exact (poolLaw_iff t).2 ⟨PoolCounted.storeLaw.exec frames counted h,
      HeadsSent.storeLaw.exec (fun _ _ => trivial) sent h, works.frames frames, works.ready.slots⟩

end Sys2Proof.Machine
end

section
/-! The step, the identity of the part, and the hard resets (R17, R18, R20, R25, R175): O1, O2, O6, O7 and O51. -/

namespace Sys2Proof.Machine

/-- Settles O1. -/
theorem stepRunsFrontCommand : Obligations.StepRunsFrontCommand := by
  refine ⟨fun c s => rfl, fun s hempty => ?_⟩
  unfold step
  rw [hempty]

/-! ### What no command but its own changes -/

theorem Instr.pending_notMem_touches (i : Instr) : Field.pending ∉ Instr.touches i := by
  cases i with
  | _ => dsimp only [Instr.touches]; decide

theorem Instr.straps_mem_touches {i : Instr} (h : Field.straps ∈ Instr.touches i) :
    i = .powerOnReset ∨ i = .pinReset ∨ ∃ m a, i = .resetEnd m a := by
  cases i with
  | powerOnReset => exact .inl rfl
  | pinReset => exact .inr (.inl rfl)
  | resetEnd m a => exact .inr (.inr ⟨m, a, rfl⟩)
  | _ => exact absurd h (by dsimp only [Instr.touches]; decide)

theorem Instr.sid_mem_touches {i : Instr} (h : Field.sid ∈ Instr.touches i) :
    i = .powerOnReset ∨ i = .pinReset ∨ (∃ m a, i = .resetEnd m a) ∨ ∃ x, i = .setIdent x := by
  cases i with
  | powerOnReset => exact .inl rfl
  | pinReset => exact .inr (.inl rfl)
  | resetEnd m a => exact .inr (.inr (.inl ⟨m, a, rfl⟩))
  | setIdent x => exact .inr (.inr (.inr ⟨x, rfl⟩))
  | _ => exact absurd h (by dsimp only [Instr.touches]; decide)

theorem Instr.idc_mem_touches {i : Instr} (h : Field.idc ∈ Instr.touches i) :
    i = .powerOnReset ∨ i = .pinReset ∨ (∃ m a, i = .resetEnd m a) ∨ (∃ g b m v, i = .setGroup g b m v) ∨
      (∃ g c b m v d o, i = .setClass g c b m v d o) ∨ ∃ d e r f q, i = .setDomain d e r f q := by
  cases i with
  | powerOnReset => exact .inl rfl
  | pinReset => exact .inr (.inl rfl)
  | resetEnd m a => exact .inr (.inr (.inl ⟨m, a, rfl⟩))
  | setGroup g b m v => exact .inr (.inr (.inr (.inl ⟨g, b, m, v, rfl⟩)))
  | setClass g c b m v d o => exact .inr (.inr (.inr (.inr (.inl ⟨g, c, b, m, v, d, o, rfl⟩))))
  | setDomain d e r f q => exact .inr (.inr (.inr (.inr (.inr ⟨d, e, r, f, q, rfl⟩))))
  | _ => exact absurd h (by dsimp only [Instr.touches]; decide)

/-- What a command has changed is among what it touches. -/
theorem mem_touches_of_ne {i : Instr} {s t : State} {f : Field} (h : exec i s = .next t) (hne : ¬f.same s t) :
    f ∈ Instr.touches i := by
  by_contra hf
  exact hne ((exec_agrees i h).same f hf)

/-- Settles O2: what a command has changed is among what it touches; the two beginnings of a hard reset keep the straps. -/
theorem identityChangesOnlyAtItsCommands : Obligations.IdentityChangesOnlyAtItsCommands := by
  refine fun i s t h => ⟨(exec_agrees i h).same .pending (Instr.pending_notMem_touches i), fun hne => ?_,
    fun hne => Instr.sid_mem_touches (mem_touches_of_ne h hne), fun hne => Instr.idc_mem_touches (mem_touches_of_ne h hne)⟩
  obtain rfl | rfl | hreset := Instr.straps_mem_touches (mem_touches_of_ne h (f := .straps) hne)
  · cases h
    exact absurd rfl hne
  · cases h
    exact absurd rfl hne
  · exact hreset

/-! ### Hard resets -/

theorem hardValues_port (part : PartState) (straps : Straps) (map : Cvm) (s : State) (p : Port) :
    (hardValues part straps map s).port p =
      .hard (s.port p).link (p.val == 12 || (p.val == 13 && straps.msel)) := by
  unfold State.port hardValues hardPorts
  rw [Vector.get_eq_getElem, Vector.getElem_ofFn]

/-- The blocks at their hard-reset values (R175), over the map as a hard reset leaves it (R17, R18). -/
theorem hardValues_atHardReset (part : PartState) (straps : Straps) (map : Cvm) (s : State) :
    AtHardReset (hardValues part straps map.pinReset s) where
  ports p := by
    rw [hardValues_port]
    exact ⟨rfl, rfl, rfl⟩
  geometry := ⟨rfl, rfl⟩
  roles := ⟨rfl, rfl, rfl⟩
  window := rfl
  cursors := ⟨rfl, rfl⟩
  epoch := ⟨rfl, rfl⟩
  overlay g := vector_get_replicate 0 g
  groups := show ∀ g : Fin 4, Idc.hard.groups.get g = if g = 0 then ⟨0, 0xFFFF, true⟩ else ⟨0, 0, false⟩ by decide
  classes := show ∀ c : Fin 16, Idc.hard.classes.get c =
    if c = 0 then ⟨0, 0xFFFF, true, 0, ⟨false, false, false⟩⟩ else ⟨0, 0, false, 0, ⟨false, false, false⟩⟩ by decide
  domains := show ∀ d : Fin 8, Idc.hard.domains.get d =
    if d = 0 then ⟨true, .t0, 0xFFF, .d⟩ else ⟨false, .t0, 0, .d⟩ by decide
  stations := ⟨rfl, rfl, rfl, rfl, rfl⟩
  walks := ⟨rfl, rfl, rfl, rfl, rfl⟩
  links l := by
    have link : (hardValues part straps map.pinReset s).link l = .hard := vector_get_replicate _ l
    rw [link]
    exact ⟨rfl, rfl, rfl, rfl, rfl, rfl, rfl, rfl, rfl, rfl⟩
  reefers := ⟨rfl, rfl, rfl⟩
  sweeps := ⟨rfl, rfl, rfl⟩
  buffers := ⟨rfl, rfl, rfl, rfl⟩
  pool := ⟨rfl, rfl, rfl, rfl⟩
  queues p := vector_get_replicate PortQueues.hard p
  buckets b := vector_get_replicate Bucket.hard b
  sources k := vector_get_replicate Source.hard k
  notices := ⟨rfl, rfl, rfl⟩
  counters := by
    refine ⟨fun p c => ?_, fun r => vector_get_replicate 0 r⟩
    have row : Ctb.hard.ports.get p = Vector.replicate 12 ⟨0, false⟩ := vector_get_replicate _ p
    show (Ctb.hard.ports.get p).get c = _
    rw [row, vector_get_replicate]
  agent := ⟨rfl, rfl⟩
  part := ⟨rfl, rfl⟩

/-- A power-on reset leaves the map as a pin reset leaves one whose cells are empty (R17, R18). -/
theorem Cvm.powerOn_eq : Cvm.powerOn = Cvm.powerOn.pinReset := rfl

/-- Settles O7. -/
theorem hardResetsSetEveryBlock : Obligations.HardResetsSetEveryBlock := by
  refine ⟨fun s => ⟨⟨_, rfl, ?_, rfl, rfl, rfl, fun p => ?_⟩,
    ⟨_, rfl, hardValues_atHardReset .., rfl, rfl, rfl, fun p => ?_⟩⟩, fun msel addr s hpart => ?_⟩
  · rw [Cvm.powerOn_eq]
    exact hardValues_atHardReset ..
  · rw [hardValues_port]
    rfl
  · rw [hardValues_port]
    rfl
  · refine ⟨hardValues .starting { msel := msel, addr := addr } s.cvm.pinReset s, ?_, hardValues_atHardReset .., rfl, rfl,
      ?_, fun p => ?_, fun p => ?_, rfl, rfl⟩
    · exact congrArg Host.Outcome.next (if_pos hpart)
    · show (BitVec.ofNat 32 (0xFFFFFF00 + addr.val)).toNat = _
      rw [BitVec.toNat_ofNat]
      omega
    · rw [hardValues_port]
      have t0 : (p.val == 12) = decide (p = 12) := by rw [beq_eq_decide, decide_eq_decide, Fin.ext_iff]; rfl
      have t1 : (p.val == 13) = decide (p = 13) := by rw [beq_eq_decide, decide_eq_decide, Fin.ext_iff]; rfl
      rw [t0, t1]
      rfl
    · rw [hardValues_port]
      rfl

/-- The state after a power-on reset is the one that the hard-reset values give. -/
theorem State.reset_eq : State.reset = hardValues .starting ⟨false, 0⟩ .powerOn State.reset := by
  have hports : State.reset.ports = hardPorts false State.reset.ports := by decide
  unfold hardValues
  rw [← hports]
  rfl

/-- Settles O6. -/
theorem resetStateHoldsHardResetValues : Obligations.ResetStateHoldsHardResetValues := by
  refine ⟨?_, rfl, rfl, rfl, rfl, by decide⟩
  rw [State.reset_eq, Cvm.powerOn_eq]
  exact hardValues_atHardReset ..

/-- Settles O51: each law holds of the hard-reset values of its block. -/
theorem resetKeepsTheLaws : Obligations.ResetKeepsTheLaws := by
  have link (l : LinkNo) : State.reset.link l = .hard := vector_get_replicate _ l
  obtain ⟨reefers, batches⟩ := (rcn_lawful_iff State.reset).1 Rcn.hard_lawful
  have credit : CreditLaw State.reset := by
    rw [State.reset_eq]
    exact (creditLaw_iff _).2 (Bucket.lawful_rule.storeLaw.hard ..)
  have buckets : BucketsLaw (fun _ x => x.aboveFloor) (· ≤ 2048) (· ≤ 63) State.reset := by
    rw [State.reset_eq]
    exact Bucket.aboveFloor_rule.storeLaw.hard ..
  have counted : PoolCounted State.reset := by
    rw [State.reset_eq]
    exact PoolCounted.storeLaw.hard ..
  have sent : HeadsSent State.reset := by
    rw [State.reset_eq]
    exact HeadsSent.storeLaw.hard _ _ _ _
  have frames (ok : Body → Prop) : FramesMeet ok State.reset := fun _ hr => nomatch hr
  have slots (ok : Body → Prop) : SlotsMeet ok State.reset := fun l bytes h => by
    rw [link] at h
    cases h
  have floor : CreditFloor State.reset :=
    (creditFloor_iff _).2 ⟨buckets, frames _, slots _, ⟨Nat.zero_le _, Nat.zero_le _⟩, fun e he => by
      obtain he | he := he <;> cases he⟩
  refine ⟨(cvm_lawful_iff _).1 Cvm.powerOn_lawful, (stt_lawful_iff _).1 Stt.hard_lawful, fun l => ?_,
    .of_none (fun l => ?_) rfl rfl, reefers, batches, credit, floor, (poolLaw_iff _).2 ⟨counted, sent, frames _, slots _⟩,
    fun k => ?_, .of_hard rfl⟩
  · rw [link]
    exact Link.hard_lawful
  · rw [link]
    rfl
  · have source : State.reset.source k = .hard := vector_get_replicate _ k
    rw [source]
    exact Source.hard_lawful k

end Sys2Proof.Machine
end

section
/-! The ports' usability (R21), the entries into RUNNING (R174, R175) and RESTART (R172 to R174): O8, O9 and O11. -/

namespace Sys2Proof.Machine

/-! ### Changes of a port's record (R20, R21) -/

/-- What reports leave of the events in flight. -/
theorem ReportsOnly.flight {s t : State} (h : ReportsOnly s t) :
    t.flight = { s.flight with enqueues := t.flight.enqueues } := by
  have := congrArg State.flight h
  exact this

theorem ReportsOnly.usable {s t : State} (h : ReportsOnly s t) : t.usable = s.usable := by
  funext p
  unfold State.usable State.port
  rw [h.ports]

/-- The frame of a port's change is kept where reports follow it. -/
theorem PortFrame.then_reports {s u t : State} (h : PortFrame s u) (g : ReportsOnly u t) : PortFrame s t := by
  unfold PortFrame at *
  unfold ReportsOnly at g
  rw [g, h]

theorem PortFrame.trans {s u t : State} (h : PortFrame s u) (g : PortFrame u t) : PortFrame s t := by
  unfold PortFrame at *
  rw [g, h]

theorem TookEvent.of_ntu {k : SourceNo} {d : Detail} {s u t : State} (h : TookEvent k d u t) (hntu : u.ntu = s.ntu) :
    TookEvent k d s t := by
  unfold TookEvent State.source at *
  rwa [hntu] at h

theorem announceDown_announces (p : Port) (c : Cause) (s : State) :
    (announceDown p c s).ports = s.ports ∧ TookEvent 16 (.port p c) s (announceDown p c s) ∧
      (announceDown p c s).flight.stationDowns = s.flight.stationDowns ++ [p] ∧
      (announceDown p c s).flight.queueDowns = s.flight.queueDowns ++ [p] ∧
      (announceDown p c s).flight.linkEvents =
        s.flight.linkEvents ++ (boundLinks s).map (fun l => ⟨false, l, p⟩) ∧
      PortFrame s (announceDown p c s) := by
  unfold announceDown
  generalize hu : s.setFlight _ = u
  have raised := raise_eventRaised 16 (.port p c) u (by decide)
  have hflight := raised.frame.flight
  have hports := raised.frame.ports
  have hevent := raised.event
  have hframe : PortFrame s (raise 16 (.port p c) u) := by
    refine PortFrame.then_reports ?_ raised.frame
    subst hu
    rfl
  refine ⟨?_, ?_, ?_, ?_, ?_, hframe⟩
  · rw [show Src.portDown = 16 from rfl, hports, ← hu]; rfl
  · rw [← hu] at hevent ⊢
    exact hevent
  all_goals
    rw [show Src.portDown = 16 from rfl, hflight, ← hu]
    rfl

theorem announceUp_announces (p : Port) (c : Cause) (s : State) :
    (announceUp p c s).ports = s.ports ∧ TookEvent 17 (.port p c) s (announceUp p c s) ∧
      (announceUp p c s).flight.stationDowns = s.flight.stationDowns ∧
      (announceUp p c s).flight.queueDowns = s.flight.queueDowns ∧
      (announceUp p c s).flight.linkEvents =
        s.flight.linkEvents ++ (boundLinks s).map (fun l => ⟨true, l, p⟩) ∧
      PortFrame s (announceUp p c s) := by
  unfold announceUp
  generalize hu : s.setFlight _ = u
  have raised := raise_eventRaised 17 (.port p c) u (by decide)
  have hflight := raised.frame.flight
  have hports := raised.frame.ports
  have hevent := raised.event
  have hframe : PortFrame s (raise 17 (.port p c) u) := by
    refine PortFrame.then_reports ?_ raised.frame
    subst hu
    rfl
  refine ⟨?_, ?_, ?_, ?_, ?_, hframe⟩
  · rw [show Src.portUp = 17 from rfl, hports, ← hu]; rfl
  · rw [← hu] at hevent ⊢
    exact hevent
  all_goals
    rw [show Src.portUp = 17 from rfl, hflight, ← hu]
    rfl

theorem State.usable_congr {s t : State} (h : t.ports = s.ports) : t.usable = s.usable := by
  funext p
  unfold State.usable State.port
  rw [h]

/-- A change of a port's record announces a change of its usability, and touches nothing else (R21). -/
theorem changePort_announces (p : Port) (r : PortRec) (c : Cause) (s : State) :
    (changePort p r c s).ports = vset s.ports p r ∧ UsabilityAnnounced p c s (changePort p r c s) ∧
      PortFrame s (changePort p r c s) := by
  unfold changePort
  dsimp only
  generalize hu : s.setPort p r = u
  have hset : u.ports = vset s.ports p r ∧ PortFrame s u ∧ boundLinks u = boundLinks s ∧ u.flight = s.flight ∧
      u.ntu = s.ntu ∧ u.ctb = s.ctb := by
    subst hu
    exact ⟨rfl, rfl, rfl, rfl, rfl, rfl⟩
  obtain ⟨uports, uframe, ulinks, uflight, untu, uctb⟩ := hset
  unfold UsabilityAnnounced
  split
  · rename_i hrun
    split
    · rename_i hs ht
      obtain ⟨hports, hevent, hstation, hqueue, hlinks, hframe⟩ := announceDown_announces p c u
      rw [State.usable_congr hports, if_pos ⟨hrun, hs, ht⟩, hstation, hqueue, hlinks, ulinks, uflight]
      exact ⟨hports.trans uports, ⟨hevent.of_ntu untu, rfl, rfl, rfl⟩, uframe.trans hframe⟩
    · rename_i hs ht
      obtain ⟨hports, hevent, hstation, hqueue, hlinks, hframe⟩ := announceUp_announces p c u
      rw [State.usable_congr hports, if_neg (fun h => by simp [hs] at h), if_pos ⟨hrun, hs, ht⟩, hstation, hqueue, hlinks,
        ulinks, uflight]
      exact ⟨hports.trans uports, ⟨hevent.of_ntu untu, rfl, rfl, rfl⟩, uframe.trans hframe⟩
    · rename_i hs ht
      rw [if_neg (fun h => by simp [ht] at h), if_neg (fun h => by simp [hs] at h)]
      exact ⟨uports, ⟨uflight, untu, uctb⟩, uframe⟩
    · rename_i hs ht
      rw [if_neg (fun h => by simp [hs] at h), if_neg (fun h => by simp [ht] at h)]
      exact ⟨uports, ⟨uflight, untu, uctb⟩, uframe⟩
  · rename_i hrun
    rw [if_neg (fun h => hrun h.1), if_neg (fun h => hrun h.1)]
    exact ⟨uports, ⟨uflight, untu, uctb⟩, uframe⟩

/-- Settles O11: both reports of the PHY change the port's record. -/
theorem linkReportsFollowThePhy : Obligations.LinkReportsFollowThePhy := fun p s =>
  ⟨⟨_, rfl, changePort_announces p _ .link s⟩, ⟨_, rfl, changePort_announces p _ .link s⟩⟩

/-! ### RESTART (R172 to R174) -/

theorem Decode.ofOption_eq_command {o : Option Instr} {i : Instr} :
    Decode.ofOption o = .command i ↔ o = some i := by
  cases o <;> simp [Decode.ofOption]

/-- Only the code 0x25 spells a RESTART (R180). -/
theorem Decode.command_restart {code : Byte} {args : List Byte} (h : Decode.command code args = .command .restart) :
    code = 0x25 := by
  have hcode : code.toNat = 0x25 := by
    unfold Decode.command at h
    split at h
    any_goals
      rw [Decode.ofOption_eq_command] at h
      repeat' split at h
      all_goals cases h
    any_goals cases h
    assumption
  exact BitVec.eq_of_toNat_eq hcode

/-- A frame that has come to a RESTART carries the code of RESTART there. -/
theorem Execution.code_of_restart {e : Execution} (h : e.awaited = some .restart) : e.code = 0x25 := by
  unfold Execution.awaited at h
  split at h
  · cases h
  · split at h
    · rename_i i hu
      cases h
      unfold Execution.upcoming at hu
      split at hu
      · cases hu
      · split at hu
        · cases hu
        · rename_i code args more hwhole
          have hcode : code = 0x25 := by
            refine Decode.command_restart (args := args) ?_
            split at hu
            · cases hu
            · cases hu
            · cases hu
              assumption
          unfold Execution.whole at hwhole
          unfold Execution.code
          split at hwhole
          · rename_i hrest
            rw [hrest]
            split at hwhole
            · cases hwhole
              exact hcode
            · cases hwhole
          · cases hwhole
          · cases hwhole
    all_goals cases h

/-- A reply goes to the U queue of a port of arrival that is usable (R172). -/
theorem answer_of_usable (restart : Bool) {a : Port} (x y : Sid) (payload : List Byte) {s : State}
    (h : s.usable a = true) : answer restart a x y payload s = { s with
      mga := { s.mga with phase := if restart then .restartOrdered else .idle }
      flight := { s.flight with enqueues := s.flight.enqueues ++
        [{ queues := [(a, .u)], kind := .managementReply
           body := .originated (.reply restart) (originatedBytes .managementReply (Port.isQuay a) x y payload) }] } } :=
  if_pos (c := (s.setMga _).usable a = true) h

/-- A reply of a port of arrival that is not usable is lost (R172, R174). -/
theorem answer_of_not_usable (restart : Bool) {a : Port} (x y : Sid) (payload : List Byte) {s : State}
    (h : s.usable a = false) : answer restart a x y payload s =
      if restart then softRestart (portDownDrop a (s.setMga { s.mga with phase := .restartOrdered }))
      else portDownDrop a (s.setMga { s.mga with phase := .idle }) := by
  have down (m : Mga) : (s.setMga m).usable a = false := h
  cases restart <;> simp [answer, down]

/-- Settles O9: the last command of its frame leaves no other to come to, and its reply carries the restart. -/
theorem restartIsOrderedOrRefused : Obligations.RestartIsOrderedOrRefused := by
  intro s e hs
  have hexec : exec .restart s = .next (if e.entries.length + 1 = e.count then completeCommand true e .ok [] s
      else completeCommand false e .badArgument [] s) := by
    show execRestart s = _
    unfold execRestart
    rw [executionAt_of_awaits hs]
  have complete (hcount : e.entries.length + 1 = e.count) : completeCommand true e .ok [] s =
      answer true e.arrival e.station e.peer (replyPayload e.tag .ok (e.entries ++ [⟨0x25, .ok, []⟩])) s := by
    have hfit : fitResult e.room .ok [] = (.ok, []) := by simp [fitResult, Status.fails]
    have hsettled : (e.push .ok []).settle 16 = e.push .ok [] :=
      Execution.settle_of_complete 16 (by rw [Execution.push_count, Execution.push_entries, List.length_append]; exact hcount.ge)
    unfold completeCommand Execution.afterCommand continueFrame
    rw [hfit]
    dsimp only
    rw [hsettled, if_pos (by rw [Execution.push_count, Execution.push_entries, List.length_append]; exact hcount.ge),
      Execution.push_entries, Execution.code_of_restart hs.2]
    rfl
  refine ⟨fun hcount => by rw [hexec, if_neg hcount], fun hcount husable => ?_, fun hcount husable => ?_⟩
  · rw [hexec, if_pos hcount, complete hcount, answer_of_usable true _ _ _ husable]
    rfl
  · refine ⟨_, hexec, ?_⟩
    rw [if_pos hcount, complete hcount, answer_of_not_usable true _ _ _ husable, if_pos rfl]
    generalize hu : s.setMga _ = u
    have dropped : (portDownDrop e.arrival u).restarts = u.restarts := (portDownDrop_agrees ..).same .restarts (by decide)
    refine ⟨rfl, ?_, rfl⟩
    show min 65535 ((portDownDrop e.arrival u).restarts + 1) = _
    rw [dropped, ← hu]
    rfl

/-! ### The entries into RUNNING (R102, R174, R175) -/

theorem ReportsOnly.conditions {s t : State} (h : ReportsOnly s t) :
    stationFull t = stationFull s ∧ reeferFull t = reeferFull s ∧ batchOverflow t = batchOverflow s ∧
      mapInvalid t = mapInvalid s ∧ poolLow t = poolLow s := by
  rw [h]
  exact ⟨rfl, rfl, rfl, rfl, rfl⟩

/-- Every level source is presented, and nothing but reports changes (R158). -/
theorem presentAll_presents (s : State) : LevelsPresented (presentAll s) ∧ ReportsOnly s (presentAll s) := by
  have reports := (presentAll_reported s).frame
  obtain ⟨stations, reefers, batches, map, pool⟩ := reports.conditions
  have r5 := present_reportsOnly 5 (craneUncovered s) s
  have r6 := r5.trans (present_reportsOnly 6 (stationFull (presentUncovered s)) _)
  have r11 := r6.trans (present_reportsOnly 11 (reeferFull (presentStationFull (presentUncovered s))) _)
  have r12 := r11.trans (present_reportsOnly 12
    (batchOverflow (presentReeferFull (presentStationFull (presentUncovered s)))) _)
  have r15 := r12.trans (present_reportsOnly 15
    (mapInvalid (presentBatchOverflow (presentReeferFull (presentStationFull (presentUncovered s))))) _)
  refine ⟨?_, reports⟩
  unfold LevelsPresented
  rw [reports.craneUncovered, stations, reefers, batches, map, pool]
  unfold presentAll presentPoolLow presentMapInvalid presentBatchOverflow presentReeferFull presentStationFull
    presentUncovered
  refine ⟨?_, ?_, ?_, ?_, ?_, ?_⟩
  all_goals repeat rw [present_source_of_ne _ _ (by decide) (by decide)]
  · exact present_pending _ _ (by decide)
  · exact (present_pending _ _ (by decide)).trans r5.conditions.1
  · exact (present_pending _ _ (by decide)).trans r6.conditions.2.1
  · exact (present_pending _ _ (by decide)).trans r11.conditions.2.2.1
  · exact (present_pending _ _ (by decide)).trans r12.conditions.2.2.2.1
  · exact (present_pending _ _ (by decide)).trans r15.conditions.2.2.2.2

/-- The block timers start with the periods of their blocks. -/
theorem startTimers_started (s : State) : TimersStarted s (startTimers { s with part := .running }) :=
  ⟨rfl, rfl, rfl, rfl⟩

theorem ReportsOnly.timersStarted {s u t : State} (h : ReportsOnly u t) (g : TimersStarted s u) : TimersStarted s t := by
  rw [h]
  exact g

/-- What a cell check does to its link turns on the ports, the map in use and the link alone (R86 to R88). -/
theorem cellCheck_link_congr {l : LinkNo} {s t : State} (hbound : (s.link l).state ≠ .unbound)
    (hports : t.ports = s.ports) (hvalid : t.cvm.valid = s.cvm.valid) (hactive : t.cvm.active = s.cvm.active)
    (hlink : t.link l = s.link l) : (cellCheck l t).link l = (cellCheck l s).link l := by
  have usable := State.usable_congr hports
  have cand : candidates t = candidates s := by
    funext x
    unfold candidates
    rw [hvalid, hactive]
  have quay : t.quayUsable = s.quayUsable := by
    funext q
    unfold State.quayUsable
    rw [usable]
  have settle : settleContext t = settleContext s := by
    funext x
    rw [settleContext_eq, settleContext_eq, usable]
  have stays : Stays t = Stays s := by
    funext x
    unfold Stays
    rw [cand, usable]
  have target : chooseTarget t = chooseTarget s := by
    funext x
    unfold chooseTarget
    rw [cand, quay, usable]
  obtain ⟨y, hy, hstate, hcase⟩ := cellCheck_cases hbound
  have hyt : settleContext t (t.link l) = y := by rw [settle, hlink, hy]
  obtain hset | ⟨q, hstays, htarget⟩ := hcase
  · rw [cellCheck_settles hy hset, cellCheck_settles hyt (by rwa [stays, target]), State.link_setLink_self,
      State.link_setLink_self]
  · rw [cellCheck_acts hy hstays htarget, cellCheck_acts hyt (by rwa [stays]) (by rwa [target])]
    obtain ⟨z, ⟨hacts, -⟩ | hprimes⟩ := actOnTarget_ends_or_primes l q (s.setLink l y) hstate
    · rw [hacts (t.setLink l y) hports, hacts _ rfl, State.link_setLink_self, State.link_setLink_self]
    · rw [hprimes (t.setLink l y) hports, hprimes _ rfl, primingCopy_link, primingCopy_link, State.link_setLink_self,
        State.link_setLink_self]

/-- The cell check of a bound link whose segment is known (R102). -/
def checkedAt (t : State) (l : LinkNo) : State :=
  if (t.link l).state ≠ .unbound ∧ (t.link l).segment.isSome = true then cellCheck l t else t

theorem checkedAt_checkFrame (s : State) (l : LinkNo) : CheckFrame l s (checkedAt s l) := by
  unfold checkedAt
  split
  · rename_i h
    exact cellCheck_checkFrame h.1
  · exact .refl l s

theorem checkedAt_link_congr {l : LinkNo} {s t : State} (hports : t.ports = s.ports)
    (hvalid : t.cvm.valid = s.cvm.valid) (hactive : t.cvm.active = s.cvm.active) (hlink : t.link l = s.link l) :
    (checkedAt t l).link l = (checkedAt s l).link l := by
  unfold checkedAt
  rw [hlink]
  split
  · rename_i h
    exact cellCheck_link_congr h.1 hports hvalid hactive hlink
  · exact hlink

/-- The checks of some links are each as made in the state before them all (R102). -/
theorem foldl_checkedAt {s t : State} {ls : List LinkNo} (hnodup : ls.Nodup) (hports : t.ports = s.ports)
    (hvalid : t.cvm.valid = s.cvm.valid) (hactive : t.cvm.active = s.cvm.active)
    (hlinks : ∀ l ∈ ls, t.link l = s.link l) :
    (∀ l, (ls.foldl checkedAt t).link l = if l ∈ ls then (checkedAt s l).link l else t.link l) ∧
      ls.foldl checkedAt t = { t with
        links := (ls.foldl checkedAt t).links
        flight := { t.flight with enqueues := (ls.foldl checkedAt t).flight.enqueues } } := by
  induction ls generalizing t with
  | nil => exact ⟨fun l => by simp, rfl⟩
  | cons k ls ih =>
    obtain ⟨hk, hnodup⟩ := List.nodup_cons.1 hnodup
    obtain ⟨others, frame⟩ := checkedAt_checkFrame t k
    have hlink : (checkedAt t k).link k = (checkedAt s k).link k :=
      checkedAt_link_congr hports hvalid hactive (hlinks k List.mem_cons_self)
    have next := ih (t := checkedAt t k) hnodup (by rw [frame]; exact hports) (by rw [frame]; exact hvalid)
      (by rw [frame]; exact hactive) fun l hl => by
        rw [others l fun e => hk (e ▸ hl)]
        exact hlinks l (List.mem_cons_of_mem _ hl)
    rw [List.foldl_cons]
    refine ⟨fun l => ?_, ?_⟩
    · rw [next.1]
      by_cases hl : l ∈ ls
      · rw [if_pos hl, if_pos (List.mem_cons_of_mem _ hl)]
      · by_cases hlk : l = k
        · rw [if_neg hl, if_pos (hlk ▸ List.mem_cons_self), hlk, hlink]
        · rw [if_neg hl, if_neg (by simp [hl, hlk]), others l hlk]
    · rw [next.2, frame]

theorem restartCellChecks_eq (s : State) : restartCellChecks s = (List.finRange 24).foldl checkedAt s := rfl

/-- Settles O8: the conditions are presented over the timers as started and the links as checked. -/
theorem entryToRunningStartsTheBlocks : Obligations.EntryToRunningStartsTheBlocks := by
  refine ⟨fun s hpart => ?_, fun s hpart => ?_⟩
  · obtain ⟨levels, reports⟩ := presentAll_presents (startTimers { s with part := .running })
    refine ⟨_, congrArg Host.Outcome.next (if_pos hpart), by rw [reports]; rfl,
      reports.timersStarted (startTimers_started s), levels, ?_⟩
    generalize presentAll _ = t at reports
    rw [reports]
    rfl
  · generalize hu : startTimers { s with part := .running } = u
    have started : TimersStarted s u := hu ▸ startTimers_started s
    have same : u.ports = s.ports ∧ u.cvm.valid = s.cvm.valid ∧ u.cvm.active = s.cvm.active ∧ u.links = s.links ∧
        u = { s with part := .running, cvm := u.cvm, stt := u.stt, rcn := u.rcn, fsq := u.fsq } := by
      subst hu
      exact ⟨rfl, rfl, rfl, rfl, rfl⟩
    obtain ⟨hports, hvalid, hactive, hlinks, hframe⟩ := same
    have link (l : LinkNo) : u.link l = s.link l := by unfold State.link; rw [hlinks]
    obtain ⟨checked, frame⟩ := foldl_checkedAt (List.nodup_finRange 24) hports hvalid hactive fun l _ => link l
    rw [← restartCellChecks_eq] at checked frame
    obtain ⟨levels, reports⟩ := presentAll_presents (restartCellChecks u)
    have hexec : exec .restartInitializationEnd s = .next (presentAll (restartCellChecks u)) := by
      subst hu
      exact congrArg Host.Outcome.next (if_pos hpart)
    generalize restartCellChecks u = v at checked frame levels reports hexec
    generalize presentAll v = t at levels reports hexec
    refine ⟨t, hexec, ?_, ?_, levels, fun l => ?_, ?_⟩
    · rw [reports, frame, hframe]
    · refine reports.timersStarted ?_
      rw [frame]
      exact started
    · rw [reports.link, checked, if_pos (List.mem_finRange l)]
      unfold checkedAt
      split <;> rfl
    · rw [reports, frame, hframe]

end Sys2Proof.Machine
end

section
/-! What a soft restart keeps, clears and counts (R148, R174): O10. -/

namespace Sys2Proof.Machine

/-! ### What reports leave of the sources and of the lost notices -/

/-- The mask and the level of every source are kept. -/
def SettingsKept (s t : State) : Prop :=
  ∀ k, (t.source k).masked = (s.source k).masked ∧ (t.source k).level = (s.source k).level

theorem SettingsKept.refl (s : State) : SettingsKept s s := fun _ => ⟨rfl, rfl⟩

theorem SettingsKept.trans {s t u : State} (h : SettingsKept s t) (g : SettingsKept t u) : SettingsKept s u :=
  fun k => ⟨(g k).1.trans (h k).1, (g k).2.trans (h k).2⟩

theorem countPort_settingsKept (p : Port) (c : Fin 12) (n : Nat) (s : State) : SettingsKept s (countPort p c n s).1 := by
  unfold countPort
  dsimp only
  split
  · exact .refl s
  · intro k
    rw [State.source_setSource]
    split
    · rename_i hk
      subst hk
      rw [Source.event_eq]
      split <;> exact ⟨rfl, rfl⟩
    · exact ⟨rfl, rfl⟩

theorem issueWith_settingsKept {f : Port → Fin 12 → Nat → State → State} (hf : ∀ p c n s, SettingsKept s (f p c n s))
    (k : SourceNo) (s : State) : SettingsKept s (issueWith f k s) := by
  unfold issueWith
  split
  · exact .refl s
  · split
    · exact .refl s
    · exact SettingsKept.trans (t := addDrop Drop.portDown 1 (s.setNtu { s.ntu with lost := countUp s.ntu.lost 1 }))
        (fun _ => ⟨rfl, rfl⟩) (hf _ _ _ _)

theorem bumpFuel_settingsKept (fuel : Nat) (p : Port) (c : Fin 12) (n : Nat) (s : State) :
    SettingsKept s (bumpFuel fuel p c n s) := by
  induction fuel generalizing p c n s with
  | zero => exact countPort_settingsKept p c n s
  | succ fuel ih =>
    rw [bumpFuel]
    split
    · exact (countPort_settingsKept p c n s).trans (issueWith_settingsKept ih _ _)
    · exact countPort_settingsKept p c n s

theorem bump_settingsKept (p : Port) (c : Fin 12) (n : Nat) (s : State) : SettingsKept s (bump p c n s) :=
  bumpFuel_settingsKept 2 p c n s

theorem countPort_lost (p : Port) (c : Fin 12) (n : Nat) (s : State) : (countPort p c n s).1.ntu.lost = s.ntu.lost := by
  unfold countPort
  dsimp only
  split <;> rfl

/-! ### The counts of a soft restart (R148, R168) -/

/-- What the counts of a soft restart have come to, with the transmissions of some ports aborted and a number of restart
discards. -/
structure RestartCounts (ps : List Port) (n : Nat) (s t : State) : Prop where
  discards : ∀ m, min 4294967295 (t.ctb.drops.get 19 + m) = min 4294967295 (s.ctb.drops.get 19 + n + m)
  drops    : ∀ r, r ≠ 19 → r ≠ 9 → t.ctb.drops.get r = s.ctb.drops.get r
  aborted  : ∀ p ∈ ps, (s.queues p).sending ≠ none → CounterRises p 11 1 s t
  kept     : ∀ p, p ∉ ps ∨ (s.queues p).sending = none → t.counter p 11 = s.counter p 11
  counters : ∀ p c, c ≠ 11 → c ≠ 10 → t.counter p c = s.counter p c
  lossless : ((∀ p, (s.queues p).sending ≠ none → (s.counter p 11).value < 4294967295) ∨ NoticesGoOut s) →
    (∀ p, t.counter p 10 = s.counter p 10) ∧ t.ctb.drops.get 9 = s.ctb.drops.get 9 ∧ t.ntu.lost = s.ntu.lost
  notices  : t.ntu.dest = s.ntu.dest ∧ t.ntu.enqueued = s.ntu.enqueued
  settings : SettingsKept s t
  frame    : ReportsOnly s t

section
variable {ps : List Port} {n : Nat} {s t : State}

theorem RestartCounts.refl (s : State) : RestartCounts [] 0 s s :=
  ⟨fun _ => rfl, fun _ _ _ => rfl, fun _ hp => (nomatch hp), fun _ _ => rfl, fun _ _ _ _ => rfl,
    fun _ => ⟨fun _ => rfl, rfl, rfl⟩, ⟨rfl, rfl⟩, .refl s, .refl s⟩

/-- A number of entries or of command frames is discarded. -/
theorem RestartCounts.discard (h : RestartCounts ps n s t) (m : Nat) : RestartCounts ps (n + m) s (addDrop 19 m t) where
  discards k := by
    have := h.discards (m + k)
    rw [addDrop_drops, if_pos rfl]
    omega
  drops r hr hr' := by rw [addDrop_drops, if_neg hr, h.drops r hr hr']
  aborted p hp hsending := by
    unfold CounterRises
    rw [addDrop_counter]
    exact h.aborted p hp hsending
  kept p hp := by rw [addDrop_counter, h.kept p hp]
  counters p c hc hc' := by rw [addDrop_counter, h.counters p c hc hc']
  lossless hl := by
    obtain ⟨hcounters, hdrop, hlost⟩ := h.lossless hl
    refine ⟨fun p => by rw [addDrop_counter, hcounters], ?_, hlost⟩
    rw [addDrop_drops, if_neg (by decide), hdrop]
  notices := h.notices
  settings := h.settings
  frame := h.frame.trans (addDrop_reportsOnly ..)

/-- The transmission in progress of a port is aborted, where there is one. -/
theorem RestartCounts.abort (h : RestartCounts ps n s t) {p : Port} (hp : p ∉ ps) :
    RestartCounts (ps ++ [p]) n s (if (s.queues p).sending.isSome then bump p Ctr.txAborted 1 t else t) := by
  by_cases hsending : (s.queues p).sending = none
  · rw [hsending]
    refine ⟨h.discards, h.drops, fun q hq hq' => ?_, fun q hq => ?_, h.counters, h.lossless, h.notices, h.settings,
      h.frame⟩
    · obtain hq | hq := List.mem_append.1 hq
      · exact h.aborted q hq hq'
      · exact absurd (List.mem_singleton.1 hq ▸ hsending) hq'
    · exact h.kept q (hq.imp_left fun hq hm => hq (List.mem_append_left _ hm))
  · rw [if_pos (Option.isSome_iff_ne_none.2 hsending), show Ctr.txAborted = 11 from rfl]
    have noted := bump_noted p 11 1 t
    obtain ⟨cdrops, -, cdest, cenqueued, -⟩ := countPort_ctb p 11 1 t
    have old := h.kept p (.inl hp)
    have goesOut (hl : (∀ p, (s.queues p).sending ≠ none → (s.counter p 11).value < 4294967295) ∨ NoticesGoOut s) :
        NoticesGoOut t ∨ (t.counter p 11).value + 1 ≤ 4294967295 := by
      obtain hl | hl := hl
      · exact .inr (by rw [old]; exact hl p hsending)
      · exact .inl (hl.congr h.notices.1 h.frame.ports)
    refine ⟨fun m => ?_, fun r hr hr' => ?_, fun q hq hq' => ?_, fun q hq => ?_, fun q c hc hc' => ?_, fun hl => ?_, ?_,
      h.settings.trans (bump_settingsKept _ _ _ _), h.frame.trans (bump_reportsOnly ..)⟩
    · rw [bump_drops _ _ _ _ (by decide)]
      exact h.discards m
    · rw [bump_drops _ _ _ _ hr', h.drops r hr hr']
    · obtain hq | hq := List.mem_append.1 hq
      · unfold CounterRises
        have hqp : q ≠ p := fun e => hp (e ▸ hq)
        rw [bump_counter_of_ne (c := 11) (k := 11) 1 t (by decide) fun e => hqp e.2]
        exact h.aborted q hq hq'
      · obtain rfl := List.mem_singleton.1 hq
        have := bump_counter q 11 1 t (by decide)
        unfold CounterRises at this ⊢
        rw [this, old]
    · have hqp : q ≠ p := fun e => by
        obtain hq | hq := hq
        · exact hq (List.mem_append_right _ (List.mem_singleton.2 e))
        · exact hsending (e ▸ hq)
      rw [bump_counter_of_ne _ _ (by decide) fun e => hqp e.2]
      exact h.kept q (hq.imp_left fun hq hm => hq (List.mem_append_left _ hm))
    · rw [bump_counter_of_ne _ _ hc' fun e => hc e.1, h.counters q c hc hc']
    · obtain ⟨hcounters, hdrop, hlost⟩ := h.lossless hl
      obtain ⟨hctb, hntu⟩ := bump_ctb p 11 1 t (goesOut hl)
      refine ⟨fun q => ?_, ?_, ?_⟩
      · have : (bump p 11 1 t).counter q 10 = (countPort p 11 1 t).1.counter q 10 := by
          unfold State.counter
          rw [hctb]
        rw [this, countPort_counter, if_neg (by simp), hcounters]
      · rw [hctb, cdrops, hdrop]
      · rw [hntu, countPort_lost, hlost]
    · exact ⟨noted.dest.1.trans (cdest.trans h.notices.1), noted.dest.2.trans (cenqueued.trans h.notices.2)⟩

end

/-- The counts of a soft restart (R148, R168). -/
theorem restartCounted_counts (s : State) : RestartCounts (List.finRange 14)
    (((List.finRange 14).map (fun p => (s.queues p).entries.length)).sum + s.mga.queue.length) s (restartCounted s) := by
  refine RestartCounts.discard ?_ _
  have counted (ps : List Port) (hnodup : ps.Nodup) : RestartCounts ps (ps.map (fun p => (s.queues p).entries.length)).sum s
      (ps.foldl (fun t p => addDrop Drop.restartDiscard (s.queues p).entries.length
        (if (s.queues p).sending.isSome then bump p Ctr.txAborted 1 t else t)) s) := by
    induction ps using List.reverseRecOn with
    | nil => exact .refl s
    | append_singleton ps p ih =>
      obtain ⟨hps, -, hdisjoint⟩ := List.nodup_append.1 hnodup
      rw [List.foldl_append, List.map_append, List.sum_append]
      have hp : p ∉ ps := fun hp => hdisjoint p hp p (List.mem_singleton_self p) rfl
      simpa using ((ih hps).abort hp).discard (s.queues p).entries.length
  exact counted _ (List.nodup_finRange 14)

/-- Settles O10: the counts are made first, and then every block takes its soft-restart values. -/
theorem softRestartKeepsAndClears : Obligations.SoftRestartKeepsAndClears := by
  intro s
  have counts := restartCounted_counts s
  have drops : (softRestart s).ctb = (restartCounted s).ctb := by rw [softRestart_eq]
  have counter (p : Port) (c : Fin 12) : (softRestart s).counter p c = (restartCounted s).counter p c := by
    unfold State.counter
    rw [drops]
  have reefers (k : Nat) : Table.get (softRestart s).rcn.reefers k = (Table.get s.rcn.reefers k).map Reefer.softRestart := by
    rw [softRestart_rcn]
    exact Table.get_mapValues ..
  have queues (p : Port) : (softRestart s).queues p = { (s.queues p).emptied with turn := .b, served := 0 } := by
    unfold State.queues
    rw [softRestart_fsq]
    exact vector_get_map (fun q : PortQueues => { q.emptied with turn := .b, served := 0 }) s.fsq.ports p
  have bucket (b : BucketNo) : (softRestart s).bucket b = (s.bucket b).softRestart := by
    unfold State.bucket
    rw [softRestart_fsq]
    exact vector_get_map Bucket.softRestart s.fsq.buckets b
  have discards := counts.discards 0
  have bounded : (restartCounted s).ctb.drops.get 19 ≤ 4294967295 := by
    unfold restartCounted
    rw [show Drop.restartDiscard = 19 from rfl, addDrop_drops, if_pos rfl]
    exact Nat.min_le_left ..
  refine ⟨rfl, rfl, rfl, softRestart_cvm s, softRestart_stt s, softRestart_link s, reefers,
    by rw [softRestart_rcn]; rfl, by rw [softRestart_rcn]; rfl, by rw [softRestart_rcn]; rfl,
    by rw [softRestart_rcn]; rfl, by rw [softRestart_rcn]; rfl, by rw [softRestart_rcn]; rfl,
    by rw [softRestart_rcn]; rfl, by rw [softRestart_rcn]; rfl, by rw [softRestart_rcn]; rfl, ?_,
    fun r hr hr' => by rw [drops]; exact counts.drops r hr hr',
    fun p hp => ?_, fun p hp => ?_, fun p c hc hc' => ?_, fun hl => ?_, ?_,
    by rw [softRestart_fsq]; rfl, by rw [softRestart_fsq]; rfl, by rw [softRestart_fsq]; rfl, by rw [softRestart_fsq]; rfl,
    queues, bucket, fun k => ?_, ?_⟩
  · unfold DropRises
    rw [drops]
    omega
  · unfold CounterRises
    rw [counter]
    exact counts.aborted p (List.mem_finRange p) hp
  · rw [counter]
    exact counts.kept p (.inr hp)
  · rw [counter]
    exact counts.counters p c hc hc'
  · obtain ⟨hcounters, hdrop, hlost⟩ := counts.lossless hl
    refine ⟨fun p => by rw [counter, hcounters], by rw [drops, hdrop], ?_⟩
    rw [← hlost, softRestart_eq]
  · rw [← counts.notices.2, softRestart_eq]
  · rw [softRestart_source]
    exact ⟨rfl, rfl, rfl, rfl, counts.settings k⟩
  · have quiet (f : Field) (hf : f ∉ [Field.ntu, .ctb, .flight]) := counts.frame.agrees.same f hf
    rw [softRestart_eq]
    exact ⟨counts.notices.1, rfl, quiet .ports (by decide), quiet .idc (by decide), quiet .sid (by decide),
      quiet .straps (by decide), quiet .seconds (by decide), quiet .wire (by decide), quiet .freeUse (by decide),
      quiet .pending (by decide)⟩

end Sys2Proof.Machine
end

section
/-! The bytes of a management command (R169, R177, R180): O4 and O5. -/

namespace Sys2Proof.Machine

/-! ### Round trips of the arguments -/

theorem byteArg_iff {n : Nat} : WellFormed.byteArg n = true ↔ n < 256 := decide_eq_true_iff

theorem halfArg_iff {n : Nat} : WellFormed.halfArg n = true ↔ n < 65536 := decide_eq_true_iff

theorem decode_u16 {n : Nat} (h : n < 65536) : Decode.u16 (BitVec.ofNat 8 (n / 256)) (BitVec.ofNat 8 n) = n := by
  simp only [Decode.u16, BitVec.toNat_ofNat]
  omega

theorem decode_half (h : Half) : Decode.half ((h >>> 8).setWidth 8) (h.setWidth 8) = h := by
  refine BitVec.eq_of_getLsbD_eq fun i hi => ?_
  simp only [Decode.half, BitVec.getLsbD_append, BitVec.getLsbD_setWidth, BitVec.getLsbD_ushiftRight]
  by_cases h8 : i < 8
  · simp [h8]
  · simp [h8, show 8 + (i - 8) = i by omega]
    omega

theorem decode_sid (x : Sid) : Decode.sid ((x >>> 24).setWidth 8) ((x >>> 16).setWidth 8) ((x >>> 8).setWidth 8)
    (x.setWidth 8) = x := by
  refine BitVec.eq_of_getLsbD_eq fun i hi => ?_
  simp only [Decode.sid, BitVec.getLsbD_append, BitVec.getLsbD_setWidth, BitVec.getLsbD_ushiftRight]
  by_cases h8 : i < 8
  · simp [h8]
  · by_cases h16 : i - 8 < 8
    · simp [h8, h16, show 8 + (i - 8) = i by omega]
    · by_cases h24 : i - 8 - 8 < 8
      · simp [h8, h16, h24, show 16 + (i - 8 - 8) = i by omega]
      · simp [h8, h16, h24, show 24 + (i - 8 - 8 - 8) = i by omega]
        omega

theorem decode_grade (g : Grade) : Decode.grade (BitVec.ofNat 8 (Encode.grade g)).toNat = g := by
  cases g <;> rfl

theorem decode_cell (v : CellValue) : Decode.cell (BitVec.ofNat 8 (v.primary.val * 16 + v.secondary.val))
    (BitVec.ofNat 8 (Encode.grade v.grade)) = v := by
  obtain ⟨p, q, g⟩ := v
  have primary : ((BitVec.ofNat 8 (p.val * 16 + q.val) >>> 4).setWidth 4).toFin = p := by
    ext
    simp [Nat.shiftRight_eq_div_pow]
    omega
  have secondary : ((BitVec.ofNat 8 (p.val * 16 + q.val)).setWidth 4).toFin = q := by
    ext
    simp
  rw [Decode.cell, primary, secondary, decode_grade]

theorem decode_cells (vs : List CellValue) (more : List Byte) :
    Decode.cells vs.length (vs.flatMap Encode.cellValue ++ more) = vs := by
  induction vs with
  | nil => rfl
  | cons v vs ih =>
    simp only [List.length_cons, List.flatMap_cons, Encode.cellValue, List.cons_append, List.nil_append, Decode.cells,
      decode_cell, ih]

theorem encode_cells_length (vs : List CellValue) : (vs.flatMap Encode.cellValue).length = 2 * vs.length := by
  induction vs with
  | nil => rfl
  | cons v vs ih =>
    rw [List.flatMap_cons, List.length_append, ih, List.length_cons]
    simp only [Encode.cellValue, List.length_cons, List.length_nil]
    omega

/-- The count of the values and the values of STREAM-CELLS are read back (R178). -/
theorem decode_streamCells {c n : Nat} {vs : List CellValue} (more : List Byte) (hc : c < 256) (hn : 2 + 2 * n < 256)
    (hvs : vs.length = n) :
    Decode.command 0x13 (Encode.u8 c ++ Encode.u8 n ++ vs.flatMap Encode.cellValue ++ more) =
      .command (.streamCells c n vs) := by
  have hcount : (BitVec.ofNat 8 n).toNat = n := by rw [BitVec.toNat_ofNat]; omega
  have hcont : (BitVec.ofNat 8 c).toNat = c := by rw [BitVec.toNat_ofNat]; omega
  have henough : ¬(vs.flatMap Encode.cellValue ++ more).length < 2 * n := by
    rw [List.length_append, encode_cells_length]
    omega
  have hcells : Decode.cells n (vs.flatMap Encode.cellValue ++ more) = vs := hvs ▸ decode_cells vs more
  show Decode.ofOption (if (vs.flatMap Encode.cellValue ++ more).length < 2 * (BitVec.ofNat 8 n).toNat then none
    else some (.streamCells (BitVec.ofNat 8 c).toNat (BitVec.ofNat 8 n).toNat
      (Decode.cells (BitVec.ofNat 8 n).toNat (vs.flatMap Encode.cellValue ++ more)))) = _
  rw [hcount, hcont, if_neg henough, hcells]
  rfl

/-- Settles O4: each argument is read back from the bytes that spell it. -/
theorem encodedCommandsDecode : Obligations.EncodedCommandsDecode := by
  intro i code args more hwf h
  cases i with
  | streamCells c n vs =>
    cases h
    simp only [Instr.wf, Bool.and_eq_true, byteArg_iff, decide_eq_true_eq] at hwf
    obtain ⟨⟨hc, hn⟩, hvs⟩ := hwf
    exact decode_streamCells more hc hn hvs
  | _ =>
    cases h <;> simp only [Instr.wf, Bool.and_eq_true, byteArg_iff, halfArg_iff] at hwf <;>
      simp [Encode.u8, Encode.u16, Encode.half, Encode.sid, Decode.command, Decode.ofOption, hwf, Nat.mod_eq_of_lt,
        decode_u16, decode_half, decode_sid]

/-- STREAM-CELLS with fewer bytes than its values take is SHORT (R169; log 15). -/
theorem decode_streamCells_short {c n m : Nat} {vs : List CellValue} (hn : 2 + 2 * n < 256) (hvs : vs.length = n)
    (hm : m < 2 + 2 * n) :
    Decode.command 0x13 ((Encode.u8 c ++ Encode.u8 n ++ vs.flatMap Encode.cellValue).take m) = .short := by
  have hcount : (BitVec.ofNat 8 n).toNat = n := by rw [BitVec.toNat_ofNat]; omega
  match m, hm with
  | 0, _ => rfl
  | 1, _ => rfl
  | m + 2, hm =>
    have hfew : ((vs.flatMap Encode.cellValue).take m).length < 2 * n := by
      rw [List.length_take, encode_cells_length]
      omega
    show Decode.ofOption (if ((vs.flatMap Encode.cellValue).take m).length < 2 * (BitVec.ofNat 8 n).toNat then none
      else some (.streamCells (BitVec.ofNat 8 c).toNat (BitVec.ofNat 8 n).toNat
        (Decode.cells (BitVec.ofNat 8 n).toNat ((vs.flatMap Encode.cellValue).take m)))) = _
    rw [hcount, if_pos hfew]
    rfl

/-- A code outside the table names no command (R180). -/
theorem decode_badCode {code : Byte} (args : List Byte) (h : code = 0 ∨ 0x25 < code.toNat) :
    Decode.command code args = .badCode := by
  have hcode : code.toNat = 0 ∨ 0x25 < code.toNat := h.imp_left fun e => by rw [e]; rfl
  unfold Decode.command
  split
  any_goals omega
  rfl

/-- Settles O5: a command's bytes without its last ones leave its pattern of arguments unmatched. -/
theorem shortAndUnknownCommands : Obligations.ShortAndUnknownCommands := by
  refine ⟨fun i code args n hwf h hn => ?_, fun code args h => decode_badCode args h⟩
  cases i with
  | streamCells c k vs =>
    cases h
    simp only [Instr.wf, Bool.and_eq_true, byteArg_iff, decide_eq_true_eq] at hwf
    obtain ⟨⟨-, hk⟩, hvs⟩ := hwf
    refine decode_streamCells_short hk hvs ?_
    simp only [List.length_append, encode_cells_length, Encode.u8, List.length_cons, List.length_nil] at hn
    omega
  | ident | copyActive | commitMap | restart =>
    cases h
    exact absurd hn (Nat.not_lt_zero n)
  | _ =>
    cases h <;> simp only [Encode.u8, Encode.u16, Encode.half, Encode.sid, List.cons_append, List.nil_append,
      List.length_cons, List.length_nil] at hn ⊢
    all_goals
      generalize hxs : List.take n _ = xs
      have hlen := congrArg List.length hxs
      simp only [List.length_take, List.length_cons, List.length_nil] at hlen
      simp only [Decode.command, BitVec.reduceToNat]
      split
      · simp only [List.length_cons] at hlen
        omega
      · rfl

end Sys2Proof.Machine
end

section
/-! The period timers of the sweeps (R52, R121) and the commands that write settings (R51, R106, R139, R140, R145): O30,
O34 and O43. -/

namespace Sys2Proof.Machine

/-! ### Expiries of the period timers -/

theorem exec_agingTimerExpiry {n : Nat} {s : State} (h : s.stt.agingTimer = some n) :
    exec .agingTimerExpiry s = .next (
      if s.stt.sweep = none then { s with stt := { s.stt with agingTimer := some s.stt.agingPeriod, sweep := some 0 } }
      else if s.stt.remembered = false then
        { s with stt := { s.stt with agingTimer := some s.stt.agingPeriod, remembered := true } }
      else raise 13 (.sweep .aging) (s.setStt { s.stt with
        agingTimer := some s.stt.agingPeriod
        stats := { s.stt.stats with agingOverruns := countUp s.stt.stats.agingOverruns 1 } })) := by
  show execAgingTimerExpiry s = _
  unfold execAgingTimerExpiry
  rw [h]
  rfl

theorem exec_reportPeriodExpiry {n : Nat} {s : State} (h : s.rcn.periodTimer = some n) :
    exec .reportPeriodExpiry s = .next (
      if s.rcn.sweep = none then
        { s with rcn := { s.rcn with periodTimer := some s.rcn.settings.reportPeriod, sweep := some 0 } }
      else if s.rcn.remembered = false then
        { s with rcn := { s.rcn with periodTimer := some s.rcn.settings.reportPeriod, remembered := true } }
      else raise 13 (.sweep .reefer) (s.setRcn { s.rcn with
        periodTimer := some s.rcn.settings.reportPeriod
        stats := { s.rcn.stats with sweepOverruns := countUp s.rcn.stats.sweepOverruns 1 } })) := by
  show execReportPeriodExpiry s = _
  unfold execReportPeriodExpiry
  rw [h]
  rfl

theorem ReportsOnly.rcn {s t : State} (h : ReportsOnly s t) : t.rcn = s.rcn := by rw [h]

/-- Settles O30: each case of an expiry, at the STT and at the RCN. -/
theorem periodTimersBeginSweeps : Obligations.PeriodTimersBeginSweeps := by
  refine ⟨fun n s htimer => ?_, fun n s htimer => ?_⟩
  · rw [exec_agingTimerExpiry htimer]
    refine ⟨fun hsweep => by rw [if_pos hsweep],
      fun hsweep hremembered => by rw [if_neg hsweep, if_pos hremembered], fun hsweep hremembered => ?_⟩
    rw [if_neg hsweep, if_neg (by rw [hremembered]; decide)]
    have raised := raise_eventRaised 13 (.sweep .aging) (s.setStt { s.stt with
      agingTimer := some s.stt.agingPeriod
      stats := { s.stt.stats with agingOverruns := countUp s.stt.stats.agingOverruns 1 } }) (by decide)
    refine ⟨_, rfl, raised.event, raised.frame.stt, ?_⟩
    rw [raised.frame.stt]
    exact raised.frame
  · rw [exec_reportPeriodExpiry htimer]
    refine ⟨fun hsweep => by rw [if_pos hsweep],
      fun hsweep hremembered => by rw [if_neg hsweep, if_pos hremembered], fun hsweep hremembered => ?_⟩
    rw [if_neg hsweep, if_neg (by rw [hremembered]; decide)]
    have raised := raise_eventRaised 13 (.sweep .reefer) (s.setRcn { s.rcn with
      periodTimer := some s.rcn.settings.reportPeriod
      stats := { s.rcn.stats with sweepOverruns := countUp s.rcn.stats.sweepOverruns 1 } }) (by decide)
    refine ⟨_, rfl, raised.event, raised.frame.rcn, ?_⟩
    rw [raised.frame.rcn]
    exact raised.frame

/-! ### Settings kept or written -/

theorem keepOr_zero_lo (mark hi old n : Nat) : keepOr mark 0 hi old n = if n = mark then old else min hi n := by
  simp [keepOr, clampTo]

/-- An argument is not clamped where it keeps the present value or lies in its range. -/
theorem clampsUnless_eq_false_iff {mark lo hi n : Nat} (h : lo ≤ hi) :
    clampsUnless mark lo hi n = false ↔ n = mark ∨ (lo ≤ n ∧ n ≤ hi) := by
  rw [clampsUnless, Bool.and_eq_false_iff, bne_eq_false_iff_eq, bne_eq_false_iff_eq, clampTo_eq_self_iff h]

theorem setStt_eq (s : State) (x : Stt) : s.setStt x = { s with stt := x } := rfl

/-- The effect of SET-LEARNING (R51). -/
theorem takeSetLearning_eq (m p c : Nat) (s : State) :
    takeSetLearning m p c s =
      ⟨if (m ≤ 7 ∨ m = 255) ∧ (p = 0 ∨ (10 ≤ p ∧ p ≤ 3600)) then .ok else .clamped,
        learningBytes { s.stt with
          margin := if m = 255 then s.stt.margin else min 7 m
          agingPeriod := if p = 0 then s.stt.agingPeriod else max 10 (min 3600 p) },
        { s with stt := { s.stt with
          margin := if m = 255 then s.stt.margin else min 7 m
          agingPeriod := if p = 0 then s.stt.agingPeriod else max 10 (min 3600 p)
          stats := if c = 0 then s.stt.stats else ⟨0, 0, 0, 0, 0, 0, 0, 0⟩ } }⟩ := by
  have kept : (clampsUnless 255 0 7 m || clampsUnless 0 10 3600 p) = false ↔
      (m ≤ 7 ∨ m = 255) ∧ (p = 0 ∨ (10 ≤ p ∧ p ≤ 3600)) := by
    rw [Bool.or_eq_false_iff, clampsUnless_eq_false_iff (by decide), clampsUnless_eq_false_iff (by decide)]
    omega
  rw [takeSetLearning, taken_eq_ite kept, keepOr_zero_lo]
  by_cases hc : c = 0 <;> simp [hc, flagSet, SttStats.zero, keepOr, clampTo, setStt_eq]

theorem flagOfCode_none {n : Nat} (present : Bool) (h : 1 < n ∧ n ≠ 255) : flagOfCode n present = none := by
  rw [flagOfCode, if_neg (by omega), if_neg (by omega), if_neg h.2]

theorem flagOfCode_some {n : Nat} {present x : Bool} (h : n = 0 ∧ x = false ∨ n = 1 ∧ x = true ∨ n = 255 ∧ x = present) :
    flagOfCode n present = some x := by
  obtain ⟨rfl, rfl⟩ | ⟨rfl, rfl⟩ | ⟨rfl, rfl⟩ := h <;> rfl

theorem domainOfCode_none {n : Nat} (present : Fin 8) (h : 7 < n ∧ n ≠ 255) : domainOfCode n present = none := by
  rw [domainOfCode, dif_neg (by omega), if_neg h.2]

theorem domainOfCode_some {n : Nat} {present d : Fin 8} (h : n = d.val ∨ n = 255 ∧ d = present) :
    domainOfCode n present = some d := by
  obtain rfl | ⟨rfl, rfl⟩ := h
  · exact dif_pos d.isLt
  · rfl

/-- Settles O34. -/
theorem settingsCommandsWriteTheSettings : Obligations.SettingsCommandsWriteTheSettings := by
  refine ⟨fun m p c s e hs => exec_of_awaits hs rfl (takeSetLearning_eq m p c s), ?_⟩
  intro th ab sm bp rp rt dom c s e i hs
  refine ⟨fun hcode => ?_, fun retire d hrt hdom => ?_⟩
  · refine exec_of_awaits hs rfl ?_
    unfold takeSetReefer
    dsimp only
    obtain hrt | hdom := hcode
    · rw [flagOfCode_none _ hrt]
      rfl
    · rw [domainOfCode_none _ hdom]
      cases flagOfCode rt s.rcn.settings.retire <;> rfl
  · refine exec_of_awaits hs rfl ?_
    have kept : reeferClamped th ab sm bp rp = false ↔
        th ≤ 50 ∧ ab ≤ 8 ∧ sm ≤ 8 ∧ bp ≤ 60 ∧ (rp = 0 ∨ (10 ≤ rp ∧ rp ≤ 600)) := by
      simp only [reeferClamped, Bool.or_eq_false_iff, clampsUnless_eq_false_iff, Nat.reduceLeDiff]
      omega
    unfold takeSetReefer
    dsimp only
    rw [flagOfCode_some hrt, domainOfCode_some hdom]
    dsimp only
    rw [taken_eq_ite kept]
    by_cases hc : c = 0 <;>
      simp [flagSet, hc, keepOr, clampTo, reeferSettingsBytes, RcnSettings.bytes, RcnStats.bytes, RcnStats.zero,
        State.setRcn]

/-! ### SET-QUEUE, SET-SCHED and SET-RESERVE -/

theorem portOfCode_none {n : Nat} (h : 13 < n) : portOfCode n = none := dif_neg (by omega)

@[simp] theorem portOfCode_val (p : Port) : portOfCode p.val = some p := dif_pos p.isLt

theorem queueOfCode_none {n : Nat} (h : 3 < n) : queueOfCode n = none := by
  unfold queueOfCode
  split
  · exact absurd h (by decide)
  · exact absurd h (by decide)
  · exact absurd h (by decide)
  · exact absurd h (by decide)
  · rfl

@[simp] theorem queueOfCode_code (cls : QClass) : queueOfCode cls.code = some cls := by cases cls <;> rfl

/-- The effect of SET-SCHED (R145). -/
theorem takeSetSched_eq (p : Port) (b d : Nat) (s : State) :
    takeSetSched p.val b d s =
      ⟨if b ≤ 15 ∧ d ≤ 15 then .ok else .clamped,
        schedBytes { s.queues p with
          weightB := if b = 0 then (s.queues p).weightB else min 15 b
          weightD := if d = 0 then (s.queues p).weightD else min 15 d },
        s.setQueues p { s.queues p with
          weightB := if b = 0 then (s.queues p).weightB else min 15 b
          weightD := if d = 0 then (s.queues p).weightD else min 15 d }⟩ := by
  have kept : (clampsUnless 0 1 15 b || clampsUnless 0 1 15 d) = false ↔ b ≤ 15 ∧ d ≤ 15 := by
    rw [Bool.or_eq_false_iff, clampsUnless_eq_false_iff (by decide), clampsUnless_eq_false_iff (by decide)]
    omega
  have weight (old n : Nat) : keepOr 0 1 15 old n = if n = 0 then old else min 15 n := by
    unfold keepOr clampTo
    split
    · rfl
    · omega
  unfold takeSetSched
  rw [portOfCode_val]
  dsimp only
  rw [taken_eq_ite kept, weight, weight]

/-- The effect of SET-QUEUE (R140). -/
theorem takeSetQueue_eq (p : Port) (cls : QClass) (limit : Nat) (s : State) :
    takeSetQueue p.val cls.code limit s =
      ⟨if limit ≤ 4096 ∨ limit = 65535 then .ok else .clamped,
        queueBytes { (s.queues p).get cls with
          limit := if limit = 65535 then ((s.queues p).get cls).limit else min 4096 limit } (s.queues p).sending,
        s.setQueues p ((s.queues p).set cls { (s.queues p).get cls with
          limit := if limit = 65535 then ((s.queues p).get cls).limit else min 4096 limit })⟩ := by
  have kept : clampsUnless 65535 0 4096 limit = false ↔ limit ≤ 4096 ∨ limit = 65535 := by
    rw [clampsUnless_eq_false_iff (by decide)]
    omega
  unfold takeSetQueue
  rw [portOfCode_val, queueOfCode_code]
  dsimp only
  rw [taken_eq_ite kept, keepOr_zero_lo]

/-- SET-RESERVE presents POOL-LOW over the reserve as written (R139). -/
theorem takeSetReserve_presents (n c : Nat) (s : State) :
    ∃ u, takeSetReserve n c s =
      ⟨if n ≤ 1024 then .ok else .clamped,
        be2 (min 1024 n) ++ be2 s.fsq.free ++ be2 s.fsq.store.length ++ flagByte (decide (s.fsq.free < min 1024 n)) ++
          be4 s.fsq.overBurst, u⟩ ∧
      u.fsq = { s.fsq with reserve := min 1024 n, overBurst := if c = 0 then s.fsq.overBurst else 0 } ∧
      (u.source 20).pending = decide (s.fsq.free < min 1024 n) ∧ ReportsOnly { s with fsq := u.fsq } u := by
  have kept : (min 1024 n != n) = false ↔ n ≤ 1024 := by
    rw [bne_eq_false_iff_eq]
    omega
  generalize hx : ({ s.fsq with reserve := min 1024 n, overBurst := if c = 0 then s.fsq.overBurst else 0 } : Fsq) = x
  have reports := present_reportsOnly 20 (poolLow (s.setFsq x)) (s.setFsq x)
  have hfsq : (presentPoolLow (s.setFsq x)).fsq = x := reports.agrees.same .fsq (by decide)
  refine ⟨presentPoolLow (s.setFsq x), ?_, hfsq, ?_, ?_⟩
  · have written : (if flagSet c then (s.setFsq { s.fsq with reserve := min 1024 n }).setFsq
        { s.fsq with reserve := min 1024 n, overBurst := 0 } else s.setFsq { s.fsq with reserve := min 1024 n }) =
        s.setFsq x := by
      by_cases hc : c = 0 <;> simp [flagSet, hc, ← hx, State.setFsq]
    unfold takeSetReserve
    dsimp only
    rw [taken_eq_ite kept, ← written]
    rfl
  · refine (present_pending (k := 20) _ _ (by decide)).trans ?_
    rw [← hx]
    rfl
  · rw [hfsq]
    exact reports

/-- Settles O43. -/
theorem queueSettingsCommands : Obligations.QueueSettingsCommands := by
  refine ⟨fun n c limit s e hs => ⟨fun hcode => ?_, ?_⟩, fun n b d s e hs => ⟨fun hcode => ?_, ?_⟩, fun n c s e hs => ?_⟩
  · refine exec_of_awaits hs rfl ?_
    unfold takeSetQueue
    obtain hport | hqueue := hcode
    · rw [portOfCode_none hport]
      rfl
    · rw [queueOfCode_none hqueue]
      cases portOfCode n <;> rfl
  · rintro p cls rfl rfl
    refine exec_of_awaits hs rfl ((takeSetQueue_eq p cls limit s).trans ?_)
    rw [queueBytes]
    cases (s.queues p).sending <;> rfl
  · refine exec_of_awaits hs rfl ?_
    unfold takeSetSched
    rw [portOfCode_none hcode]
    rfl
  · rintro p rfl
    exact exec_of_awaits hs rfl (takeSetSched_eq p b d s)
  · obtain ⟨u, htaken, hfsq, hpending, hreports⟩ := takeSetReserve_presents n c s
    exact ⟨u, exec_of_awaits hs rfl htaken, hfsq, hpending, hreports⟩

end Sys2Proof.Machine
end

section
/-! The commands of the part's identity, its ports and its identity and domain records, and the seconds counter (R21, R23,
R25, R32, R35 to R37, R175, R176): O49 and O50. -/

namespace Sys2Proof.Machine

/-! ### Codes and bytes of the identity records -/

theorem encodeHalf_eq_be2 (h : Half) : Encode.half h = be2 h.toNat := by
  rw [Encode.half, be2]
  congr 1
  apply BitVec.eq_of_toNat_eq
  simp [Nat.shiftRight_eq_div_pow]

theorem macBytes_partAddress : ∀ a : Fin 16,
    macBytes (partAddress a) = [0x02, 0x4B, 0x51, 0x30, 0x00, BitVec.ofNat 8 a.val] := by decide

theorem optionsOfCode_eq (o : Nat) : optionsOfCode o = ⟨o % 2 == 1, o / 2 % 2 == 1, o / 4 % 2 == 1⟩ := by
  simp only [optionsOfCode, Nat.testBit_eq_decide_div_mod_eq]
  simp only [Nat.pow_zero, Nat.div_one, Nat.pow_one, Nat.reducePow]
  rfl

theorem optionsCode_optionsOfCode (o : Nat) : optionsCode (optionsOfCode o) = o % 8 := by
  rw [optionsOfCode_eq, optionsCode]
  simp only [beq_iff_eq]
  split <;> split <;> split <;> omega

theorem modeOfCode_none {n : Nat} (present : Mode) (h : 2 < n ∧ n ≠ 255) : modeOfCode n present = none := by
  rw [modeOfCode, if_neg (by omega), if_neg (by omega), if_neg (by omega), if_neg h.2]

theorem modeOfCode_some {n : Nat} (present : Mode) (h : n ≤ 2 ∨ n = 255) :
    modeOfCode n present =
      some (if n = 0 then .full else if n = 1 then .craneOnly else if n = 2 then .disabled else present) := by
  unfold modeOfCode
  split_ifs with h0 h1 h2 h255
  · rfl
  · rfl
  · rfl
  · rfl
  · omega

theorem flagOfCode_ite {n : Nat} (present : Bool) (h : n ≤ 1 ∨ n = 255) :
    flagOfCode n present = some (if n = 0 then false else if n = 1 then true else present) := by
  unfold flagOfCode
  split_ifs with h0 h1 h255
  · rfl
  · rfl
  · rfl
  · omega

/-! ### SET-PORT -/

/-- SET-PORT of a code outside its lists, and CRANE-ONLY on a trunk port, are refused (R23). -/
theorem takeSetPort_refuses {n m q o : Nat} (s : State)
    (h : 13 < n ∨ (2 < m ∧ m ≠ 255) ∨ (1 < q ∧ q ≠ 255) ∨ (m = 1 ∧ 12 ≤ n)) :
    takeSetPort n m q o s = refuse .badArgument s := by
  unfold takeSetPort
  by_cases hn : n < 14
  · have hport : portOfCode n = some ⟨n, hn⟩ := dif_pos hn
    rw [hport]
    dsimp only
    obtain hbad | hbad | hbad | ⟨hmode, htrunk⟩ := h
    · omega
    · rw [modeOfCode_none _ hbad]
    · rw [flagOfCode_none _ hbad]
      cases modeOfCode m (s.port ⟨n, hn⟩).mode <;> rfl
    · cases modeOfCode m (s.port ⟨n, hn⟩).mode with
      | none => rfl
      | some mode =>
        cases flagOfCode q (s.port ⟨n, hn⟩).permitted with
        | none => rfl
        | some permitted => exact if_pos ⟨hmode, decide_eq_false (by simpa using htrunk)⟩
  · rw [portOfCode_none (by omega)]

/-- SET-PORT writes what is not kept, over a change of the port's record (R21, R23). -/
theorem takeSetPort_writes {m q : Nat} (o : Nat) (p : Port) (s : State) (hm : m ≤ 2 ∨ m = 255) (hq : q ≤ 1 ∨ q = 255)
    (hquay : m = 1 → p.val < 12) {r : PortRec}
    (hr : r = { s.port p with
      mode := if m = 0 then .full else if m = 1 then .craneOnly else if m = 2 then .disabled else (s.port p).mode
      permitted := if q = 0 then false else if q = 1 then true else (s.port p).permitted
      overhead := if o = 255 then (s.port p).overhead else min 63 o }) :
    takeSetPort p.val m q o s =
      ⟨if o ≤ 63 ∨ o = 255 then .ok else .clamped, portBytes ((changePort p r .serviceMode s).port p),
        changePort p r .serviceMode s⟩ := by
  have kept : clampsUnless 255 0 63 o = false ↔ o ≤ 63 ∨ o = 255 := by
    rw [clampsUnless_eq_false_iff (by decide)]
    omega
  unfold takeSetPort
  rw [portOfCode_val]
  dsimp only
  rw [modeOfCode_some _ hm, flagOfCode_ite _ hq]
  dsimp only
  rw [if_neg (fun h => absurd h.2 (by simpa [Port.isQuay] using hquay h.1)), taken_eq_ite kept, keepOr_zero_lo, hr]

/-- Settles O49. -/
theorem identityPortsAndSeconds : Obligations.IdentityPortsAndSeconds := by
  refine ⟨fun g b m v s e hs hg => ?_, ⟨fun s e hs => ?_, fun x s e hs => ⟨fun hx => ?_, fun hx => ?_⟩, ?_⟩, ?_⟩
  · exact exec_of_awaits hs rfl (dif_neg (by omega))
  · refine exec_of_awaits hs rfl ?_
    rw [takeIdent, identBytes, macBytes_partAddress]
    rfl
  · exact exec_of_awaits hs rfl (if_pos hx)
  · exact exec_of_awaits hs rfl (if_neg hx)
  · refine fun n m q o s e hs => ⟨fun hbad => exec_of_awaits hs rfl (takeSetPort_refuses s hbad), ?_⟩
    rintro p rfl hm hq hquay r r'
    obtain ⟨hports, hannounced, hframe⟩ := changePort_announces p r' .serviceMode s
    have hport : (changePort p r' .serviceMode s).port p = r' := by
      rw [State.port, hports, vset_get_self]
    have htaken := takeSetPort_writes o p s hm hq hquay (r := r') rfl
    rw [hport] at htaken
    exact ⟨_, exec_of_awaits hs rfl htaken, hports, hannounced, hframe⟩
  · refine fun s => ⟨fun hpart hs => ?_, fun hpart => ?_, fun hpart hs => ?_⟩
    · show execSecondsCounterTick s = _
      rw [execSecondsCounterTick, if_neg hpart, if_pos (show s.seconds < Config.max32 from hs)]
    · show execSecondsCounterTick s = _
      rw [execSecondsCounterTick, if_pos hpart]
    · refine ⟨{ s with
        seconds := Config.secondsAfterMax s.freeUse % (Config.max32 + 1), freeUse := s.freeUse + 1 }, ?_, ?_, rfl⟩
      · show execSecondsCounterTick s = _
        rw [execSecondsCounterTick, if_neg hpart, if_neg (show ¬ s.seconds < Config.max32 from Nat.not_lt.2 hs)]
      · exact Nat.lt_succ_iff.1 (Nat.mod_lt _ (by decide))

/-! ### The records of groups, classes and domains -/

theorem flagByte_code (n : Nat) (h : n ≤ 1) : be1 (trunkOfCode n).code = be1 n := by
  obtain rfl | rfl : n = 0 ∨ n = 1 := by omega
  · rfl
  · rfl

theorem dataQueue_code (n : Nat) (h : n ≤ 1) :
    (if (if n = 0 then DataQueue.d else .b) = .d then 0 else 1) = n := by
  obtain rfl | rfl : n = 0 ∨ n = 1 := by omega
  · rfl
  · rfl

/-- SET-CLASS writes one class (R35). -/
theorem takeSetClass_eq {g c : Nat} (hg : g < 4) (hc : c < 4) (b m : Half) (v : Nat) (n : Fin 8) (o : Nat) (s : State) :
    takeSetClass g c b m v n.val o s =
      ⟨if o < 8 then .ok else .clamped,
        be2 b.toNat ++ be2 m.toNat ++ flagByte (v != 0) ++ be1 n.val ++ be1 (o % 8),
        { s with idc := { s.idc with
          classes := vset s.idc.classes (classIndex g c hg hc)
            ⟨b, m, v != 0, n, ⟨o % 2 == 1, o / 2 % 2 == 1, o / 4 % 2 == 1⟩⟩ } }⟩ := by
  have kept : decide (7 < o) = false ↔ o < 8 := by
    rw [decide_eq_false_iff_not]
    omega
  rw [takeSetClass, dif_pos ⟨hg, hc, n.isLt⟩]
  dsimp only
  rw [taken_eq_ite kept, classBytes, optionsCode_optionsOfCode, encodeHalf_eq_be2, encodeHalf_eq_be2, optionsOfCode_eq]
  rfl

/-- SET-DOMAIN writes one domain (R37). -/
theorem takeSetDomain_eq (k : Fin 8) (en tr : Nat) (f : Half) (q : Nat) (htr : tr ≤ 1) (hq : q ≤ 1) (s : State) :
    takeSetDomain k.val en tr f q s =
      ⟨if f.toNat < 4096 then .ok else .clamped,
        flagByte (en != 0) ++ be1 tr ++ be2 (f.toNat % 4096) ++ be1 q,
        { s with idc := { s.idc with
          domains := vset s.idc.domains k
            ⟨en != 0, if tr = 0 then .t0 else .t1, f.setWidth 12, if q = 0 then .d else .b⟩ } }⟩ := by
  have kept : decide (4096 ≤ f.toNat) = false ↔ f.toNat < 4096 := by
    rw [decide_eq_false_iff_not]
    omega
  rw [takeSetDomain, dif_pos k.isLt, if_neg (by omega)]
  dsimp only
  rw [taken_eq_ite kept, domainBytes]
  dsimp only
  rw [flagByte_code tr htr, dataQueue_code q hq, BitVec.toNat_setWidth]
  rfl

theorem classIndex_eq {g c : Nat} (hg : g < 4) (hc : c < 4) {k : Fin 16} (hk : k.val = 4 * g + c) :
    classIndex g c hg hc = k := by
  apply Fin.ext
  rw [hk]
  show g * 4 + c = 4 * g + c
  omega

/-- Settles O50. -/
theorem identityRecordCommands : Obligations.IdentityRecordCommands := by
  refine ⟨fun g b m v s e hs k hk => ?_, fun g c b m v d o s e hs => ⟨fun hbad => ?_, fun k n hg hc hk hn => ?_⟩,
    fun g c s e hs => ⟨fun hbad => ?_, fun j k hj hc hk => ?_⟩,
    fun d en tr f q s e hs => ⟨fun hbad => ?_, fun k hk htr hq => ?_⟩,
    fun d s e hs => ⟨fun hbad => ?_, fun k hk => ?_⟩⟩
  · subst hk
    refine exec_of_awaits hs rfl ?_
    rw [takeSetGroup, dif_pos k.isLt]
    dsimp only
    rw [groupBytes, encodeHalf_eq_be2, encodeHalf_eq_be2]
    rfl
  · exact exec_of_awaits hs rfl (dif_neg (by omega))
  · subst hn
    have taken := takeSetClass_eq (Nat.lt_succ_of_le hg) (Nat.lt_succ_of_le hc) b m v n o s
    rw [classIndex_eq _ _ hk] at taken
    exact exec_of_awaits hs rfl taken
  · exact exec_of_awaits hs rfl (dif_neg (by omega))
  · subst hj
    refine exec_of_awaits hs rfl ?_
    rw [takeReadClass, dif_pos ⟨j.isLt, by omega⟩, classIndex_eq _ _ hk, groupBytes, classBytes]
    simp only [encodeHalf_eq_be2]
    rfl
  · refine exec_of_awaits hs rfl ?_
    unfold takeSetDomain
    split
    · exact if_pos (by omega)
    · rfl
  · subst hk
    exact exec_of_awaits hs rfl (takeSetDomain_eq k en tr f q htr hq s)
  · exact exec_of_awaits hs rfl (dif_neg (by omega))
  · subst hk
    refine exec_of_awaits hs rfl ?_
    rw [takeReadDomain, dif_pos k.isLt]
    rfl

end Sys2Proof.Machine
end

section
/-! The commands of the station table and of the reefer table that read, list, write and remove records (R44 to R46, R118
to R120, R171): O32, O33 and O37. -/

namespace Sys2Proof.Machine

/-! ### Records of stations -/

theorem quayOfCode_none {n : Nat} (h : 11 < n) : quayOfCode n = none := dif_neg (by omega)

@[simp] theorem quayOfCode_val (q : QPort) : quayOfCode q.val = some q := dif_pos q.isLt

/-- The static records replaced, and the dynamic record of a SID then removed (R44, R47). -/
theorem removeDynamicOf_setStatics (sid : Sid) (x : Table StaticRec) (s : State) {u : State}
    (hu : u = removeDynamicOf sid (s.setStt { s.stt with statics := x })) :
    u.stt = { s.stt with
      statics := x
      dynamics := match findDynamic s sid with
        | some (d, _) => Table.erase s.stt.dynamics d
        | none => s.stt.dynamics } ∧
    (StationFullPresented s ∨ findDynamic s sid ≠ none → StationFullPresented u) ∧
    (findDynamic s sid = none → u = { s with stt := u.stt }) ∧ ReportsOnly { s with stt := u.stt } u := by
  generalize hy : ({ s.stt with statics := x } : Stt) = y at hu
  have hfind : findDynamic (s.setStt y) sid = findDynamic s sid := by rw [← hy]; rfl
  have hfull : StationFullPresented (s.setStt y) = StationFullPresented s := by rw [← hy]; rfl
  obtain ⟨hstt, hpresented, hsame, hframe⟩ := removeDynamicOf_stt sid (s.setStt y)
  rw [hfind, hfull, ← hu] at *
  refine ⟨?_, hpresented, fun h => by rw [hsame h]; rfl, hframe⟩
  rw [hstt, ← hy]
  rfl

/-- A static record, by what its command finds. -/
theorem takeSetStation_writes {sid : Sid} {q : QPort} {s : State} {k : Nat}
    (h : (findStatic s sid = none ∧ Table.lowestFree s.stt.statics 64 = some k) ∨
      (∃ x q', findStatic s sid = some (k, ⟨x, .static q'⟩))) :
    takeSetStation sid q.val s = writeStatic sid q k s := by
  unfold takeSetStation
  rw [quayOfCode_val]
  obtain ⟨hfind, hfree⟩ | ⟨x, q', hfind⟩ := h
  · simp only [hfind, Config.staticPlaces, hfree]
  · simp only [hfind]

theorem takeSetStation_conflict {sid : Sid} {q : QPort} {s : State} {k : Nat} {x : Sid} {l : LinkNo}
    (h : findStatic s sid = some (k, ⟨x, .crane l⟩)) : takeSetStation sid q.val s = refuse .conflict s := by
  simp only [takeSetStation, quayOfCode_val, h]

theorem takeSetStation_full {sid : Sid} {q : QPort} {s : State} (h : findStatic s sid = none)
    (hfree : Table.lowestFree s.stt.statics 64 = none) : takeSetStation sid q.val s = refuse .tableFull s := by
  simp only [takeSetStation, quayOfCode_val, h, Config.staticPlaces, hfree]

/-- Settles O32: each command, by the record that it finds. -/
theorem stationCommandsWriteAndRead : Obligations.StationCommandsWriteAndRead := by
  refine fun sid s e => ⟨fun n hs => ⟨fun hn => exec_of_awaits hs rfl ?_, ?_⟩, fun hs => ?_, fun hs => ?_⟩
  · unfold takeSetStation
    rw [quayOfCode_none hn]
    rfl
  · rintro q rfl
    refine ⟨fun k x l h => exec_of_awaits hs rfl (takeSetStation_conflict h),
      fun h hfree => exec_of_awaits hs rfl (takeSetStation_full h hfree), fun k h => ?_⟩
    obtain ⟨hstt, hpresented, hsame, hframe⟩ :=
      removeDynamicOf_setStatics sid (Table.put s.stt.statics k ⟨sid, .static q⟩) s rfl
    exact ⟨_, exec_of_awaits hs rfl (takeSetStation_writes h), hstt, hpresented, hsame, hframe⟩
  · refine ⟨fun k x l h => exec_of_awaits hs rfl ?_, fun h hd => exec_of_awaits hs rfl ?_,
      fun k x q h => exec_of_awaits hs rfl ?_, fun k r h hd => ?_⟩
    · simp only [takeClearStation, h]
      rfl
    · simp only [takeClearStation, h, hd]
      rfl
    · simp only [takeClearStation, h]
      rfl
    · have removed := presentStationFull_tablePresented { s.stt with dynamics := Table.erase s.stt.dynamics k } s
      refine ⟨removeDynamic k s, exec_of_awaits hs rfl ?_, ?_, removed.presented, ?_⟩
      · simp only [takeClearStation, h, hd]
        rfl
      · simp only [hd]
        exact removed.stt
      · rw [show (removeDynamic k s).stt = _ from removed.stt]
        exact removed.frame
  · refine ⟨fun k x q h => exec_of_awaits hs rfl ?_, fun k x l h => exec_of_awaits hs rfl ?_,
      fun k r h hd => exec_of_awaits hs rfl ?_, fun h hd => exec_of_awaits hs rfl ?_⟩
    · simp only [takeReadStation, h]
      rfl
    · simp only [takeReadStation, h]
      rfl
    · simp only [takeReadStation, h, hd]
      rfl
    · simp only [takeReadStation, h, hd]
      rfl

/-! ### What fits in the room of a reply -/

theorem fitCount_le_length (room : Nat) (xs : List (List Byte)) : fitCount room xs ≤ xs.length := by
  induction xs generalizing room with
  | nil => exact Nat.le_refl 0
  | cons x xs ih =>
    rw [fitCount, List.length_cons]
    split
    · exact Nat.succ_le_succ (ih _)
    · exact Nat.zero_le _

/-- The items counted fit in the room (R171). -/
theorem fitCount_fits (room : Nat) (xs : List (List Byte)) :
    ((xs.take (fitCount room xs)).map List.length).sum ≤ room := by
  induction xs generalizing room with
  | nil => exact Nat.zero_le _
  | cons x xs ih =>
    rw [fitCount]
    split
    · have rest := ih (room - x.length)
      rw [List.take_succ_cons, List.map_cons, List.sum_cons]
      omega
    · exact Nat.zero_le _

/-- One item more than those counted does not fit (R171). -/
theorem fitCount_maximal (room : Nat) (xs : List (List Byte)) (h : fitCount room xs < xs.length) :
    room < ((xs.take (fitCount room xs + 1)).map List.length).sum := by
  induction xs generalizing room with
  | nil => exact absurd h (Nat.not_lt_zero _)
  | cons x xs ih =>
    by_cases hx : x.length ≤ room
    · rw [fitCount, if_pos hx, List.length_cons] at h
      have rest := ih (room - x.length) (by omega)
      rw [fitCount, if_pos hx, List.take_succ_cons, List.map_cons, List.sum_cons]
      omega
    · rw [fitCount, if_neg hx, List.take_succ_cons, List.map_cons, List.sum_cons]
      omega

/-- A list in a result holds as many whole records as fit beside its three numbers (R46, R119; log 13). -/
theorem listResult_gives (items : List (Nat × List Byte)) (start size : Nat) {room : Nat} (s : State) (h : 6 ≤ room) :
    ∃ n, n ≤ items.length ∧ ((items.take n).map (fun x => x.2.length)).sum + 6 ≤ room ∧
      (n < items.length → room < ((items.take (n + 1)).map (fun x => x.2.length)).sum + 6) ∧
      listResult items start size room s =
        ⟨if n = items.length then .ok else .partialFit,
          be2 n ++ (items.take n).flatMap (·.2) ++ be2 n ++
            be2 (if n = items.length then size
              else ((items.take n).getLast?.map (fun x => x.1 + 1)).getD start), s⟩ := by
  have lengths (n : Nat) : (((items.map Prod.snd).take n).map List.length).sum =
      ((items.take n).map (fun x => x.2.length)).sum := by
    rw [← List.map_take, List.map_map]
    rfl
  have hle := fitCount_le_length (room - 6) (items.map Prod.snd)
  have hfits := fitCount_fits (room - 6) (items.map Prod.snd)
  have hmax := fitCount_maximal (room - 6) (items.map Prod.snd)
  rw [lengths] at hfits
  rw [lengths] at hmax
  rw [List.length_map] at hle hmax
  generalize hn : fitCount (room - 6) (items.map Prod.snd) = n at hle hfits hmax
  have bytes : listBytes ((items.take n).map Prod.snd) = be2 n ++ (items.take n).flatMap (·.2) := by
    rw [listBytes, List.length_map, List.length_take, Nat.min_eq_left hle, List.flatMap_def]
  refine ⟨n, hle, by omega, fun h => by have := hmax h; omega, ?_⟩
  rw [listResult, if_neg (Nat.not_lt.2 h)]
  dsimp only
  rw [hn, bytes]
  split
  · rfl
  · cases (items.take n).getLast? <;> rfl

theorem exec_of_awaits_room {i : Instr} {run : Nat → State → Taken} {s t : State} {e : Execution} {st : Status}
    {result : List Byte} (h : Awaits s e i) (hexec : exec i s = .next (takeCommand i run s))
    (hrun : run e.room s = ⟨st, result, t⟩) : exec i s = .next (completeCommand false e st result t) := by
  rw [hexec, takeCommand_of_awaits h, hrun]

/-- The state filters of LIST-REEFERS (R119). -/
theorem filterAdmits_eq {c : Nat} (h : c ≤ 5) (r : Reefer) :
    filterAdmits c r = (c == 0 || (c == 1 && r.state == .reporting) || (c == 2 && r.state == .overdue) ||
      (c == 3 && r.state == .silent) || (c == 4 && (r.state == .overdue || r.state == .silent)) ||
      (c == 5 && r.readings.alarms != [])) := by
  obtain rfl | rfl | rfl | rfl | rfl | rfl : c = 0 ∨ c = 1 ∨ c = 2 ∨ c = 3 ∨ c = 4 ∨ c = 5 := by omega
  · simp [filterAdmits]
  · simp [filterAdmits]
  · simp [filterAdmits]
  · simp [filterAdmits]
  · simp [filterAdmits]
  · cases hr : r.readings.alarms <;> simp [filterAdmits, hr]

/-- Settles O33: the lists of the three collections are results of `listResult`. -/
theorem listCommandsReturnWholeRecords : Obligations.ListCommandsReturnWholeRecords := by
  intro s e hroom
  refine ⟨fun start hs => ⟨fun h => ?_, fun h => ?_⟩, fun start hs => ⟨fun h => ?_, fun h => ?_⟩,
    fun c start hc hs => ?_, fun start c hs => ⟨fun h => ?_, fun h hc => ?_⟩⟩
  · exact exec_of_awaits_room hs rfl (if_pos h)
  · obtain ⟨n, hle, hfits, hmax, hlist⟩ := listResult_gives
      ((s.stt.statics.filter (fun x => decide (start ≤ x.1))).map (fun x => (x.1, staticBytes s x.1 x.2))) start 64 s hroom
    exact ⟨n, hle, hfits, hmax, exec_of_awaits_room hs rfl ((if_neg (Nat.not_le.2 h)).trans hlist)⟩
  · exact exec_of_awaits_room hs rfl (if_pos h)
  · obtain ⟨n, hle, hfits, hmax, hlist⟩ := listResult_gives
      ((s.stt.dynamics.filter (fun x => decide (start ≤ x.1))).map (fun x => (x.1, dynamicBytes x.1 x.2)))
      start 2048 s hroom
    exact ⟨n, hle, hfits, hmax, exec_of_awaits_room hs rfl ((if_neg (Nat.not_le.2 h)).trans hlist)⟩
  · exact exec_of_awaits_room hs rfl ((if_neg (by omega)).trans (if_neg (by omega)))
  · exact exec_of_awaits_room hs rfl (if_pos h)
  · have filtered : (fun x : Nat × Reefer => decide (start ≤ x.1) && filterAdmits c x.2) = fun x =>
        decide (start ≤ x.1) && (c == 0 || (c == 1 && x.2.state == .reporting) || (c == 2 && x.2.state == .overdue) ||
          (c == 3 && x.2.state == .silent) || (c == 4 && (x.2.state == .overdue || x.2.state == .silent)) ||
          (c == 5 && x.2.readings.alarms != [])) := funext fun x => by rw [filterAdmits_eq hc]
    obtain ⟨n, hle, hfits, hmax, hlist⟩ := listResult_gives
      ((s.rcn.reefers.filter (fun x => decide (start ≤ x.1) && filterAdmits c x.2)).map
        (fun x => (x.1, reeferShortBytes s x.1 x.2))) start 4096 s hroom
    rw [filtered] at hle hfits hmax
    refine ⟨n, hle, hfits, hmax, exec_of_awaits_room hs rfl ?_⟩
    refine (if_neg (show ¬ (Config.reeferPlaces ≤ start ∨ 5 < c) from ?_)).trans (hlist.trans ?_)
    · rw [show Config.reeferPlaces = 4096 from rfl]
      omega
    · rw [filtered]

/-! ### Records of reefers -/

theorem flatten_map_singleton (xs : List Byte) : (xs.map fun c => [c]).flatten = xs := by
  rw [← List.flatMap_def]
  exact List.flatMap_singleton' xs

theorem takeForgetReefer_of_none {sid : Sid} {s : State} (h : findReefer s sid = none) :
    takeForgetReefer sid s = refuse .notFound s := by
  simp only [takeForgetReefer, h]

theorem Rcn.setFilling_stats (r : Rcn) (b : Buffer) : (r.setFilling b).stats = r.stats := by
  unfold Rcn.setFilling
  split <;> rfl

/-- Marking a forgotten record's entry changes that entry alone, and nothing where the record has none (R120). -/
theorem Rcn.markForgotten_result (r : Rcn) (place : BatchPlace) :
    (r.markForgotten place).reefers = r.reefers ∧ (r.markForgotten place).stats = r.stats ∧
      (∀ i, place = .inFilling i →
        (r.markForgotten place).filling.entries = r.filling.entries.modify i (fun v => { v with state := .retired })) ∧
      ((∀ i, place ≠ .inFilling i) → r.markForgotten place = r) := by
  cases place with
  | none => exact ⟨rfl, rfl, fun _ h => (nomatch h), fun _ => rfl⟩
  | unsent => exact ⟨rfl, rfl, fun _ h => (nomatch h), fun _ => rfl⟩
  | inFilling j =>
    refine ⟨Rcn.setFilling_reefers .., Rcn.setFilling_stats .., fun i h => ?_, fun h => absurd rfl (h j)⟩
    obtain rfl := BatchPlace.inFilling.inj h
    exact congrArg Buffer.entries (Rcn.setFilling_filling r _)

/-- A record removed leaves REEFER-FULL presented, and nothing else changed but its reports (R120). -/
theorem removeReefer_presented (k : Nat) (s : State) :
    (removeReefer k s).rcn = { s.rcn with reefers := Table.erase s.rcn.reefers k } ∧
      ((removeReefer k s).source 11).pending = reeferFull (removeReefer k s) ∧
      ReportsOnly { s with rcn := (removeReefer k s).rcn } (removeReefer k s) := by
  have frame := present_reportsOnly 11 (reeferFull (s.setRcn { s.rcn with reefers := Table.erase s.rcn.reefers k }))
    (s.setRcn { s.rcn with reefers := Table.erase s.rcn.reefers k })
  have hrcn : (removeReefer k s).rcn = { s.rcn with reefers := Table.erase s.rcn.reefers k } := frame.rcn
  refine ⟨hrcn, ?_, ?_⟩
  · refine (present_pending (k := 11) _ _ (by decide)).trans ?_
    rw [reeferFull, reeferFull, hrcn]
    rfl
  · rw [hrcn]
    exact frame

/-- Settles O37. -/
theorem readAndForgetReefer : Obligations.ReadAndForgetReefer := by
  intro sid s e
  refine ⟨fun hs => ⟨fun h => exec_of_awaits hs rfl ?_, fun k r h hstamp => exec_of_awaits hs rfl ?_⟩,
    fun hs => ⟨fun h => exec_of_awaits hs rfl (takeForgetReefer_of_none h), fun k r h => ?_⟩⟩
  · simp only [takeReadReefer, h]
    rfl
  · have since : secondsSince s r.stamp = min 65535 (s.seconds - r.stamp) := if_pos hstamp
    have alarms : listBytes (r.readings.alarms.map fun c => [c]) = be2 r.readings.alarms.length ++ r.readings.alarms := by
      rw [listBytes, List.length_map, flatten_map_singleton]
    simp only [takeReadReefer, h, reeferBytes, since, alarms, List.append_assoc]
    cases r.state <;> cases r.place <;> rfl
  · obtain ⟨hreefers, hstats, hmarked, hkept⟩ := Rcn.markForgotten_result s.rcn r.place
    generalize hmark : s.rcn.markForgotten r.place = m at hreefers hstats hmarked hkept
    obtain ⟨hrcn, hpending, hframe⟩ := removeReefer_presented k ((s.setRcn m).rcnStats
      (fun x => { x with forgets := countUp x.forgets 1 }))
    have htaken : takeForgetReefer sid s = ⟨.ok, be2 k ++ r.place.bytes, removeReefer k ((s.setRcn m).rcnStats
        (fun x => { x with forgets := countUp x.forgets 1 }))⟩ := by
      simp only [takeForgetReefer, h, hmark]
      rfl
    generalize removeReefer k ((s.setRcn m).rcnStats (fun x => { x with forgets := countUp x.forgets 1 })) = u at *
    intro place
    have hplace : r.place.bytes = place := by
      simp only [place]
      cases r.place <;> rfl
    rw [hplace] at htaken
    refine ⟨u, exec_of_awaits hs rfl htaken, ?_, ?_, fun i hi => ?_, fun hi => ?_, hpending, hframe⟩
    · rw [hrcn, ← hreefers]
      rfl
    · rw [hrcn, ← hstats]
      rfl
    · rw [hrcn, ← hmarked i hi]
      rfl
    · rw [hrcn, ← hkept hi]
      exact ⟨rfl, rfl⟩

end Sys2Proof.Machine
end

section
/-! The commands of the crane links (R63 to R67): O28 and O29. -/

namespace Sys2Proof.Machine

/-! ### The arguments of SET-CRANE -/

/-- Step 4 of R63 leaves every value as it was presented. -/
theorem craneClamped_iff (sid : Sid) (peer : Option Sid) (q : QPort) (per late lapse hold rate burst : Nat) :
    craneClamped (craneConfig sid peer q per late lapse hold) per late lapse hold rate burst = false ↔
      per ≤ 250 ∧ max 1 (min 8 late) = late ∧ max (max 1 (min 8 late) + 1) (min 16 lapse) = lapse ∧ 1 ≤ hold ∧
        hold ≤ 32 ∧ rate ≤ 240 ∧ 64 ≤ burst := by
  simp only [craneClamped, craneConfig, clampTo, storedRate, storedBurst, Bool.or_eq_false_iff, bne_eq_false_iff_eq]
  omega

section SetCrane

variable {sid peer : Sid} {pf per late lapse hold rate burst ovh : Nat} {s : State}

theorem takeSetCrane_bad {n home : Nat}
    (h : 23 < n ∨ 11 < home ∨ per = 0 ∨ 1 < pf ∨ sid = 0 ∨ (pf = 1 ∧ peer = 0)) :
    takeSetCrane n sid pf peer home per late lapse hold rate burst ovh s = refuse .badArgument s := by
  unfold takeSetCrane
  split
  · by_cases hhome : home < 12
    · rw [show quayOfCode home = some ⟨home, hhome⟩ from dif_pos hhome]
      exact if_pos (by obtain h | h | h | h | h | h := h <;> simp_all <;> omega)
    · rw [quayOfCode_none (by omega)]
  · rfl

/-- SET-CRANE after its argument checks (R63). -/
theorem takeSetCrane_good (l : LinkNo) (q : QPort)
    (h : ¬(23 < l.val ∨ 11 < q.val ∨ per = 0 ∨ 1 < pf ∨ sid = 0 ∨ (pf = 1 ∧ peer = 0))) {c : LinkConfig}
    (hc : c = craneConfig sid (if pf = 1 then some peer else none) q per late lapse hold) :
    takeSetCrane l.val sid pf peer q.val per late lapse hold rate burst ovh s =
      if (s.link l).state = .unbound then
        takeBinding l c (craneClamped c per late lapse hold rate burst) rate burst ovh s
      else if (s.link l).config.sid = sid then
        craneTaken l (craneClamped c per late lapse hold rate burst) (updateLink l c rate burst ovh s)
      else refuse .conflict s := by
  have hargs : ¬(per = 0 ∨ 1 < pf ∨ sid = 0 ∨ (pf = 1 ∧ peer = 0)) := fun hbad => h (.inr (.inr hbad))
  unfold takeSetCrane
  rw [dif_pos l.isLt, quayOfCode_val]
  dsimp only
  rw [if_neg hargs, hc]

end SetCrane

/-! ### Updates and bindings -/

/-- A link and its policer written, and what CRANE-UNCOVERED then reports. -/
structure LinkWritten (l : LinkNo) (x : Link) (b : Bucket) (s u : State) : Prop where
  link : u.link l = x
  bucket : u.bucket (linkBucket l) = b
  links : ∀ m, m ≠ l → u.link m = s.link m
  buckets : ∀ k, k ≠ linkBucket l → u.bucket k = s.bucket k
  frame : u = { s with
    links := u.links, fsq := { s.fsq with buckets := u.fsq.buckets }, ntu := u.ntu, ctb := u.ctb
    flight := { s.flight with enqueues := u.flight.enqueues } }

theorem LinkWritten.of_set (l : LinkNo) (x : Link) (b : Bucket) (s : State) :
    LinkWritten l x b s ((s.setLink l x).setBucket (linkBucket l) b) where
  link := State.link_setLink_self ..
  bucket := State.bucket_setBucket_self ..
  links _ h := State.link_setLink_of_ne _ _ h
  buckets _ h := (State.bucket_setBucket ..).trans (if_neg h)
  frame := rfl

theorem LinkWritten.reports {l : LinkNo} {x : Link} {b : Bucket} {s t u : State} (h : LinkWritten l x b s t)
    (g : ReportsOnly t u) : LinkWritten l x b s u where
  link := (g.link l).trans h.link
  bucket := by rw [g]; exact h.bucket
  links m hm := (g.link m).trans (h.links m hm)
  buckets k hk := by rw [g]; exact h.buckets k hk
  frame := by
    have frame := h.frame
    unfold ReportsOnly at g
    rw [g, frame]

/-- What SET-CRANE answers, by the link and the policer it has written. -/
theorem craneTaken_eq {l : LinkNo} {x : Link} {b : Bucket} {s u : State} (h : LinkWritten l x b s u) {clamped : Bool}
    {P : Prop} [Decidable P] (hclamped : clamped = false ↔ P) :
    craneTaken l clamped u =
      ⟨if P then .ok else .clamped, linkConfigBytes x.config b ++ be1 x.state.code, u⟩ := by
  rw [craneTaken, taken_eq_ite hclamped, h.link, h.bucket]

theorem updateLink_written (l : LinkNo) (c : LinkConfig) (rate burst ovh : Nat) (s : State) :
    LinkWritten l { s.link l with config := c } ((s.bucket (linkBucket l)).reprogram rate burst (flagSet ovh)) s
      (updateLink l c rate burst ovh s) := by
  have written := LinkWritten.of_set l { s.link l with config := c }
    ((s.bucket (linkBucket l)).reprogram rate burst (flagSet ovh)) s
  unfold updateLink
  dsimp only
  split
  · exact written
  · exact written.reports (presentUncovered_reportsOnly _)

/-- A SID taken by a link in the static collection (R47): where a place is found or held, the static records are
those written, and any dynamic record of the SID is removed. -/
theorem bindStation_bound {sid : Sid} {l : LinkNo} {s : State} {statics' : Table StaticRec}
    (h : (∃ j, ((findStatic s sid = none ∧ Table.lowestFree s.stt.statics 64 = some j) ∨
          (∃ r q', findStatic s sid = some (j, r) ∧ r.binding = .static q')) ∧
        statics' = Table.put s.stt.statics j ⟨sid, .crane l⟩) ∨
      (∃ j r, findStatic s sid = some (j, r) ∧ r.binding = .crane l ∧ statics' = s.stt.statics)) :
    bindStation sid l s = .bound (removeDynamicOf sid (s.setStt { s.stt with statics := statics' })) := by
  obtain ⟨j, ⟨hfind, hfree⟩ | ⟨r, q', hfind, hr⟩, rfl⟩ | ⟨j, r, hfind, hr, rfl⟩ := h
  · simp only [bindStation, hfind, Config.staticPlaces, hfree]
  · simp only [bindStation, hfind, hr]
  · simp only [bindStation, hfind, hr, if_true]
    rfl

/-- A binding of a link (R64), after the static record of its SID has been written. -/
theorem bindLink_bound (l : LinkNo) (c : LinkConfig) (rate burst ovh : Nat) (s : State) :
    LinkWritten l (.bound c) { s.bucket (linkBucket l) with
        rate := min 240 rate, burst := max 64 burst, overhead := flagSet ovh
        credit := ((max 64 burst : Nat) : Int) * 16 } s (bindLink l c rate burst ovh s) ∧
      UncoveredPresented (bindLink l c rate burst ovh s) ∧ (bindLink l c rate burst ovh s).stt = s.stt ∧
      (StationFullPresented s → StationFullPresented (bindLink l c rate burst ovh s)) := by
  have written := LinkWritten.of_set l (.bound c) { s.bucket (linkBucket l) with
        rate := min 240 rate, burst := max 64 burst, overhead := flagSet ovh
        credit := ((max 64 burst : Nat) : Int) * 16 } s
  have reports := presentUncovered_reportsOnly ((s.setLink l (.bound c)).setBucket (linkBucket l)
    { s.bucket (linkBucket l) with
        rate := min 240 rate, burst := max 64 burst, overhead := flagSet ovh
        credit := ((max 64 burst : Nat) : Int) * 16 })
  have hstt : (bindLink l c rate burst ovh s).stt = s.stt := reports.stt
  refine ⟨written.reports reports, presentUncovered_presented _, hstt, fun h => ?_⟩
  have hsource : (bindLink l c rate burst ovh s).source 6 = s.source 6 := present_source_of_ne _ _ (by decide) (by decide)
  unfold StationFullPresented stationFull at *
  rw [hsource, hstt]
  exact h

theorem takeBinding_noCrane {l : LinkNo} {c : LinkConfig} {s : State} (clamped : Bool) (rate burst ovh : Nat)
    (h : ∀ k, classify s.idc c.sid = some k → k.options.crane = false) :
    takeBinding l c clamped rate burst ovh s = refuse .conflict s := by
  unfold takeBinding
  cases hk : classify s.idc c.sid with
  | none => rfl
  | some k => exact if_pos (h k hk)

section
variable {l : LinkNo} {c : LinkConfig} {clamped : Bool} {rate burst ovh : Nat} {s t : State} {k : IdClass}

theorem takeBinding_bound (hk : classify s.idc c.sid = some k) (hcrane : k.options.crane = true)
    (h : bindStation c.sid l s = .bound t) :
    takeBinding l c clamped rate burst ovh s = craneTaken l clamped (bindLink l c rate burst ovh t) := by
  simp only [takeBinding, hk, hcrane, Bool.true_eq_false, if_false, h]

theorem takeBinding_otherLink (hk : classify s.idc c.sid = some k) (hcrane : k.options.crane = true)
    (h : bindStation c.sid l s = .otherLink) :
    takeBinding l c clamped rate burst ovh s = refuse .conflict s := by
  simp only [takeBinding, hk, hcrane, Bool.true_eq_false, if_false, h]

theorem takeBinding_full (hk : classify s.idc c.sid = some k) (hcrane : k.options.crane = true)
    (h : bindStation c.sid l s = .full) : takeBinding l c clamped rate burst ovh s = refuse .tableFull s := by
  simp only [takeBinding, hk, hcrane, Bool.true_eq_false, if_false, h]

end

/-- Settles O28. -/
theorem setCraneBindsOrUpdates : Obligations.SetCraneBindsOrUpdates := by
  intro n sid pf peer home per late lapse hold rate burst ovh s e i hs bad late' lapse' ends
  refine ⟨fun hbad => exec_of_awaits hs rfl (takeSetCrane_bad hbad), ?_⟩
  rintro l q hgood rfl rfl c st b values
  have hclamped : craneClamped c per late lapse hold rate burst = false ↔ per ≤ 250 ∧ late' = late ∧ lapse' = lapse ∧
      1 ≤ hold ∧ hold ≤ 32 ∧ rate ≤ 240 ∧ 64 ≤ burst := craneClamped_iff sid c.peer q per late lapse hold rate burst
  have htaken := takeSetCrane_good (rate := rate) (burst := burst) (ovh := ovh) (s := s) l q hgood (c := c) rfl
  have hvalues (x : Link) (y : Bucket) (hx : x.config = c) (hrate : y.rate = min 240 rate)
      (hburst : y.burst = max 64 burst) (hovh : y.overhead = (ovh != 0)) :
      linkConfigBytes x.config y ++ be1 x.state.code = values x.state.code := by
    rw [linkConfigBytes, hx, hrate, hburst, hovh]
  refine ⟨fun hstate hsid => ?_, fun hstate hsid => ?_, fun hstate hclass => ?_, fun k hstate hclass hcrane => ?_⟩
  · rw [if_neg hstate, if_neg hsid] at htaken
    exact exec_of_awaits hs rfl htaken
  · have written := updateLink_written l c rate burst ovh s
    rw [if_neg hstate, if_pos hsid, craneTaken_eq written hclamped, hvalues _ _ rfl rfl rfl rfl] at htaken
    refine ⟨_, exec_of_awaits hs rfl htaken, written.link, written.bucket, fun hq => ?_, fun hq => ?_, written.links,
      written.buckets, written.frame⟩
    · rw [updateLink, if_neg hq]
      exact presentUncovered_presented _
    · rw [updateLink, if_pos hq]
      exact ⟨rfl, rfl, rfl⟩
  · rw [if_pos hstate] at htaken
    refine exec_of_awaits hs rfl (htaken.trans ?_)
    exact takeBinding_noCrane _ _ _ _ hclass
  · rw [if_pos hstate] at htaken
    have hclass : classify s.idc c.sid = some k := hclass
    refine ⟨fun j r m hfind hr hm => exec_of_awaits hs rfl (htaken.trans ?_),
      fun hfind hfree => exec_of_awaits hs rfl (htaken.trans ?_), fun statics' hstatics => ?_⟩
    · exact takeBinding_otherLink hclass hcrane (by simp only [bindStation, c, hfind, hr, if_neg hm])
    · exact takeBinding_full hclass hcrane (by simp only [bindStation, c, hfind, Config.staticPlaces, hfree])
    · obtain ⟨hstt, hfull, -, hframe⟩ := removeDynamicOf_setStatics sid statics' s rfl
      have hbound : bindStation c.sid l s = .bound _ := bindStation_bound hstatics
      replace htaken := htaken.trans (takeBinding_bound hclass hcrane hbound)
      generalize removeDynamicOf sid (s.setStt { s.stt with statics := statics' }) = t at *
      obtain ⟨written, huncovered, hkept, hpresented⟩ := bindLink_bound l c rate burst ovh t
      rw [craneTaken_eq written hclamped, hvalues _ _ rfl rfl rfl rfl] at htaken
      have hlinks (m : LinkNo) : t.link m = s.link m := by rw [hframe]; rfl
      have hbuckets (m : BucketNo) : t.bucket m = s.bucket m := by rw [hframe]; rfl
      have hbucket := written.bucket
      rw [hbuckets] at hbucket
      have hexec : exec i s = .next (completeCommand false e st (values 1) (bindLink l c rate burst ovh t)) :=
        exec_of_awaits hs rfl htaken
      refine ⟨bindLink l c rate burst ovh t, hexec, written.link, hbucket, ?_,
        fun h => hpresented (hfull h), huncovered, fun m hm => (written.links m hm).trans (hlinks m),
        fun m hm => (written.buckets m hm).trans (hbuckets m), ?_⟩
      · exact hkept.trans hstt
      · have frame := written.frame
        unfold ReportsOnly at hframe
        generalize bindLink l c rate burst ovh t = u at *
        rw [hkept, frame, hframe]

/-! ### CLEAR-CRANE and READ-CRANE -/

theorem sendSpanFor_eq (mk : Nat → SpanEvent) (g : Option Nat) (s : State) :
    sendSpanFor mk g s = { s with flight := { s.flight with spans := s.flight.spans ++ spansFor mk g } } := by
  cases g with
  | none => simp [sendSpanFor, spansFor]
  | some g => rfl

/-- The static record of an unbound link's SID is erased where it is bound to a crane (R47). -/
theorem unbindStation_eq (sid : Sid) (s : State) :
    ∃ x, unbindStation sid s = s.setStt { s.stt with statics := x } ∧
      ∀ j r m, findStatic s sid = some (j, r) → r.binding = .crane m → x = Table.erase s.stt.statics j := by
  unfold unbindStation
  split
  · rename_i k sid' m hfind
    refine ⟨_, rfl, fun j r m' h _ => ?_⟩
    rw [hfind] at h
    obtain ⟨rfl, rfl⟩ := Prod.mk.inj (Option.some.inj h)
    rfl
  · rename_i k sid' q hfind
    refine ⟨s.stt.statics, rfl, fun j r m' h hr => ?_⟩
    rw [hfind] at h
    obtain ⟨rfl, rfl⟩ := Prod.mk.inj (Option.some.inj h)
    exact nomatch hr
  · rename_i hfind
    exact ⟨s.stt.statics, rfl, fun j r m h => nomatch hfind.symm.trans h⟩

/-- What an unbinding leaves (R66). -/
theorem unbindLink_unbound (l : LinkNo) (s : State) :
    (unbindLink l s).link l = (s.link l).unbound ∧
      (unbindLink l s).flight.spans = s.flight.spans ++
        (if (s.link l).state = .live ∨ (s.link l).state = .late then spansFor .remove (s.link l).segment else []) ∧
      (∀ j r m, findStatic s (s.link l).config.sid = some (j, r) → r.binding = .crane m →
        (unbindLink l s).stt = { s.stt with statics := Table.erase s.stt.statics j }) ∧
      UncoveredPresented (unbindLink l s) ∧ (∀ m, m ≠ l → (unbindLink l s).link m = s.link m) ∧
      unbindLink l s = { s with
        stt := { s.stt with statics := (unbindLink l s).stt.statics }, links := (unbindLink l s).links
        ntu := (unbindLink l s).ntu, ctb := (unbindLink l s).ctb
        flight := { s.flight with
          enqueues := (unbindLink l s).flight.enqueues, spans := (unbindLink l s).flight.spans } } := by
  generalize hspans : (if (s.link l).state = .live ∨ (s.link l).state = .late then
    spansFor .remove (s.link l).segment else []) = spans
  have hsent : (if (s.link l).state.spans then sendSpanFor .remove (s.link l).segment s else s) =
      { s with flight := { s.flight with spans := s.flight.spans ++ spans } } := by
    rw [← hspans, sendSpanFor_eq]
    cases (s.link l).state <;> simp [LinkState.spans]
  obtain ⟨x, hstation, hx⟩ := unbindStation_eq (s.link l).config.sid
    { s with flight := { s.flight with spans := s.flight.spans ++ spans } }
  have hunbind : unbindLink l s = presentUncovered (({ s with
      stt := { s.stt with statics := x }
      flight := { s.flight with spans := s.flight.spans ++ spans } } : State).setLink l (s.link l).unbound) := by
    unfold unbindLink
    dsimp only
    rw [hsent, hstation]
    rfl
  have reports := presentUncovered_reportsOnly (({ s with
      stt := { s.stt with statics := x }
      flight := { s.flight with spans := s.flight.spans ++ spans } } : State).setLink l (s.link l).unbound)
  have presented := presentUncovered_presented (({ s with
      stt := { s.stt with statics := x }
      flight := { s.flight with spans := s.flight.spans ++ spans } } : State).setLink l (s.link l).unbound)
  rw [← hunbind] at reports presented
  generalize unbindLink l s = u at *
  have hlink := reports.link l
  have hlinks (m : LinkNo) (hm : m ≠ l) := reports.link m
  rw [State.link_setLink_self] at hlink
  refine ⟨hlink, reports.spans, fun j r m h hr => ?_, presented, fun m hm => ?_, ?_⟩
  · rw [reports.stt, ← hx j r m h hr]
    rfl
  · rw [reports.link m, State.link_setLink_of_ne _ _ hm]
    rfl
  · unfold ReportsOnly at reports
    rw [reports]
    rfl

/-- READ-CRANE of a bound link (R67). -/
theorem takeReadCrane_bound {l : LinkNo} (clear : Nat) {s : State} (h : (s.link l).state ≠ .unbound) :
    takeReadCrane l.val clear s = ⟨.ok, boundLinkBytes s l,
      if (s.link l).context = none then
        (if clear = 0 then s else s.setLink l { s.link l with counts := .zero })
      else { (if clear = 0 then s else s.setLink l { s.link l with counts := .zero }) with freeUse := s.freeUse + 1 }⟩ := by
  have hcleared : (if flagSet clear then s.linkCounts l (fun _ => .zero) else s) =
      if clear = 0 then s else s.setLink l { s.link l with counts := .zero } := by
    by_cases hc : clear = 0 <;> simp [flagSet, hc, State.linkCounts]
  have hfree : (if clear = 0 then s else s.setLink l { s.link l with counts := .zero }).freeUse = s.freeUse := by
    split <;> rfl
  generalize (if clear = 0 then s else s.setLink l { s.link l with counts := .zero }) = t at *
  unfold takeReadCrane
  rw [dif_pos l.isLt]
  dsimp only
  rw [if_neg h, hcleared, hfree]
  cases (s.link l).context <;> rfl

theorem takeReadCrane_unbound {l : LinkNo} (clear : Nat) {s : State} (h : (s.link l).state = .unbound) :
    takeReadCrane l.val clear s = ⟨.ok, unboundLinkBytes (s.link l),
      if clear = 0 then s else s.setLink l { s.link l with counts := .zero }⟩ := by
  have hcleared : (if flagSet clear then s.linkCounts l (fun _ => .zero) else s) =
      if clear = 0 then s else s.setLink l { s.link l with counts := .zero } := by
    by_cases hc : clear = 0 <;> simp [flagSet, hc, State.linkCounts]
  unfold takeReadCrane
  rw [dif_pos l.isLt]
  dsimp only
  rw [if_pos h, hcleared]
  rfl

theorem LinkCounts.bytes_eq (x : LinkCounts) :
    x.bytes = [x.late, x.lapses, x.duplicates, x.stale, x.foreign, x.lapsedDiscard, x.completed, x.reverted, x.redirected,
      x.abandoned, x.failovers].flatMap be4 := by
  simp [LinkCounts.bytes]

/-- Settles O29. -/
theorem clearAndReadCrane : Obligations.ClearAndReadCrane := by
  refine ⟨fun n s e hs => ⟨fun hn => exec_of_awaits hs rfl (dif_neg (by omega)), ?_⟩,
    fun n clear s e hs => ⟨fun hn => exec_of_awaits hs rfl (dif_neg (by omega)), ?_⟩⟩
  · rintro l rfl
    refine ⟨fun hstate => exec_of_awaits hs rfl ((dif_pos l.isLt).trans (if_pos hstate)), fun hstate => ?_⟩
    obtain ⟨hlink, hspans, hstatics, huncovered, hlinks, hframe⟩ := unbindLink_unbound l s
    refine ⟨unbindLink l s, exec_of_awaits hs rfl ((dif_pos l.isLt).trans (if_neg hstate)), ?_⟩
    rw [hlink]
    exact ⟨rfl, rfl, rfl, rfl, rfl, rfl, rfl, rfl, rfl, rfl, hspans, hstatics, huncovered, hlinks, hframe⟩
  · rintro l rfl x b c cleared counts
    refine ⟨fun hstate => ?_, fun hstate => ⟨holdRemaining s, fun h => ?_, ?_⟩⟩
    · refine exec_of_awaits hs rfl ((takeReadCrane_unbound clear hstate).trans ?_)
      rw [unboundLinkBytes, LinkCounts.bytes_eq, show (s.link l).state.code = 0 by rw [hstate]; rfl]
      rfl
    · exact Nat.lt_succ_iff.1 (Nat.mod_lt _ (Nat.succ_pos _))
    · refine exec_of_awaits hs rfl ((takeReadCrane_bound clear hstate).trans ?_)
      rw [boundLinkBytes, LinkCounts.bytes_eq]
      rfl

end Sys2Proof.Machine
end

section
/-! Admission to a queue, selection from a port's queues, and the buckets (R141, R144, R145, R149 to R155): O38 and O42. -/

namespace Sys2Proof.Machine

/-! ### The judgement of a queue (R141) -/

section Judgement

variable {s : State} {kind : Kind} {n : Nat} {d : Port × QClass}

theorem judgeQueue_of_down (h : s.usable d.1 = false) : judgeQueue s kind n d = .portDown := by
  simp [judgeQueue, h]

theorem judgeQueue_of_mode (hup : s.usable d.1 = true) (h : (s.port d.1).mode = .craneOnly ∧ kind.craneOnly = false) :
    judgeQueue s kind n d = .serviceMode := by
  simp [judgeQueue, hup, h]

theorem judgeQueue_of_room (hup : s.usable d.1 = true) (hmode : ¬((s.port d.1).mode = .craneOnly ∧ kind.craneOnly = false)) :
    judgeQueue s kind n d = .admitted ∧ Admits s kind n d ∨ judgeQueue s kind n d = .queueFull ∧ ¬Admits s kind n d := by
  have hkind : (s.port d.1).mode = .craneOnly → kind.craneOnly = true := fun h =>
    Bool.eq_true_of_not_eq_false fun hk => hmode ⟨h, hk⟩
  have hadmits : Admits s kind n d ↔ ((s.queues d.1).get d.2).cellCount + n ≤ ((s.queues d.1).get d.2).limit ∧
      (if d.2 = .c then n ≤ s.fsq.free else n + s.fsq.reserve ≤ s.fsq.free) :=
    ⟨fun h => h.2.2, fun h => ⟨hup, hkind, h⟩⟩
  unfold judgeQueue
  dsimp only
  rw [if_neg (by simp [hup]), if_neg hmode, hadmits]
  by_cases hroom : ((s.queues d.1).get d.2).cellCount + n ≤ ((s.queues d.1).get d.2).limit ∧
      (if d.2 = .c then n ≤ s.fsq.free else n + s.fsq.reserve ≤ s.fsq.free)
  · exact .inl ⟨if_pos hroom, hroom⟩
  · exact .inr ⟨if_neg hroom, hroom⟩

theorem judgeQueue_portDown_iff : judgeQueue s kind n d = .portDown ↔ s.usable d.1 = false := by
  refine ⟨fun h => ?_, judgeQueue_of_down⟩
  by_contra hup
  rw [Bool.not_eq_false] at hup
  by_cases hmode : (s.port d.1).mode = .craneOnly ∧ kind.craneOnly = false
  · rw [judgeQueue_of_mode hup hmode] at h
    exact nomatch h
  · obtain ⟨hjudge, -⟩ | ⟨hjudge, -⟩ := judgeQueue_of_room (n := n) hup hmode
    · exact nomatch hjudge.symm.trans h
    · exact nomatch hjudge.symm.trans h

theorem judgeQueue_serviceMode_iff : judgeQueue s kind n d = .serviceMode ↔
    s.usable d.1 = true ∧ (s.port d.1).mode = .craneOnly ∧ kind.craneOnly = false := by
  refine ⟨fun h => ?_, fun h => judgeQueue_of_mode h.1 h.2⟩
  cases hup : s.usable d.1 with
  | false => exact nomatch (judgeQueue_of_down hup).symm.trans h
  | true =>
    refine ⟨rfl, by_contra fun hmode => ?_⟩
    obtain ⟨hjudge, -⟩ | ⟨hjudge, -⟩ := judgeQueue_of_room (n := n) hup hmode
    · exact nomatch hjudge.symm.trans h
    · exact nomatch hjudge.symm.trans h

theorem judgeQueue_admitted_iff : judgeQueue s kind n d = .admitted ↔ Admits s kind n d := by
  refine ⟨fun h => ?_, fun h => ?_⟩
  · cases hup : s.usable d.1 with
    | false => exact nomatch (judgeQueue_of_down hup).symm.trans h
    | true =>
      by_cases hmode : (s.port d.1).mode = .craneOnly ∧ kind.craneOnly = false
      · exact nomatch (judgeQueue_of_mode hup hmode).symm.trans h
      · obtain ⟨-, hadmits⟩ | ⟨hjudge, -⟩ := judgeQueue_of_room (n := n) hup hmode
        · exact hadmits
        · exact nomatch hjudge.symm.trans h
  · obtain ⟨hup, hkind, -⟩ := id h
    obtain ⟨hjudge, -⟩ | ⟨-, hrefused⟩ :=
      judgeQueue_of_room (n := n) hup fun hmode : _ ∧ kind.craneOnly = false => by simp [hkind hmode.1] at hmode
    · exact hjudge
    · exact absurd h hrefused

end Judgement

/-! ### Selection (R145) -/

theorem eligible_iff (s : State) (p : Port) (cls : QClass) :
    eligible s p cls = true ↔ ((s.queues p).get cls).entries ≠ [] ∧
      ((s.bucket (shaperBucket p cls)).rate = 0 ∨ 0 ≤ (s.bucket (shaperBucket p cls)).credit) := by
  simp [eligible]

/-- The weighted part after it has chosen a queue (R145). -/
theorem PortQueues.serve_eq (x : PortQueues) (v : Turn) :
    x.serve v =
      if (if v = .b then x.weightB else x.weightD) ≤ (if x.turn = v then x.served else 0) + 1 then
        { x with turn := if v = .b then .d else .b, served := 0 }
      else { x with turn := v, served := (if x.turn = v then x.served else 0) + 1 } := by
  have hturn : (if v = x.turn then x.served else 0) = if x.turn = v then x.served else 0 :=
    if_congr eq_comm rfl rfl
  rw [PortQueues.serve, hturn]
  cases v <;> rfl

section Selection

variable {s : State} {p : Port}

theorem chooseQueue_control (h : eligible s p .c = true) : chooseQueue s p = some (.c, s.queues p) := by
  rw [chooseQueue, if_pos h]

theorem chooseQueue_urgent (hc : ¬eligible s p .c = true) (h : eligible s p .u = true) :
    chooseQueue s p = some (.u, s.queues p) := by
  rw [chooseQueue, if_neg hc, if_pos h]

/-- The weighted part, where neither C nor U is eligible. -/
theorem chooseQueue_weighted (hc : ¬eligible s p .c = true) (hu : ¬eligible s p .u = true) :
    chooseQueue s p =
      if eligible s p .b then
        if eligible s p .d then some ((s.queues p).turn.queue, (s.queues p).serve (s.queues p).turn)
        else some (.b, (s.queues p).serve .b)
      else if eligible s p .d then some (.d, (s.queues p).serve .d) else none := by
  rw [chooseQueue, if_neg hc, if_neg hu]
  cases eligible s p .b <;> cases eligible s p .d <;> rfl

/-- What a selection leaves of the weighted part: C and U leave it, and B and D each serve their turn. -/
theorem chooseQueue_serves {cls : QClass} {y : PortQueues} (h : chooseQueue s p = some (cls, y)) :
    (cls = .c ∨ cls = .u → y = s.queues p) ∧
      ∀ v : Turn, cls = v.queue → y = (s.queues p).serve v := by
  have served (t : Turn) (h : some (t.queue, (s.queues p).serve t) = some (cls, y)) :
      (cls = .c ∨ cls = .u → y = s.queues p) ∧ ∀ v : Turn, cls = v.queue → y = (s.queues p).serve v := by
    obtain ⟨rfl, rfl⟩ := Prod.mk.inj (Option.some.inj h)
    cases t with
    | b => exact ⟨fun h => by simp [Turn.queue] at h, fun v hv => by cases v <;> simp [Turn.queue] at hv ⊢⟩
    | d => exact ⟨fun h => by simp [Turn.queue] at h, fun v hv => by cases v <;> simp [Turn.queue] at hv ⊢⟩
  by_cases hc : eligible s p .c = true
  · rw [chooseQueue_control hc] at h
    obtain ⟨rfl, rfl⟩ := Prod.mk.inj (Option.some.inj h)
    exact ⟨fun _ => rfl, fun v hv => by cases v <;> simp [Turn.queue] at hv⟩
  · by_cases hu : eligible s p .u = true
    · rw [chooseQueue_urgent hc hu] at h
      obtain ⟨rfl, rfl⟩ := Prod.mk.inj (Option.some.inj h)
      exact ⟨fun _ => rfl, fun v hv => by cases v <;> simp [Turn.queue] at hv⟩
    · rw [chooseQueue_weighted hc hu] at h
      split_ifs at h
      · exact served _ h
      · exact served .b h
      · exact served .d h

/-- A transmitter that is SENDING, one of a port that is not usable, and one with nothing eligible makes no start. -/
theorem select_idle (h : (s.queues p).sending ≠ none ∨ s.usable p = false ∨ chooseQueue s p = none) : select p s = s := by
  unfold select
  obtain h | h | h := h
  · rw [if_pos (by simp [Option.isSome_iff_ne_none, h])]
  · rw [if_pos (by simp [h])]
  · rw [h]
    exact ite_self s

/-- The start of a transmission from the queue that a selection chooses (R146, R153). -/
theorem select_starts (hidle : (s.queues p).sending = none) (hup : s.usable p = true) {cls : QClass} {y : PortQueues}
    (hchoice : chooseQueue s p = some (cls, y)) :
    ∃ e rest, ((s.queues p).get cls).entries = e :: rest ∧ select p s =
      if (s.bucket (shaperBucket p cls)).rate = 0 then s.setQueues p { y with sending := some cls }
      else (s.setQueues p { y with sending := some cls }).setBucket (shaperBucket p cls)
        { s.bucket (shaperBucket p cls) with
          credit := (s.bucket (shaperBucket p cls)).credit -
            costOf (s.bucket (shaperBucket p cls)) e.length (s.port p).overhead } := by
  have hentries := ((eligible_iff s p cls).1 (chooseQueue_some hchoice).1).1
  obtain ⟨e, rest, he⟩ := List.exists_cons_of_ne_nil hentries
  have hhead : headLength (y.get cls) = e.length := by
    rw [headLength, chooseQueue_get hchoice, he]
    rfl
  refine ⟨e, rest, he, ?_⟩
  rw [select, hidle, hup, hchoice]
  dsimp only
  rw [if_neg (by decide), hhead]
  rfl

end Selection

/-- Settles O38. -/
theorem admissionAndSelectionRules : Obligations.AdmissionAndSelectionRules := by
  refine ⟨fun s kind n d => ⟨judgeQueue_admitted_iff, judgeQueue_portDown_iff, judgeQueue_serviceMode_iff⟩, ?_⟩
  intro s p x ok choice
  refine ⟨eligible_iff s p, fun hc => ?_, fun hc hu => ?_, fun hc hu hb hd => ?_, fun hc hu hb hd => ?_,
    fun hc hu hb hd => ?_, fun hc hu hb hd => ?_, fun cls y h => ?_, fun h => select_idle ?_, fun hidle hup cls y h => ?_⟩
  · exact congrArg (Option.map Prod.fst) (chooseQueue_control hc)
  · exact congrArg (Option.map Prod.fst) (chooseQueue_urgent hc hu)
  · refine (congrArg (Option.map Prod.fst) ((chooseQueue_weighted hc hu).trans ((if_pos hb).trans (if_pos hd)))).trans ?_
    show some x.turn.queue = _
    cases x.turn <;> rfl
  · exact congrArg (Option.map Prod.fst) ((chooseQueue_weighted hc hu).trans ((if_pos hb).trans (if_neg hd)))
  · exact congrArg (Option.map Prod.fst) ((chooseQueue_weighted hc hu).trans ((if_neg hb).trans (if_pos hd)))
  · exact congrArg (Option.map Prod.fst) ((chooseQueue_weighted hc hu).trans ((if_neg hb).trans (if_neg hd)))
  · obtain ⟨hkept, hserves⟩ := chooseQueue_serves h
    refine ⟨hkept, fun v hv => ?_⟩
    have hqueue : cls = v.queue := by
      obtain ⟨rfl, rfl⟩ | ⟨rfl, rfl⟩ := hv
      · rfl
      · rfl
    exact (hserves v hqueue).trans (PortQueues.serve_eq ..)
  · refine h.imp_right (Or.imp_right fun hnone => ?_)
    rw [chooseQueue_weighted (hnone .c) (hnone .u), if_neg (hnone .b), if_neg (hnone .d)]
  · obtain ⟨e, rest, he, hselect⟩ := select_starts hidle hup h
    refine ⟨e, rest, he, hselect.trans ?_⟩
    have hcost : costOf (s.bucket (shaperBucket p cls)) e.length (s.port p).overhead =
        ((e.length + (if (s.bucket (shaperBucket p cls)).overhead then (s.port p).overhead else 0) : Nat) : Int) * 16 := by
      rw [costOf]
      split <;> simp
    rw [hcost]

/-! ### Policers, refills and SET-RATE -/

/-- A policer's judgement, by its rate and its credit (R151, R152). -/
theorem offer_cases (b : BucketNo) (length : Nat) (p : Port) (s : State) :
    ((s.bucket b).rate = 0 → offer b length p s = (true, s)) ∧
    ((s.bucket b).rate ≠ 0 → frameCost b length p s ≤ (s.bucket b).credit → offer b length p s =
      (true, s.setBucket b { s.bucket b with credit := (s.bucket b).credit - frameCost b length p s })) ∧
    ((s.bucket b).rate ≠ 0 → (s.bucket b).credit < frameCost b length p s →
      (s.bucket b).burst * 16 < frameCost b length p s → offer b length p s =
        (false, { s with fsq := { s.fsq with overBurst := min 4294967295 (s.fsq.overBurst + 1) } })) ∧
    ((s.bucket b).rate ≠ 0 → (s.bucket b).credit < frameCost b length p s →
      frameCost b length p s ≤ (s.bucket b).burst * 16 → offer b length p s = (false, s)) := by
  have held (hrate : (s.bucket b).rate ≠ 0) (h : (s.bucket b).credit < frameCost b length p s) :
      offer b length p s = (false, heldBack b length p s) :=
    offer_not_conforms fun hc => hc.elim hrate (not_le.2 h)
  refine ⟨fun hrate => ?_, fun hrate h => ?_, fun hrate h hburst => ?_, fun hrate h hburst => ?_⟩
  · rw [offer_conforms (.inl hrate), charged, if_pos hrate]
  · rw [offer_conforms (.inr h), charged, if_neg hrate]
  · rw [held hrate h, heldBack, if_pos hburst]
  · rw [held hrate h, heldBack, if_neg (not_lt.2 hburst)]

theorem Bucket.refilled_eq (x : Bucket) :
    x.refilled = if x.rate = 0 then x else
      { x with credit := min (x.credit + (if x.rate ≤ 200 then (x.rate : Int) * 100 else ((x.rate - 200 : Nat) : Int) * 2))
                             (x.burst * 16) } := by
  have hrefill : refillOf x.rate = if x.rate ≤ 200 then (x.rate : Int) * 100 else ((x.rate - 200 : Nat) : Int) * 2 := by
    unfold refillOf
    split
    · rfl
    · rw [Nat.cast_sub (by omega)]
      rfl
  rw [Bucket.refilled, hrefill]
  rfl

theorem shaperPort_none {b : BucketNo} (h : b.val < 81) : shaperPort b = none := dif_neg (by omega)

theorem shaperPort_some {b : BucketNo} {p : Port} {i : Nat} (h : b.val = 81 + p.val * 4 + i) (hi : i < 4) :
    shaperPort b = some p := by
  rw [shaperPort, dif_pos (by omega)]
  exact congrArg some (Fin.ext (by show (b.val - 81) / 4 = p.val; omega))

/-- A refill of a policer's bucket. -/
theorem exec_refillExpiry_policer {b : BucketNo} {s : State} (h : (s.bucket b).refill = true) (hb : shaperPort b = none) :
    exec (.refillExpiry b) s = .next (s.setBucket b (s.bucket b).refilled) := by
  show execRefillExpiry b s = _
  unfold execRefillExpiry
  simp only [h, if_true, hb]

/-- A refill of a shaper's bucket prompts a selection at its port. -/
theorem exec_refillExpiry_shaper {b : BucketNo} {s : State} {p : Port} (h : (s.bucket b).refill = true)
    (hb : shaperPort b = some p) :
    exec (.refillExpiry b) s = .next (select p (s.setBucket b (s.bucket b).refilled)) := by
  show execRefillExpiry b s = _
  unfold execRefillExpiry
  simp only [h, if_true, hb]

/-- The first bucket of each kind code, and the number of its buckets (R149). -/
theorem bucketOfCode_some {k i : Nat} {b : BucketNo} (hk : k ≤ 4) (hi : i < [48, 24, 8, 1, 56].getD k 0)
    (hb : b.val = [0, 48, 72, 80, 81].getD k 0 + i) : bucketOfCode k i = some b := by
  obtain rfl | rfl | rfl | rfl | rfl : k = 0 ∨ k = 1 ∨ k = 2 ∨ k = 3 ∨ k = 4 := by omega
  all_goals
    simp only [List.getD_cons_zero, List.getD_cons_succ] at hi hb
    simp [bucketOfCode, hi, Fin.ext_iff, hb]
  omega

theorem bucketOfCode_none {k i : Nat} (h : 4 < k ∨ [48, 24, 8, 1, 56].getD k 0 ≤ i) : bucketOfCode k i = none := by
  have hkind (j : Nat) (hj : k = j) : [48, 24, 8, 1, 56].getD j 0 ≤ i ∨ 4 < j := by subst hj; exact h.symm
  have h0 : ¬(k = 0 ∧ i < 48) := fun ⟨hk, hi⟩ => by have := hkind 0 hk; simp at this; omega
  have h1 : ¬(k = 1 ∧ i < 24) := fun ⟨hk, hi⟩ => by have := hkind 1 hk; simp at this; omega
  have h2 : ¬(k = 2 ∧ i < 8) := fun ⟨hk, hi⟩ => by have := hkind 2 hk; simp at this; omega
  have h3 : ¬(k = 3 ∧ i = 0) := fun ⟨hk, hi⟩ => by have := hkind 3 hk; simp at this; omega
  have h4 : ¬(k = 4 ∧ i < 56) := fun ⟨hk, hi⟩ => by have := hkind 4 hk; simp at this; omega
  rw [bucketOfCode, dif_neg h0, dif_neg h1, dif_neg h2, if_neg h3, dif_neg h4]

section SetRate

variable {k i r n o : Nat} {b : BucketNo} {s : State}

theorem takeSetRate_bad (w : Nat) (hbad : 4 < k ∨ [48, 24, 8, 1, 56].getD k 0 ≤ i ∨ 1 < w ∨ (w = 1 ∧ 1 < o)) :
    takeSetRate k i w r n o s = refuse .badArgument s := by
  unfold takeSetRate
  cases hb : bucketOfCode k i with
  | none => rfl
  | some b =>
    have hwrite : ¬w = 0 ∧ (1 < w ∨ 1 < o) := by
      obtain h | h | h | ⟨hw, ho⟩ := hbad
      · exact nomatch (bucketOfCode_none (.inl h)).symm.trans hb
      · exact nomatch (bucketOfCode_none (.inr h)).symm.trans hb
      · exact ⟨by omega, .inl h⟩
      · exact ⟨by omega, .inr ho⟩
    exact (if_neg hwrite.1).trans (if_pos hwrite.2)

/-- A SET-RATE that writes a bucket (R154, R155). -/
theorem takeSetRate_writes (hb : bucketOfCode k i = some b) (ho : o ≤ 1) :
    takeSetRate k i 1 r n o s =
      ⟨if r ≤ 240 ∧ 64 ≤ n then .ok else .clamped, rateBytes k i ((writeRate b r n o s).bucket b), writeRate b r n o s⟩ := by
  have kept : (storedRate r != r || storedBurst n != n) = false ↔ r ≤ 240 ∧ 64 ≤ n := by
    simp only [storedRate, storedBurst, Bool.or_eq_false_iff, bne_eq_false_iff_eq]
    omega
  unfold takeSetRate
  rw [hb]
  dsimp only
  rw [if_neg (by decide), if_neg (by omega), taken_eq_ite kept]

end SetRate

/-- Settles O42. -/
theorem bucketsRefillChargeAndAreWritten : Obligations.BucketsRefillChargeAndAreWritten := by
  refine ⟨offer_cases, ?_, ?_⟩
  · intro b s h x refill y u
    have hu : u = s.setBucket b (s.bucket b).refilled := congrArg (s.setBucket b) (Bucket.refilled_eq x).symm
    refine ⟨fun hb => ?_, fun p c hb => ?_⟩
    · rw [exec_refillExpiry_policer h (shaperPort_none hb), hu]
    · rw [exec_refillExpiry_shaper h (shaperPort_some hb c.isLt), hu]
  · intro k i w r n o s e hs ends sizes starts
    refine ⟨fun hbad => exec_of_awaits hs rfl (takeSetRate_bad w hbad), ?_⟩
    intro b hk hi hb x result y st
    have hcode := bucketOfCode_some hk hi hb
    have hvalue (z : Bucket) : rateBytes k i z = result z := rfl
    refine ⟨?_, ?_, ?_⟩
    · rintro rfl
      refine exec_of_awaits hs rfl ?_
      unfold takeSetRate
      rw [hcode]
      rfl
    · rintro rfl ho hkind
      have hshaper : shaperPort b = none := by
        refine shaperPort_none ?_
        obtain rfl | rfl | rfl | rfl : k = 0 ∨ k = 1 ∨ k = 2 ∨ k = 3 := by omega
        all_goals
          simp [sizes, starts] at hi hb
          omega
      have hwritten : writeRate b r n o s = s.setBucket b y := by
        unfold writeRate
        rw [hshaper]
        rfl
      have htaken := takeSetRate_writes (r := r) (n := n) (s := s) hcode ho
      rw [hwritten, State.bucket_setBucket_self] at htaken
      exact exec_of_awaits hs rfl htaken
    · rintro rfl ho rfl p hp
      have hshaper : shaperPort b = some p := by
        refine shaperPort_some (i := i % 4) ?_ (Nat.mod_lt _ (by decide))
        simp [starts] at hb
        omega
      have hwritten : writeRate b r n o s = select p (s.setBucket b y) := by
        unfold writeRate
        rw [hshaper]
        rfl
      have htaken := takeSetRate_writes (r := r) (n := n) (s := s) hcode ho
      rw [hwritten] at htaken
      exact exec_of_awaits hs rfl htaken

end Sys2Proof.Machine
end

section
/-! Notice sources and counters (R157 to R160, R164 to R166): O44 and O46. -/

namespace Sys2Proof.Machine

/-! ### Notice frames (R159, R160) -/

theorem issue_of_noDestination (k : SourceNo) {s : State} (h : s.ntu.dest.sid = none) : issue k s = s := by
  unfold issue issueWith
  rw [h]

/-- The request that a notice frame is handed on by. -/
def noticeRequest (k : SourceNo) (sid : Sid) (s : State) : EnqueueRequest :=
  { queues := [(s.ntu.dest.trunk.port, .u)], kind := .notice
    body := .originated .notice (originatedBytes .notice false s.sid sid (noticePayload k s)) }

theorem issue_of_usable (k : SourceNo) {s : State} {sid : Sid} (h : s.ntu.dest.sid = some sid)
    (hup : s.usable s.ntu.dest.trunk.port = true) : issue k s = handOff (noticeRequest k sid s) s := by
  unfold issue issueWith
  rw [h]
  dsimp only
  rw [if_pos hup]
  rfl

theorem issue_of_lost (k : SourceNo) {s : State} {sid : Sid} (h : s.ntu.dest.sid = some sid)
    (hdown : s.usable s.ntu.dest.trunk.port = false) :
    issue k s = portDownDrop s.ntu.dest.trunk.port (s.setNtu { s.ntu with lost := countUp s.ntu.lost 1 }) := by
  unfold issue issueWith
  rw [h]
  dsimp only
  rw [if_neg (by simp [hdown])]
  rfl

theorem Trunk.port_eq (t : Trunk) : t.port = if t = .t0 then 12 else 13 := by cases t <;> rfl

/-! ### A counter that rises (R164) -/

/-- Below its maximum a counter rises, and nothing else changes. -/
theorem bump_of_noWrap {p : Port} {c : Fin 12} {n : Nat} {s : State} (h : (s.counter p c).value + n ≤ 4294967295) :
    bump p c n s = s.setCounter p c { s.counter p c with value := (s.counter p c).value + n } := by
  have counted : countPort p c n s = (s.setCounter p c { s.counter p c with value := (s.counter p c).value + n }, false) :=
    if_pos h
  unfold bump bumpFuel
  rw [counted]
  exact if_neg Bool.false_ne_true

theorem countPort_of_wrap {p : Port} {c : Fin 12} {n : Nat} {s : State} (h : 4294967295 < (s.counter p c).value + n) :
    countPort p c n s =
      ((s.setCounter p c ⟨((s.counter p c).value + n) % 4294967296, true⟩).setSource 22
        ((s.source 22).event (.counter p c)), !(s.source 22).pending && !(s.source 22).masked) :=
  if_neg (Nat.not_le.2 h)

theorem Source.event_pending (x : Source) (d : Detail) : (x.event d).pending = true := by
  rw [Source.event_eq]
  split
  · assumption
  · rfl

/-- Past its maximum a counter wraps, and COUNTER-WRAP takes the event (R164). -/
theorem bump_of_wrap {p : Port} {c : Fin 12} {n : Nat} {s : State} (h : 4294967295 < (s.counter p c).value + n) :
    bump p c n s =
      if (s.source 22).pending = false ∧ (s.source 22).masked = false then
        issue 22 ((s.setCounter p c ⟨((s.counter p c).value + n) % 4294967296, true⟩).setSource 22
          ((s.source 22).event (.counter p c)))
      else (s.setCounter p c ⟨((s.counter p c).value + n) % 4294967296, true⟩).setSource 22
        ((s.source 22).event (.counter p c)) := by
  unfold bump bumpFuel
  rw [countPort_of_wrap h]
  dsimp only
  refine if_congr (by simp) ?_ rfl
  refine issueWith_of_pending _ _ ?_
  rw [State.source_setSource_self]
  exact Source.event_pending ..

/-- A wrapped counter's event stands at COUNTER-WRAP where its own notice frame is not lost. -/
theorem bump_tookEvent {p : Port} {c : Fin 12} {n : Nat} {s : State} (h : 4294967295 < (s.counter p c).value + n)
    (hout : NoticesGoOut s) : TookEvent 22 (.counter p c) s (bump p c n s) := by
  have hntu := (bump_ctb p c n s (.inl hout)).2
  have hsource : (bump p c n s).source 22 = (s.source 22).event (.counter p c) := by
    show (bump p c n s).ntu.sources.get 22 = _
    rw [hntu, countPort_of_wrap h]
    exact State.source_setSource_self ..
  exact hsource.trans (Source.event_eq ..)

/-! ### READ-COUNTERS (R166) -/

/-- The groups of a selector: ports in their order, then the drop reasons. -/
def counterGroups (n : Nat) : List CounterGroup :=
  ((List.finRange 14).filter (fun p => decide (n = p.val ∨ n = 14 ∨ n = 16))).map .port ++
    (if n = 15 ∨ n = 16 then [.drops] else [])

theorem groupsOfSelector_eq : ∀ n : Fin 17, groupsOfSelector n.val = some (counterGroups n.val) := by decide

theorem groupsOfSelector_none {n : Nat} (h : 16 < n) : groupsOfSelector n = none := by
  rw [groupsOfSelector, dif_neg (by omega), if_neg (by omega), if_neg (by omega), if_neg (by omega)]

theorem clearGroups_counter (gs : List CounterGroup) (c : Ctb) (p : Port) (k : Fin 12) :
    ((gs.foldl clearGroup c).ports.get p).get k = if .port p ∈ gs then ⟨0, false⟩ else (c.ports.get p).get k := by
  induction gs generalizing c with
  | nil => rfl
  | cons g gs ih =>
    rw [List.foldl_cons, ih]
    cases g with
    | drops => simp [clearGroup]
    | port q =>
      by_cases hp : p = q
      · subst hp
        have cleared : ((clearGroup c (.port p)).ports.get p).get k = ⟨0, false⟩ := by
          simp only [clearGroup, vset_get_self]
          simp [Vector.get_eq_getElem]
        simp [cleared]
      · simp [clearGroup, vset_get, hp]

theorem clearGroups_drops (gs : List CounterGroup) (c : Ctb) (r : Fin 20) :
    (gs.foldl clearGroup c).drops.get r = if .drops ∈ gs then 0 else c.drops.get r := by
  induction gs generalizing c with
  | nil => rfl
  | cons g gs ih =>
    rw [List.foldl_cons, ih]
    cases g with
    | drops => simp [clearGroup, Vector.get_eq_getElem]
    | port q => simp [clearGroup]

/-- The groups that a result holds, by the ports that are named. -/
theorem mem_take_counterGroups (ps : List Port) {last : List CounterGroup} (hlast : last = [] ∨ last = [.drops]) {j : Nat}
    (hj : j ≤ (ps.map CounterGroup.port ++ last).length) :
    (∀ p, .port p ∈ (ps.map CounterGroup.port ++ last).take j ↔ p ∈ ps.take j) ∧
      (.drops ∈ (ps.map CounterGroup.port ++ last).take j ↔ ps.length < j) := by
  have hmapped : .drops ∉ (ps.take j).map CounterGroup.port := fun h => by
    obtain ⟨p, -, hp⟩ := List.mem_map.1 h
    exact nomatch hp
  have hnamed (p : Port) : .port p ∈ (ps.take j).map CounterGroup.port ↔ p ∈ ps.take j := by
    rw [List.mem_map]
    exact ⟨fun ⟨q, hq, h⟩ => CounterGroup.port.inj h ▸ hq, fun h => ⟨p, h, rfl⟩⟩
  rw [List.take_append, List.length_map, ← List.map_take]
  simp only [List.mem_append, hmapped, hnamed, false_or]
  obtain rfl | rfl := hlast
  · simp at hj
    exact ⟨fun p => by simp, by simp; omega⟩
  · refine ⟨fun p => ?_, ?_⟩
    · have hport : CounterGroup.port p ∉ [CounterGroup.drops].take (j - ps.length) := fun h =>
        nomatch List.mem_singleton.1 (List.mem_of_mem_take h)
      simp [hport]
    · by_cases h : ps.length < j
      · obtain ⟨m, hm⟩ : ∃ m, j - ps.length = m + 1 := ⟨j - ps.length - 1, by omega⟩
        simp [hm, h]
      · simp [show j - ps.length = 0 by omega, h]

/-- READ-COUNTERS returns and clears as many whole groups as fit. -/
theorem takeReadCounters_eq {n c room : Nat} {s : State} (hn : n ≤ 16) (hc : c ≤ 1) (hroom : 2 ≤ room) {j : Nat}
    (hj : fitCount (room - 2) ((counterGroups n).map (CounterGroup.bytes s.ctb)) = j) :
    takeReadCounters n c room s =
      ⟨if j = (counterGroups n).length then .ok else .partialFit,
        listBytes (((counterGroups n).take j).map (CounterGroup.bytes s.ctb)),
        if c = 1 then s.setCtb (((counterGroups n).take j).foldl clearGroup s.ctb) else s⟩ := by
  unfold takeReadCounters
  rw [groupsOfSelector_eq ⟨n, by omega⟩]
  dsimp only
  rw [if_neg (by omega), if_neg (by omega), hj]

/-! ### Sources and their events -/

theorem raise_of_quiet {k : SourceNo} (d : Detail) {s : State}
    (h : (s.source k).masked = true ∨ (s.source k).pending = true) :
    raise k d s = s.setSource k ((s.source k).event d) := by
  refine if_neg ?_
  obtain h | h := h
  · simp [h]
  · simp [h]

theorem raise_of_rising {k : SourceNo} (d : Detail) {s : State} (hmask : (s.source k).masked = false)
    (hpending : (s.source k).pending = false) :
    raise k d s = issue k (s.setSource k { s.source k with pending := true, detail := some d, count := 1 }) := by
  refine (if_pos (by simp [hmask, hpending])).trans ?_
  rw [Source.event_eq, if_neg (by simp [hpending])]

theorem present_of_rising {k : SourceNo} {s : State} (hpending : (s.source k).pending = false)
    (hmask : (s.source k).masked = false) :
    present k true s = issue k (s.setSource k { s.source k with
      pending := true, count := min 255 ((s.source k).count + 1), holdoff := some s.ntu.dest.holdoff }) := by
  simp [present, hpending, hmask]

theorem present_of_masked {k : SourceNo} {s : State} (hpending : (s.source k).pending = false)
    (hmask : (s.source k).masked = true) :
    present k true s = s.setSource k { s.source k with
      pending := true, count := min 255 ((s.source k).count + 1) } := by
  simp [present, hpending, hmask]

theorem present_of_falling {k : SourceNo} {s : State} (hpending : (s.source k).pending = true) :
    present k false s = s.setSource k { s.source k with pending := false, holdoff := none } := by
  simp [present, hpending]

theorem present_of_same {k : SourceNo} {c : Bool} {s : State} (h : (s.source k).pending = c) : present k c s = s := by
  subst h
  unfold present
  cases h : (s.source k).pending <;> simp [h]

/-- The source whose condition is presented (R158). -/
theorem present_source_self {k : SourceNo} (c : Bool) (s : State) (hk : k ≠ 22) :
    (present k c s).source k =
      if c = true ∧ (s.source k).pending = false then
        { s.source k with
          pending := true, count := min 255 ((s.source k).count + 1)
          holdoff := if (s.source k).masked then (s.source k).holdoff else some s.ntu.dest.holdoff }
      else if c = false ∧ (s.source k).pending = true then { s.source k with pending := false, holdoff := none }
      else s.source k := by
  cases hpending : (s.source k).pending with
  | true =>
    cases c with
    | true => rw [present_of_same hpending, if_neg (by simp), if_neg (by simp)]
    | false => rw [present_of_falling hpending, State.source_setSource_self, if_neg (by simp), if_pos ⟨rfl, rfl⟩]
  | false =>
    cases c with
    | false => rw [present_of_same hpending, if_neg (by simp), if_neg (by simp)]
    | true =>
      rw [if_pos ⟨rfl, rfl⟩]
      cases hmask : (s.source k).masked with
      | true => rw [present_of_masked hpending hmask, State.source_setSource_self]; rfl
      | false =>
        rw [present_of_rising hpending hmask, issue_source _ _ _ hk, State.source_setSource_self]
        rfl

/-- Settles O44. -/
theorem sourcesFollowTheirEvents : Obligations.SourcesFollowTheirEvents := by
  refine ⟨fun k n s htimer hk => ?_, fun k d s hk => ?_, fun k c s hk => ?_, fun k sid s hdest => ?_⟩
  · have hexec : exec (.holdoffExpiry k) s =
        .next (issue k (s.setSource k { s.source k with holdoff := some s.ntu.dest.holdoff })) := by
      show execHoldoffExpiry k s = _
      rw [execHoldoffExpiry, htimer]
    exact ⟨_, hexec, (issue_source _ _ _ hk).trans (State.source_setSource_self ..),
      (setSource_reportsOnly k _ s).trans (issue_reportsOnly k _), rfl⟩
  · have raised := raise_eventRaised k d s hk
    refine ⟨raised.event, raised.sources, raised.frame, raise_of_rising d, fun h => ?_⟩
    obtain h | h | h := h
    · rw [raise_of_quiet d (.inl h)]
      rfl
    · rw [raise_of_quiet d (.inr h)]
      rfl
    · unfold raise
      dsimp only
      rw [issue_of_noDestination k (s := s.setSource k _) h, ite_self]
      rfl
  · refine ⟨present_source_self c s hk, fun hc hpending hmask => ?_, fun h => ?_,
      fun j hj h22 => present_source_of_ne c s hj h22, present_reportsOnly k c s⟩
    · subst hc
      exact present_of_rising hpending hmask
    · cases hpending : (s.source k).pending with
      | true =>
        cases c with
        | true => rw [present_of_same hpending]
        | false => rw [present_of_falling hpending]; rfl
      | false =>
        cases c with
        | false => rw [present_of_same hpending]
        | true =>
          have hmask := (h.resolve_left (by decide)).resolve_left (by simp [hpending])
          rw [present_of_masked hpending hmask]
          rfl
  · have htrunk := Trunk.port_eq s.ntu.dest.trunk
    intro trunk
    refine ⟨fun hup => ?_, fun hdown hvalue => ?_⟩
    · rw [issue_of_usable k hdest (by rw [htrunk]; exact hup), noticeRequest, htrunk]
      rfl
    · have hlost := issue_of_lost k hdest (by rw [htrunk]; exact hdown)
      rw [htrunk] at hlost
      have hbump : issue k s = _ := hlost.trans (bump_of_noWrap hvalue)
      rw [hbump]
      refine ⟨rfl, ?_, ?_, rfl⟩
      · exact (addDrop_drops ..).trans (if_pos rfl)
      · unfold CounterRises
        rw [State.counter_setCounter, if_pos ⟨rfl, rfl⟩]
        exact (Nat.mod_eq_of_lt (Nat.succ_lt_succ hvalue)).symm

/-- Settles O46. -/
theorem countersCountAndAreRead : Obligations.CountersCountAndAreRead := by
  refine ⟨fun p c n s hc => ⟨bump_counter p c n s hc, fun hwrap _ => ⟨?_, bump_tookEvent hwrap⟩, bump_of_noWrap,
    fun q k hqk hk => bump_counter_of_ne n s hk (fun h => hqk (by rw [h.1, h.2])), bump_reportsOnly p c n s,
    bump_handed p c n s⟩, fun p c n s hwrap => bump_of_wrap hwrap,
    fun r n s => ⟨(addDrop_drops ..).trans (if_pos rfl), fun k hk => (addDrop_drops ..).trans (if_neg hk), rfl⟩,
    fun n c s e hs => ⟨fun hbad => ?_, fun hn hc hroom => ?_⟩⟩
  · rw [(bump_noted p c n s).counters p c hc, countPort_counter, if_pos ⟨rfl, rfl⟩, decide_eq_true hwrap, Bool.or_true]
  · refine exec_of_awaits_room hs rfl ?_
    unfold takeReadCounters
    by_cases hn : 16 < n
    · rw [groupsOfSelector_none hn]
      rfl
    · rw [groupsOfSelector_eq ⟨n, by omega⟩]
      exact if_pos (by omega)
  · intro portGroup drops ps groups
    have hgroups : (counterGroups n).map (CounterGroup.bytes s.ctb) = groups := by
      rw [counterGroups, List.map_append, List.map_map]
      congr 1
      split <;> rfl
    have hlength : (counterGroups n).length = groups.length := by rw [← hgroups, List.length_map]
    have hle := fitCount_le_length (e.room - 2) groups
    have hfits := fitCount_fits (e.room - 2) groups
    have hmax := fitCount_maximal (e.room - 2) groups
    have htaken := takeReadCounters_eq (s := s) hn hc hroom rfl
    rw [hgroups] at htaken
    generalize fitCount (e.room - 2) groups = j at *
    have hbytes : listBytes (((counterGroups n).take j).map (CounterGroup.bytes s.ctb)) =
        be2 j ++ (groups.take j).flatten := by
      rw [List.map_take, hgroups, listBytes, List.length_take, Nat.min_eq_left hle]
    rw [hbytes, hlength] at htaken
    obtain ⟨hports, hdrops⟩ := mem_take_counterGroups ps (last := if n = 15 ∨ n = 16 then [.drops] else [])
      (by split; exact .inr rfl; exact .inl rfl) (j := j) (hle.trans_eq hlength.symm)
    refine ⟨j, _, hle, by omega, fun h => by have := hmax h; omega, exec_of_awaits_room hs rfl htaken, fun p k => ?_,
      fun d => ?_, ?_⟩
    · by_cases hclear : c = 1
      · simp only [hclear, true_and, if_true]
        exact (clearGroups_counter ..).trans (if_congr (hports p) rfl rfl)
      · simp only [hclear, false_and, if_false]
    · by_cases hclear : c = 1
      · simp only [hclear, true_and, if_true]
        exact (clearGroups_drops ..).trans (if_congr hdrops rfl rfl)
      · simp only [hclear, false_and, if_false]
    · split <;> rfl

end Sys2Proof.Machine
end

section
/-! The commands of the notice unit (R159, R161 to R163): O45. -/

namespace Sys2Proof.Machine

/-! ### The sources a command names -/

theorem sourcesOfCode_some {n : Nat} (h : n < 24 ∨ n = 255) :
    sourcesOfCode n = some ((List.finRange 24).filter (fun k => decide (n = k.val ∨ n = 255))) := by
  have each : ∀ i : Fin 24, sourcesOfCode i.val =
      some ((List.finRange 24).filter (fun k => decide (i.val = k.val ∨ i.val = 255))) := by decide
  obtain h | rfl := h
  · exact each ⟨n, h⟩
  · decide

theorem sourcesOfCode_none {n : Nat} (h : 23 < n ∧ n ≠ 255) : sourcesOfCode n = none := by
  rw [sourcesOfCode, dif_neg (by omega), if_neg h.2]

theorem listBytes_map {α : Type} (f : α → List Byte) (xs : List α) :
    listBytes (xs.map f) = be2 xs.length ++ xs.flatMap f := by
  rw [listBytes, List.length_map, List.flatMap_def]

/-! ### The mask and the level of a source (R161) -/

/-- A source after its mask and its level are written, with its holdoff timer. -/
def Source.remasked (mask : Option Bool) (level period : Nat) (k : SourceNo) (x : Source) : Source :=
  { x with
    masked := mask.getD x.masked, level := keepOr 0 1 7 x.level level
    holdoff := if x.masked = mask.getD x.masked ∨ x.pending = false then x.holdoff
      else if mask.getD x.masked then none
      else if isLevelSource k then some period
      else x.holdoff }

/-- A write of a mask sets the status of a source. -/
def Source.rises (mask : Option Bool) (x : Source) : Bool := mask == some false && x.pending && x.masked

/-- A source written, before any notice frame. -/
def writtenAt (mask : Option Bool) (level : Nat) (k : SourceNo) (s : State) : State :=
  s.setSource k ((s.source k).remasked mask level s.ntu.dest.holdoff k)

theorem writeNotice_by_rise (mask : Option Bool) (level : Nat) (k : SourceNo) (s : State) :
    writeNotice mask level k s =
      if (s.source k).rises mask then issue k (writtenAt mask level k s) else writtenAt mask level k s := by
  unfold writeNotice writtenAt Source.remasked Source.rises Source.status
  generalize s.source k = x
  obtain ⟨masked, lvl, pending, count, detail, holdoff⟩ := x
  obtain _ | mask := mask
  · cases masked <;> cases pending <;> simp
  · cases mask <;> cases masked <;> cases pending <;> simp
    split <;> rfl

/-- What a write of a source changes of the others, where its notice frame cannot count a wrap. -/
structure WritesOne (k : SourceNo) (s t : State) : Prop where
  sources : ∀ j, j ≠ k → t.source j = s.source j
  pending : ∀ j, (t.source j).pending = (s.source j).pending
  dest : t.ntu.dest = s.ntu.dest
  sid : t.sid = s.sid
  usable : t.usable = s.usable

theorem writtenAt_writes (mask : Option Bool) (level : Nat) (k : SourceNo) (s : State) :
    WritesOne k s (writtenAt mask level k s) where
  sources j h := State.source_setSource_of_ne _ _ h
  pending j := by
    unfold writtenAt
    rw [State.source_setSource]
    split
    · subst_vars; rfl
    · rfl
  dest := rfl
  sid := rfl
  usable := rfl

/-- A state whose sources, destination, SID and ports are those after a write. -/
theorem WritesOne.congr {k : SourceNo} {s t u : State} (h : WritesOne k s t) (hsource : ∀ j, u.source j = t.source j)
    (hdest : u.ntu.dest = t.ntu.dest) (hsid : u.sid = t.sid) (husable : u.usable = t.usable) : WritesOne k s u where
  sources j hj := (hsource j).trans (h.sources j hj)
  pending j := by rw [hsource, h.pending]
  dest := hdest.trans h.dest
  sid := hsid.trans h.sid
  usable := husable.trans h.usable

theorem WritesOne.pendingSet {k : SourceNo} {s t : State} (h : WritesOne k s t) : pendingSet t = pendingSet s := by
  unfold Machine.pendingSet
  simp only [h.pending]

/-- The sources of a list whose status a write sets. -/
def risingOf (mask : Option Bool) (ks : List SourceNo) (s : State) : List SourceNo :=
  ks.filter (fun k => (s.source k).rises mask)

theorem risingOf_cons_of_rises {mask : Option Bool} {k : SourceNo} {s : State} (ks : List SourceNo)
    (h : (s.source k).rises mask = true) : risingOf mask (k :: ks) s = k :: risingOf mask ks s :=
  List.filter_cons_of_pos h

theorem risingOf_cons_of_not {mask : Option Bool} {k : SourceNo} {s : State} (ks : List SourceNo)
    (h : ¬(s.source k).rises mask = true) : risingOf mask (k :: ks) s = risingOf mask ks s :=
  List.filter_cons_of_neg h

theorem not_mem_risingOf {mask : Option Bool} {k : SourceNo} {ks : List SourceNo} {s : State} (h : k ∉ ks) :
    k ∉ risingOf mask ks s := fun hk => h (List.mem_of_mem_filter hk)

theorem WritesOne.risingOf {k : SourceNo} {s t : State} (h : WritesOne k s t) {ks : List SourceNo} (hk : k ∉ ks)
    (mask : Option Bool) : risingOf mask ks t = risingOf mask ks s := by
  refine List.filter_congr fun j hj => ?_
  rw [h.sources j fun hjk => hk (hjk ▸ hj)]

/-- The notice frame of a source whose level a SET-NOTICE writes (R159, R161). -/
def writtenRequest (level : Nat) (sid : Sid) (s : State) (k : SourceNo) : EnqueueRequest :=
  { queues := [(s.ntu.dest.trunk.port, .u)], kind := .notice
    body := .originated .notice (originatedBytes .notice false s.sid sid
      (be2 (s.ntu.dest.codeBase * 256 + k.val) ++ be1 (keepOr 0 1 7 (s.source k).level level) ++
        be1 (s.source k).count ++ detailBytes (s.source k).detail ++ be1 0 ++ be1 (pendingSet s / 65536) ++
        be2 (pendingSet s))) }

theorem noticeRequest_writtenAt (mask : Option Bool) (level : Nat) (k : SourceNo) (sid : Sid) (s : State) :
    noticeRequest k sid (writtenAt mask level k s) = writtenRequest level sid s k := by
  have hpending := (writtenAt_writes mask level k s).pendingSet
  have hsource : (writtenAt mask level k s).source k = _ := State.source_setSource_self ..
  unfold noticeRequest noticePayload writtenRequest
  rw [hpending, hsource]
  rfl

theorem WritesOne.writtenRequests {k : SourceNo} {s t : State} (h : WritesOne k s t) {ks : List SourceNo} (hk : k ∉ ks)
    (level : Nat) (sid : Sid) : ks.map (writtenRequest level sid t) = ks.map (writtenRequest level sid s) := by
  refine List.map_congr_left fun j hj => ?_
  unfold writtenRequest
  rw [h.sources j fun hjk => hk (hjk ▸ hj), h.dest, h.sid, h.pendingSet]

section Writes

variable {mask : Option Bool} {level : Nat} {ks : List SourceNo}

/-- Where no notice frame is due or none can be addressed, a write of sources hands on nothing. -/
theorem writeNotices_quiet {s : State} (hks : ks.Nodup) (h : risingOf mask ks s = [] ∨ s.ntu.dest.sid = none) :
    (ks.foldl (fun t k => writeNotice mask level k t) s).flight = s.flight := by
  induction ks generalizing s with
  | nil => rfl
  | cons k ks ih =>
    obtain ⟨hk, hks⟩ := List.nodup_cons.1 hks
    have hwrite : writeNotice mask level k s = writtenAt mask level k s := by
      rw [writeNotice_by_rise]
      split
      · rename_i hrises
        obtain h | h := h
        · rw [risingOf_cons_of_rises ks hrises] at h
          exact nomatch h
        · exact issue_of_noDestination k (s := writtenAt mask level k s) h
      · rfl
    have written := writtenAt_writes mask level k s
    rw [List.foldl_cons, hwrite, ih hks]
    · rfl
    · refine h.imp (fun h => ?_) fun h => h
      rw [written.risingOf hk]
      rw [risingOf, List.filter_eq_nil_iff] at h ⊢
      exact fun j hj => h j (List.mem_cons_of_mem _ hj)

/-- Where notice frames go out, a write of sources hands on the frame of each source whose status it sets. -/
theorem writeNotices_handed {s : State} {sid : Sid} (hks : ks.Nodup) (hdest : s.ntu.dest.sid = some sid)
    (hup : s.usable s.ntu.dest.trunk.port = true) :
    (ks.foldl (fun t k => writeNotice mask level k t) s).flight = { s.flight with
      enqueues := s.flight.enqueues ++ (risingOf mask ks s).map (writtenRequest level sid s) } := by
  induction ks generalizing s with
  | nil => simp [risingOf]
  | cons k ks ih =>
    obtain ⟨hk, hks⟩ := List.nodup_cons.1 hks
    have written := writtenAt_writes mask level k s
    rw [List.foldl_cons, writeNotice_by_rise]
    split
    · rename_i hrises
      have hissue := issue_of_usable k (s := writtenAt mask level k s) hdest hup
      have wrote : WritesOne k s (issue k (writtenAt mask level k s)) := by
        rw [hissue]
        exact written.congr (fun _ => rfl) rfl rfl rfl
      rw [ih hks (by rw [wrote.dest]; exact hdest) (by rw [wrote.dest, wrote.usable]; exact hup), wrote.risingOf hk,
        wrote.writtenRequests (not_mem_risingOf hk), hissue, noticeRequest_writtenAt, risingOf_cons_of_rises ks hrises]
      show ({ s.flight with enqueues := s.flight.enqueues ++ [_] ++ _ } : Flight) = _
      rw [List.append_assoc]
      rfl
    · rename_i hrises
      rw [ih (s := writtenAt mask level k s) hks hdest hup, written.risingOf hk,
        written.writtenRequests (not_mem_risingOf hk), risingOf_cons_of_not ks hrises]
      rfl

/-- What is counted where notice frames are lost and no counter wraps (R160): `n` of them. -/
structure NoticesLost (trunk : Port) (n : Nat) (s t : State) : Prop where
  flight : t.flight = s.flight
  counter : (t.counter trunk 10).value = (s.counter trunk 10).value + n
  none : n = 0 → t.ctb.drops.get 9 = s.ctb.drops.get 9 ∧ t.ntu.lost = s.ntu.lost
  some : n ≠ 0 → t.ctb.drops.get 9 = min 4294967295 (s.ctb.drops.get 9 + n) ∧
    t.ntu.lost = min 4294967295 (s.ntu.lost + n)

theorem NoticesLost.trans {trunk : Port} {m n : Nat} {s t u : State} (h : NoticesLost trunk m s t)
    (g : NoticesLost trunk n t u) : NoticesLost trunk (m + n) s u := by
  obtain ⟨hflight, hcounter, hnone, hsome⟩ := h
  obtain ⟨gflight, gcounter, gnone, gsome⟩ := g
  refine ⟨gflight.trans hflight, by omega, fun h => ?_, fun h => ?_⟩
  · obtain ⟨hdrops, hlost⟩ := hnone (by omega)
    obtain ⟨gdrops, glost⟩ := gnone (by omega)
    exact ⟨gdrops.trans hdrops, glost.trans hlost⟩
  · by_cases hm : m = 0
    · obtain ⟨hdrops, hlost⟩ := hnone hm
      obtain ⟨gdrops, glost⟩ := gsome (by omega)
      rw [hdrops] at gdrops
      rw [hlost] at glost
      subst hm
      exact ⟨by rw [gdrops, Nat.zero_add], by rw [glost, Nat.zero_add]⟩
    · obtain ⟨hdrops, hlost⟩ := hsome hm
      by_cases hn : n = 0
      · obtain ⟨gdrops, glost⟩ := gnone hn
        subst hn
        exact ⟨gdrops.trans hdrops, glost.trans hlost⟩
      · obtain ⟨gdrops, glost⟩ := gsome hn
        exact ⟨by omega, by omega⟩

/-- The effect of a notice frame that is lost, where its count does not wrap. -/
theorem issue_loses (k : SourceNo) {s : State} {sid : Sid} (hdest : s.ntu.dest.sid = some sid)
    (hdown : s.usable s.ntu.dest.trunk.port = false)
    (hvalue : (s.counter s.ntu.dest.trunk.port 10).value < 4294967295) :
    NoticesLost s.ntu.dest.trunk.port 1 s (issue k s) ∧ (∀ j, (issue k s).source j = s.source j) ∧
      (issue k s).ntu.dest = s.ntu.dest := by
  have hissue : issue k s = _ := (issue_of_lost k hdest hdown).trans (bump_of_noWrap hvalue)
  rw [hissue]
  refine ⟨⟨rfl, ?_, fun h => absurd h (by decide), fun _ => ⟨?_, rfl⟩⟩, fun _ => rfl, rfl⟩
  · rw [State.counter_setCounter, if_pos ⟨rfl, rfl⟩]
    rfl
  · exact (addDrop_drops ..).trans (if_pos rfl)

/-- Where notice frames are lost and no counter wraps, a write of sources counts the frame of each source whose status
it sets. -/
theorem writeNotices_lost {s : State} {sid : Sid} (hks : ks.Nodup) (hdest : s.ntu.dest.sid = some sid)
    (hdown : s.usable s.ntu.dest.trunk.port = false)
    (hvalue : (s.counter s.ntu.dest.trunk.port 10).value + (risingOf mask ks s).length ≤ 4294967295) :
    NoticesLost s.ntu.dest.trunk.port (risingOf mask ks s).length s
      (ks.foldl (fun t k => writeNotice mask level k t) s) := by
  induction ks generalizing s with
  | nil => exact ⟨rfl, rfl, fun _ => ⟨rfl, rfl⟩, fun h => absurd rfl h⟩
  | cons k ks ih =>
    obtain ⟨hk, hks⟩ := List.nodup_cons.1 hks
    have written := writtenAt_writes mask level k s
    rw [List.foldl_cons, writeNotice_by_rise]
    split
    · rename_i hrises
      have hlength : (risingOf mask (k :: ks) s).length = 1 + (risingOf mask ks s).length := by
        rw [risingOf_cons_of_rises ks hrises, List.length_cons, Nat.add_comm]
      rw [hlength] at hvalue ⊢
      obtain ⟨hlost, hsources, hkept⟩ := issue_loses k (s := writtenAt mask level k s) hdest hdown
        (show (s.counter s.ntu.dest.trunk.port 10).value < _ by omega)
      have wrote : WritesOne k s (issue k (writtenAt mask level k s)) :=
        have reports := issue_reportsOnly k (writtenAt mask level k s)
        written.congr hsources hkept (reports.agrees.same .sid (by decide)) reports.usable
      have hcounter := hlost.counter
      have rest := ih (s := issue k (writtenAt mask level k s)) hks (by rw [wrote.dest]; exact hdest)
        (by rw [wrote.dest, wrote.usable]; exact hdown) (by
          rw [wrote.dest, wrote.risingOf hk]
          have : ((writtenAt mask level k s).counter s.ntu.dest.trunk.port 10).value =
            (s.counter s.ntu.dest.trunk.port 10).value := rfl
          exact le_trans (Nat.add_le_add_right hcounter.le _) (by rw [Nat.add_assoc]; exact hvalue))
      rw [wrote.dest, wrote.risingOf hk] at rest
      have first : NoticesLost s.ntu.dest.trunk.port 1 s (issue k (writtenAt mask level k s)) :=
        ⟨hlost.flight, hlost.counter, hlost.none, hlost.some⟩
      exact first.trans rest
    · rename_i hrises
      have hrising : risingOf mask (k :: ks) s = risingOf mask ks s := risingOf_cons_of_not ks hrises
      rw [hrising] at hvalue ⊢
      have rest := ih (s := writtenAt mask level k s) hks hdest hdown (by rw [written.risingOf hk]; exact hvalue)
      rw [written.risingOf hk] at rest
      exact ⟨rest.flight, rest.counter, rest.none, rest.some⟩

/-- What a write of sources leaves of each source, whatever becomes of its notice frames. -/
theorem writeNotices_sources (hks : ks.Nodup) (s : State) :
    (∀ k, k ≠ 22 → (ks.foldl (fun t k => writeNotice mask level k t) s).source k =
      if k ∈ ks then (s.source k).remasked mask level s.ntu.dest.holdoff k else s.source k) ∧
    (ks.foldl (fun t k => writeNotice mask level k t) s).ntu.dest = s.ntu.dest ∧
    ReportsOnly s (ks.foldl (fun t k => writeNotice mask level k t) s) := by
  induction ks generalizing s with
  | nil => exact ⟨fun _ _ => rfl, rfl, .refl s⟩
  | cons j ks ih =>
    obtain ⟨hj, hks⟩ := List.nodup_cons.1 hks
    have step : (∀ k, k ≠ 22 → (writeNotice mask level j s).source k = (writtenAt mask level j s).source k) ∧
        (writeNotice mask level j s).ntu.dest = s.ntu.dest ∧ ReportsOnly s (writeNotice mask level j s) := by
      rw [writeNotice_by_rise]
      split
      · have noted := issue_noted j (writtenAt mask level j s)
        exact ⟨noted.sources, noted.dest.1, (setSource_reportsOnly j _ s).trans noted.frame⟩
      · exact ⟨fun _ _ => rfl, rfl, setSource_reportsOnly j _ s⟩
    obtain ⟨hsources, hdest, hframe⟩ := step
    obtain ⟨rest, restDest, restFrame⟩ := ih hks (writeNotice mask level j s)
    rw [List.foldl_cons]
    refine ⟨fun k hk => ?_, restDest.trans hdest, hframe.trans restFrame⟩
    rw [rest k hk, hsources k hk, hdest]
    by_cases hkj : k = j
    · subst hkj
      rw [if_neg hj, if_pos (List.mem_cons_self ..)]
      exact State.source_setSource_self ..
    · rw [(writtenAt_writes mask level j s).sources k hkj]
      simp [hkj]

end Writes

/-! ### SET-NOTICE -/

theorem maskOfCode_none {m : Nat} (h : 1 < m ∧ m ≠ 255) : maskOfCode m = none := by
  rw [maskOfCode, if_neg (by omega), if_neg (by omega), if_neg h.2]

/-- The mask that a mask code writes: each code, with what it makes of a mask and of a status. -/
theorem maskOfCode_some {m : Nat} (h : m ≤ 1 ∨ m = 255) :
    ∃ mask, maskOfCode m = some mask ∧ (∀ old : Bool, mask.getD old = if m = 255 then old else m == 1) ∧
      (mask == some false) = (m == 0) := by
  obtain rfl | rfl | rfl : m = 0 ∨ m = 1 ∨ m = 255 := by omega
  · exact ⟨some false, rfl, fun _ => rfl, rfl⟩
  · exact ⟨some true, rfl, fun _ => rfl, rfl⟩
  · exact ⟨none, rfl, fun _ => rfl, rfl⟩

theorem keepOr_one_seven (old n : Nat) : keepOr 0 1 7 old n = if n = 0 then old else min 7 n := by
  unfold keepOr clampTo
  split
  · rfl
  · omega

theorem takeSetNotice_bad {n m : Nat} (v : Nat) (s : State) (h : (23 < n ∧ n ≠ 255) ∨ (1 < m ∧ m ≠ 255)) :
    takeSetNotice n m v s = refuse .badArgument s := by
  unfold takeSetNotice
  obtain h | h := h
  · rw [sourcesOfCode_none h]
  · rw [maskOfCode_none h]
    cases sourcesOfCode n <;> rfl

theorem takeSetNotice_eq {n m : Nat} (v : Nat) (s : State) {ks : List SourceNo} {mask : Option Bool}
    (hks : sourcesOfCode n = some ks) (hmask : maskOfCode m = some mask) {u : State}
    (hu : ks.foldl (fun t k => writeNotice mask v k t) s = u) :
    takeSetNotice n m v s =
      ⟨if v ≤ 7 then .ok else .clamped, be2 ks.length ++ ks.flatMap (fun k => sourceBytes k (u.source k)), u⟩ := by
  have kept : decide (7 < v) = false ↔ v ≤ 7 := by
    rw [decide_eq_false_iff_not]
    omega
  unfold takeSetNotice
  rw [hks, hmask]
  dsimp only
  rw [hu, taken_eq_ite kept, listBytes_map]

/-! ### SET-NOTICE-DEST -/

theorem issues_frame (ks : List SourceNo) (s : State) :
    (∀ k, k ≠ 22 → (ks.foldl (fun t k => issue k t) s).source k = s.source k) ∧
      (ks.foldl (fun t k => issue k t) s).ntu.dest = s.ntu.dest ∧
      ReportsOnly s (ks.foldl (fun t k => issue k t) s) := by
  induction ks generalizing s with
  | nil => exact ⟨fun _ _ => rfl, rfl, .refl s⟩
  | cons k ks ih =>
    have noted := issue_noted k s
    obtain ⟨hsources, hdest, hframe⟩ := ih (issue k s)
    exact ⟨fun j hj => (hsources j hj).trans (noted.sources j hj), hdest.trans noted.dest.1, noted.frame.trans hframe⟩

/-- A destination that becomes present, at a usable port, takes a notice frame of each source named. -/
theorem issues_handed (ks : List SourceNo) {s : State} {sid : Sid} (hdest : s.ntu.dest.sid = some sid)
    (hup : s.usable s.ntu.dest.trunk.port = true) :
    (ks.foldl (fun t k => issue k t) s).flight.enqueues.length = s.flight.enqueues.length + ks.length := by
  induction ks generalizing s with
  | nil => rfl
  | cons k ks ih =>
    have hissue := issue_of_usable k hdest hup
    rw [List.foldl_cons, hissue, ih (s := handOff (noticeRequest k sid s) s) hdest hup]
    show (s.flight.enqueues ++ [_]).length + _ = _
    rw [List.length_append, List.length_cons, List.length_cons, List.length_nil]
    omega

/-- The effect of SET-NOTICE-DEST (R162). -/
theorem takeSetNoticeDest_eq {f tr : Nat} {sid : Sid} (base h : Nat) (s : State) (hf : f ≤ 1) (htr : tr ≤ 1)
    (hsid : f = 1 → sid ≠ 0) {d : NoticeDest}
    (hd : d = { sid := if f = 1 then some sid else none, trunk := if tr = 0 then .t0 else .t1, codeBase := base
                holdoff := max 1 (min 60 h) }) :
    takeSetNoticeDest f sid tr base h s =
      ⟨if 1 ≤ h ∧ h ≤ 60 then .ok else .clamped, optBytes 4 sidBytes d.sid ++ be1 tr ++ be1 base ++ be1 d.holdoff,
        if s.ntu.dest.sid.isNone && d.sid.isSome then issueAll { s with ntu := { s.ntu with dest := d } }
        else { s with ntu := { s.ntu with dest := d } }⟩ := by
  have kept : (d.holdoff != h) = false ↔ 1 ≤ h ∧ h ≤ 60 := by
    rw [bne_eq_false_iff_eq, hd]
    dsimp only
    omega
  have hcode : be1 d.trunk.code = be1 tr := by
    rw [hd]
    exact flagByte_code tr htr
  have hbytes : destBytes d = optBytes 4 sidBytes d.sid ++ be1 tr ++ be1 base ++ be1 d.holdoff := by
    rw [destBytes, hcode, hd]
  unfold takeSetNoticeDest
  rw [if_neg (by
    rintro (h | h | ⟨h, h0⟩)
    · omega
    · omega
    · exact hsid h h0)]
  subst hd
  refine (taken_eq_ite kept _ _).trans ?_
  rw [← hbytes]
  rfl

/-! ### READ-NOTICE and CLEAR-NOTICE -/

theorem clearSources_source (ks : List SourceNo) (s : State) (k : SourceNo) :
    (ks.foldl (fun t k => clearSource k t) s).source k =
      if k ∈ ks ∧ isLevelSource k = false then { s.source k with pending := false, count := 0, detail := none }
      else s.source k := by
  induction ks generalizing s with
  | nil => simp
  | cons j ks ih =>
    rw [List.foldl_cons, ih]
    unfold clearSource
    by_cases hj : isLevelSource j = true
    · rw [if_pos hj]
      by_cases hkj : k = j
      · subst hkj
        simp [hj]
      · simp [hkj]
    · rw [if_neg hj]
      by_cases hkj : k = j
      · subst hkj
        simp [hj]
      · simp [hkj, State.source_setSource_of_ne _ _ hkj]

theorem clearSources_frame (ks : List SourceNo) (s : State) :
    ks.foldl (fun t k => clearSource k t) s =
      { s with ntu := { s.ntu with sources := (ks.foldl (fun t k => clearSource k t) s).ntu.sources } } := by
  induction ks generalizing s with
  | nil => rfl
  | cons j ks ih =>
    rw [List.foldl_cons, ih (clearSource j s)]
    unfold clearSource
    split <;> rfl

/-- Settles O45. -/
theorem noticeCommandsWriteAndRead : Obligations.NoticeCommandsWriteAndRead := by
  refine ⟨fun n m v s e hs => ⟨fun hbad => exec_of_awaits hs rfl (takeSetNotice_bad v s hbad), fun hn hm => ?_⟩,
    fun f sid tr base h s e hs => ⟨fun hbad => exec_of_awaits hs rfl (if_pos hbad), fun hf htr hsid => ?_⟩,
    fun n c s e hs => ⟨fun hbad => exec_of_awaits hs rfl ?_, fun hn hc => exec_of_awaits hs rfl ?_⟩,
    fun n s e hs => ⟨fun hbad => exec_of_awaits hs rfl ?_, fun hn => ?_⟩⟩
  · intro named ks
    obtain ⟨mask, hmask, hgetD, hrise⟩ := maskOfCode_some hm
    have hnodup : ks.Nodup := (List.nodup_finRange 24).filter _
    have hmem (k : SourceNo) : k ∈ ks ↔ named k := by simp [ks]
    obtain ⟨hsources, hdest, hframe⟩ := writeNotices_sources (mask := mask) (level := v) hnodup s
    have hrising : risingOf mask ks s = ks.filter (fun k => m == 0 && (s.source k).pending && (s.source k).masked) := by
      refine List.filter_congr fun k _ => ?_
      rw [Source.rises, hrise]
    refine ⟨_, exec_of_awaits hs rfl (takeSetNotice_eq v s (sourcesOfCode_some hn) hmask rfl), fun k hk h22 => ?_,
      fun k hk h22 => ?_, hdest, hframe, ?_⟩
    · refine (hsources k h22).trans ((if_pos ((hmem k).2 hk)).trans ?_)
      rw [Source.remasked, hgetD, keepOr_one_seven]
    · exact (hsources k h22).trans (if_neg fun h => hk ((hmem k).1 h))
    · intro rising
      have hrising : risingOf mask ks s = rising := hrising
      refine ⟨fun h => writeNotices_quiet hnodup (h.imp_left fun h => hrising.trans h), fun d hd => ?_⟩
      intro trunk frame frames
      have htrunk : s.ntu.dest.trunk.port = trunk := Trunk.port_eq _
      refine ⟨fun hup => ?_, fun hdown hvalue => ?_⟩
      · refine (writeNotices_handed hnodup hd (by rw [htrunk]; exact hup)).trans ?_
        rw [hrising]
        have hframes : rising.map (writtenRequest v d s) = frames := by
          refine List.map_congr_left fun k _ => ?_
          rw [writtenRequest, htrunk, keepOr_one_seven]
        rw [hframes]
      · have lost := writeNotices_lost (mask := mask) (level := v) hnodup hd (by rw [htrunk]; exact hdown)
          (by rw [htrunk, hrising]; exact hvalue)
        rw [htrunk, hrising] at lost
        refine ⟨lost.flight, ?_, ⟨fun h => (lost.none h).1, fun h => (lost.some h).1⟩,
          fun h => (lost.some fun h0 => h (List.length_eq_zero_iff.1 h0)).2⟩
        exact lost.counter.trans (Nat.mod_eq_of_lt (Nat.lt_succ_of_le hvalue)).symm
  · intro d
    have htaken := takeSetNoticeDest_eq base h s hf htr hsid (d := d) rfl
    refine ⟨_, exec_of_awaits hs rfl htaken, ?_⟩
    by_cases hissue : f = 1 ∧ s.ntu.dest.sid = none
    · have hd : d.sid = some sid := if_pos hissue.1
      rw [if_pos (by rw [hissue.2, hd]; rfl)]
      unfold issueAll
      generalize hks : (List.finRange 24).filter
        (fun k => (({ s with ntu := { s.ntu with dest := d } } : State).source k).status) = ks
      have hcount : ks.length = (List.finRange 24).countP (fun k => (s.source k).status) := by
        rw [List.countP_eq_length_filter, ← hks]
        rfl
      obtain ⟨hsources, hdest, hframe⟩ := issues_frame ks { s with ntu := { s.ntu with dest := d } }
      refine ⟨hdest, hsources, fun h => ?_, fun _ _ hup => ?_, (setNtu_reportsOnly _ s).trans hframe⟩
      · exact absurd h (by rw [hissue.1, hissue.2]; decide)
      · rw [hframe.usable] at hup
        rw [issues_handed ks (s := { s with ntu := { s.ntu with dest := d } }) hd hup, hcount]
    · have hquiet : ¬(s.ntu.dest.sid.isNone && d.sid.isSome) = true := by
        intro h
        rw [Bool.and_eq_true, Option.isNone_iff_eq_none] at h
        refine hissue ⟨by_contra fun hf1 => ?_, h.1⟩
        have hd : d.sid = none := if_neg hf1
        rw [hd] at h
        exact nomatch h.2
      rw [if_neg hquiet]
      exact ⟨rfl, fun _ _ => rfl, fun _ => rfl, fun hf1 hnone _ => absurd ⟨hf1, hnone⟩ hissue, rfl⟩
  · unfold takeReadNotice
    obtain h | h := hbad
    · rw [sourcesOfCode_none h]
      rfl
    · cases sourcesOfCode n with
      | none => rfl
      | some ks => exact if_pos h
  · unfold takeReadNotice
    rw [sourcesOfCode_some hn]
    dsimp only
    rw [if_neg (by omega), noticeBytes, listBytes_map]
    obtain rfl | rfl : c = 0 ∨ c = 1 := by omega
    · rfl
    · rfl
  · unfold takeClearNotice
    rw [sourcesOfCode_none hbad]
    rfl
  · intro ks
    have hks : ((List.finRange 24).filter (fun k => decide (n = k.val ∨ n = 255))).filter (fun k => !isLevelSource k) =
        ks := by
      rw [List.filter_filter]
      exact List.filter_congr fun k _ => Bool.and_comm ..
    have htaken : takeClearNotice n s = ⟨.ok, be2 ks.length ++
        ks.flatMap (fun k => be1 (s.source k).count ++ detailBytes (s.source k).detail),
        ((List.finRange 24).filter (fun k => decide (n = k.val ∨ n = 255))).foldl (fun t k => clearSource k t) s⟩ := by
      unfold takeClearNotice
      rw [sourcesOfCode_some hn]
      dsimp only
      rw [hks, listBytes_map]
      rfl
    refine ⟨_, exec_of_awaits hs rfl htaken, fun k => ?_, clearSources_frame ..⟩
    refine (clearSources_source ..).trans (if_congr ?_ rfl rfl)
    simp [ks]

end Sys2Proof.Machine
end

section
/-! What a received frame comes to: classification, policing, learning and dispatch (R33, R34, R38 to R41, R167): O13, O14
and O15. -/

namespace Sys2Proof.Machine

/-! ### Counting a received frame leaves what classification reads -/

theorem CountedOnly.classified {p : Port} {raw : List Byte} {s u : State} (h : CountedOnly p raw s u) (x : Sid) :
    classify u.idc x = classify s.idc x ∧ u.domain = s.domain := by
  obtain ⟨-, -, hidc, -⟩ := h.same
  exact ⟨by rw [hidc], by unfold State.domain; rw [hidc]⟩

theorem CountedOnly.part {p : Port} {raw : List Byte} {s u : State} (h : CountedOnly p raw s u) : u.sid = s.sid :=
  h.same.2.2.2.1

/-- A frame counted at a quay port goes to uplink classification. -/
theorem received_uplink {q : QPort} {raw : List Byte} {kind : Kind} {s : State} (h : Received (QPort.port q) raw kind s)
    (hr : s.part = .running) : exec (.frameReceived (QPort.port q) raw) s =
      .next (receiveUplink (readFrame (frameBody raw) kind) q (countReceived (QPort.port q) (frameBody raw) s)) := by
  rw [received_form h hr, quay_port]

theorem received_downlink {p : Port} {raw : List Byte} {kind : Kind} {s : State} (h : Received p raw kind s)
    (hr : s.part = .running) (hp : Port.isQuay p = false) : exec (.frameReceived p raw) s =
      .next (receiveDownlink (readFrame (frameBody raw) kind) p (countReceived p (frameBody raw) s)) := by
  rw [received_form h hr, quay_none hp]

/-! ### Frames dropped at classification (R33, R34, R38) -/

/-- A frame of no class takes UNCLASSIFIED and changes nothing else. -/
theorem dropUnclassified_dropped {p : Port} {raw : List Byte} {s u : State} (h : CountedOnly p raw s u) (f : Frame) :
    DropRises 3 1 s (dropUnclassified f u) ∧ TookEvent 7 (.sid f.station) s (dropUnclassified f u) ∧
      DroppedAtReception p raw 3 s (dropUnclassified f u) ∧
      ∀ k, k ≠ 7 → k ≠ 22 → (dropUnclassified f u).source k = s.source k := by
  have dropped := h.then_drop (r := 3) (by decide) (countsDrop_none p 3 u)
  have raised := raise_eventRaised 7 (.sid f.station) (addDrop 3 1 u) (by decide)
  have both := dropped.then_event (by decide) raised
  refine ⟨both.reason, ?_, both, fun k hk h22 => (raised.sources k hk h22).trans (h.sources k h22)⟩
  have hsource : (addDrop 3 1 u).source 7 = s.source 7 := h.sources 7 (by decide)
  have event := raised.event
  unfold TookEvent at event ⊢
  rw [hsource] at event
  exact event

theorem dropDirection_dropped {p : Port} {raw : List Byte} {s u : State} (h : CountedOnly p raw s u) (f : Frame) :
    DropRises 5 1 s (raise 23 (.sid f.station) (addDrop 5 1 u)) ∧
      TookEvent 23 (.sid f.station) s (raise 23 (.sid f.station) (addDrop 5 1 u)) ∧
      DroppedAtReception p raw 5 s (raise 23 (.sid f.station) (addDrop 5 1 u)) ∧
      ∀ k, k ≠ 23 → k ≠ 22 → (raise 23 (.sid f.station) (addDrop 5 1 u)).source k = s.source k := by
  have dropped := h.then_drop (r := 5) (by decide) (countsDrop_none p 5 u)
  have raised := raise_eventRaised 23 (.sid f.station) (addDrop 5 1 u) (by decide)
  have both := dropped.then_event (by decide) raised
  refine ⟨both.reason, ?_, both, fun k hk h22 => (raised.sources k hk h22).trans (h.sources k h22)⟩
  have hsource : (addDrop 5 1 u).source 23 = s.source 23 := h.sources 23 (by decide)
  have event := raised.event
  unfold TookEvent at event ⊢
  rw [hsource] at event
  exact event

section Classification

variable {p : Port} {f : Frame} {q : QPort} {u : State} {c : IdClass}

theorem receiveUplink_unclassified (hpart : uplinkToPart u f = false) (h : classify u.idc f.station = none) :
    receiveUplink f q u = dropUnclassified f u := by
  simp only [receiveUplink, hpart, h, Bool.false_eq_true, if_false]

theorem receiveUplink_disabled (hpart : uplinkToPart u f = false) (h : classify u.idc f.station = some c)
    (hoff : (u.domain c.domain).enabled = false) : receiveUplink f q u = addDrop 4 1 u := by
  simp only [receiveUplink, hpart, h, hoff, Bool.false_eq_true, if_false, if_true]

theorem receiveUplink_policed (hpart : uplinkToPart u f = false) (h : classify u.idc f.station = some c)
    (hon : (u.domain c.domain).enabled = true) : receiveUplink f q u = policed f q (dispatchUplink f q c) u := by
  simp only [receiveUplink, hpart, h, hon, Bool.false_eq_true, Bool.true_eq_false, if_false]

theorem receiveDownlink_unclassified (hpart : downlinkToPart u f = false) (h : classify u.idc f.station = none) :
    receiveDownlink f p u = dropUnclassified f u := by
  simp only [receiveDownlink, hpart, h, Bool.false_eq_true, if_false]

theorem receiveDownlink_disabled (hpart : downlinkToPart u f = false) (h : classify u.idc f.station = some c)
    (hoff : (u.domain c.domain).enabled = false) : receiveDownlink f p u = addDrop 4 1 u := by
  simp only [receiveDownlink, hpart, h, hoff, Bool.false_eq_true, if_false, if_true]

theorem receiveDownlink_uplinkOnly (hpart : downlinkToPart u f = false) (h : classify u.idc f.station = some c)
    (hon : (u.domain c.domain).enabled = true) (hup : c.options.uplinkOnly = true) :
    receiveDownlink f p u = raise 23 (.sid f.station) (addDrop 5 1 u) := by
  simp only [receiveDownlink, hpart, h, hon, hup, Bool.false_eq_true, Bool.true_eq_false, if_false, if_true]

theorem receiveDownlink_dispatched (hpart : downlinkToPart u f = false) (h : classify u.idc f.station = some c)
    (hon : (u.domain c.domain).enabled = true) (hup : c.options.uplinkOnly = false) :
    receiveDownlink f p u = dispatchDownlink f p c u := by
  simp only [receiveDownlink, hpart, h, hon, hup, Bool.false_eq_true, Bool.true_eq_false, if_false]

theorem uplinkToPart_eq_false (h : f.kind = .managementCommand → f.peer ≠ u.sid) : uplinkToPart u f = false := by
  unfold uplinkToPart
  by_cases hkind : f.kind = .managementCommand
  · simp [h hkind]
  · simp [hkind]

theorem downlinkToPart_eq_false (h : f.kind = .managementCommand → f.station ≠ u.sid) : downlinkToPart u f = false := by
  unfold downlinkToPart
  by_cases hkind : f.kind = .managementCommand
  · simp [h hkind]
  · simp [hkind]

end Classification

theorem quay_cases (p : Port) : (∃ q, p = QPort.port q ∧ Port.isQuay p = true) ∨ Port.isQuay p = false := by
  revert p
  decide

/-- A frame whose class's domain is disabled is dropped with that reason alone. -/
theorem dropDisabled_dropped {p : Port} {raw : List Byte} {s u : State} (h : CountedOnly p raw s u) :
    DropRises 4 1 s (addDrop 4 1 u) ∧ DroppedAtReception p raw 4 s (addDrop 4 1 u) ∧
      ∀ k, k ≠ 22 → (addDrop 4 1 u).source k = s.source k := by
  have dropped := h.then_drop (r := 4) (by decide) (countsDrop_none p 4 u)
  exact ⟨dropped.reason, dropped, h.sources⟩

/-- Settles O14: at a quay port by uplink, at a trunk port by downlink classification. -/
theorem classificationDropsInOrder : Obligations.ClassificationDropsInOrder := by
  intro p raw kind s hr hreceived f hpart
  have counted := countReceived_counted p raw s
  obtain ⟨hclassify, hdomain⟩ := counted.classified f.station
  have hsid := counted.part
  obtain ⟨q, rfl, hquay⟩ | hquay := quay_cases p
  · have hexec := received_uplink hreceived hr
    generalize countReceived (QPort.port q) (frameBody raw) s = u at *
    have hnot : uplinkToPart u f = false := uplinkToPart_eq_false fun hk => by
      have := hpart hk
      rw [if_pos hquay] at this
      rw [hsid]
      exact this
    refine ⟨fun h => ?_, fun c h hoff => ?_, fun c h hon hdown => absurd hquay (by rw [hdown]; decide)⟩
    · exact ⟨_, hexec.trans (congrArg _ (receiveUplink_unclassified hnot (hclassify.trans h))), dropUnclassified_dropped counted f⟩
    · exact ⟨_, hexec.trans (congrArg _ (receiveUplink_disabled hnot (hclassify.trans h) (by rw [hdomain]; exact hoff))), dropDisabled_dropped counted⟩
  · have hexec := received_downlink hreceived hr hquay
    generalize countReceived p (frameBody raw) s = u at *
    have hnot : downlinkToPart u f = false := downlinkToPart_eq_false fun hk => by
      have := hpart hk
      rw [if_neg (by rw [hquay]; decide)] at this
      rw [hsid]
      exact this
    refine ⟨fun h => ?_, fun c h hoff => ?_, fun c h hon _ hup => ?_⟩
    · exact ⟨_, hexec.trans (congrArg _ (receiveDownlink_unclassified hnot (hclassify.trans h))), dropUnclassified_dropped counted f⟩
    · exact ⟨_, hexec.trans (congrArg _ (receiveDownlink_disabled hnot (hclassify.trans h) (by rw [hdomain]; exact hoff))), dropDisabled_dropped counted⟩
    · exact ⟨_, hexec.trans (congrArg _ (receiveDownlink_uplinkOnly hnot (hclassify.trans h) (by rw [hdomain]; exact hon) hup)), dropDirection_dropped counted f⟩

/-! ### Policing at ingress (R39) -/

section Policed

variable {f : Frame} {q : QPort} {next : State → State} {u : State}

theorem policed_conforms (h : Conforms (ingressBucket q (kindGroup f.kind)) f.length (QPort.port q) u) :
    policed f q next u = next (charged (ingressBucket q (kindGroup f.kind)) f.length (QPort.port q) u) := by
  simp only [policed, offer_conforms h, if_true]

theorem policed_held (h : ¬Conforms (ingressBucket q (kindGroup f.kind)) f.length (QPort.port q) u) :
    policed f q next u =
      dropAt (QPort.port q) 6 7 (heldBack (ingressBucket q (kindGroup f.kind)) f.length (QPort.port q) u) := by
  simp only [policed, offer_not_conforms h, Bool.false_eq_true, if_false]

end Policed

theorem dropAt_countsDrop (p : Port) {c : Fin 12} {r : Fin 20} (s : State) (hc : c ≠ 10) (hr : r ≠ 9) :
    CountsDrop p (some c) r s (dropAt p c r s) := countsDrop_some p c r s hc hr

/-- A charge changes a bucket alone. -/
theorem charged_frame (b : BucketNo) (n : Nat) (p : Port) (s : State) :
    charged b n p s = { s with fsq := (charged b n p s).fsq } := by
  unfold charged
  split <;> rfl

/-- A charge turns on the buckets and on the overhead of its port. -/
theorem charged_fsq_congr {b : BucketNo} {n : Nat} {p : Port} {s u : State} (hfsq : u.fsq = s.fsq)
    (hover : (u.port p).overhead = (s.port p).overhead) : (charged b n p u).fsq = (charged b n p s).fsq := by
  have hbucket : u.bucket b = s.bucket b := by unfold State.bucket; rw [hfsq]
  unfold charged frameCost
  rw [hbucket, hover]
  split
  · exact hfsq
  · simp only [State.setBucket, hfsq]
    rfl

/-! ### Command frames to the part (R167) -/

/-- A command frame that is accepted or refused is counted under MANAGEMENT-REFUSED at most, and nothing else
changes but the queue of the agent and what reports change. -/
theorem acceptCommand_frame (f : Frame) (p : Port) (sender : Sid) (s : State) :
    (∀ q k, k ≠ 10 → (acceptCommand f p sender s).counter q k = s.counter q k) ∧
      HandsOnNotices s (acceptCommand f p sender s) ∧
      ReportsOnly { s with mga := (acceptCommand f p sender s).mga } (acceptCommand f p sender s) := by
  have refused (k : SourceNo) (hk : k ≠ 22) :
      (∀ q j, j ≠ 10 → (raise k (.command p sender) (addDrop 18 1 s)).counter q j = s.counter q j) ∧
      HandsOnNotices s (raise k (.command p sender) (addDrop 18 1 s)) ∧
      ReportsOnly { s with mga := (raise k (.command p sender) (addDrop 18 1 s)).mga }
        (raise k (.command p sender) (addDrop 18 1 s)) := by
    have raised := raise_eventRaised k (.command p sender) (addDrop 18 1 s) hk
    have hmga : (raise k (.command p sender) (addDrop 18 1 s)).mga = s.mga := raised.frame.agrees.same .mga (by decide)
    refine ⟨fun q j hj => raised.counters q j hj, (HandsOnNotices.of_eq rfl).trans raised.handed, ?_⟩
    rw [hmga]
    exact (addDrop_reportsOnly 18 1 s).trans raised.frame
  unfold acceptCommand
  split
  · exact refused 18 (by decide)
  · split
    · exact ⟨fun _ _ _ => rfl, .of_eq rfl, rfl⟩
    · split
      · exact refused 19 (by decide)
      · exact ⟨fun _ _ _ => rfl, .of_eq rfl, rfl⟩

/-- A command frame that is refused is counted, and takes its event where its reason has one. -/
theorem refuseCommand_event {k : SourceNo} (d : Detail) (s : State) (hk : k ≠ 22) :
    (raise k d (addDrop 18 1 s)).ctb.drops.get 18 = min 4294967295 (s.ctb.drops.get 18 + 1) ∧
      TookEvent k d s (raise k d (addDrop 18 1 s)) ∧ (raise k d (addDrop 18 1 s)).mga = s.mga := by
  have raised := raise_eventRaised k d (addDrop 18 1 s) hk
  refine ⟨?_, raised.event, raised.frame.agrees.same .mga (by decide)⟩
  rw [raised.drops 18 (by decide), addDrop_drops, if_pos rfl]

/-- The judgement of a command frame that has been counted, over the state in which it came to the agent (R167). -/
theorem receiveCommand_judged (f : Frame) (p : Port) (sender : Sid) (s : State) :
    CounterRises p 8 1 s (receiveCommand f p sender s) ∧
    (∀ q k, k ≠ 10 → (q, k) ≠ (p, 8) → (receiveCommand f p sender s).counter q k = s.counter q k) ∧
    ((s.port p).permitted = false → DropRises 18 1 s (receiveCommand f p sender s) ∧
      TookEvent 18 (.command p sender) s (receiveCommand f p sender s) ∧ (receiveCommand f p sender s).mga = s.mga) ∧
    ((s.port p).permitted = true → f.payload.length < 4 →
      DropRises 18 1 s (receiveCommand f p sender s) ∧ (receiveCommand f p sender s).mga = s.mga) ∧
    ((s.port p).permitted = true → 4 ≤ f.payload.length → 4 ≤ s.mga.queue.length →
      DropRises 18 1 s (receiveCommand f p sender s) ∧
      TookEvent 19 (.command p sender) s (receiveCommand f p sender s) ∧ (receiveCommand f p sender s).mga = s.mga) ∧
    ((s.port p).permitted = true → 4 ≤ f.payload.length → s.mga.queue.length < 4 →
      (receiveCommand f p sender s).mga =
        { s.mga with queue := s.mga.queue ++ [⟨p, f.station, f.peer, f.payload⟩] }) ∧
    HandsOnNotices s (receiveCommand f p sender s) ∧
    ReportsOnly { s with mga := (receiveCommand f p sender s).mga } (receiveCommand f p sender s) := by
  have reports := bump_reportsOnly p 8 1 s
  have hmga : (bump p 8 1 s).mga = s.mga := reports.agrees.same .mga (by decide)
  have hport : (bump p 8 1 s).port p = s.port p := by unfold State.port; rw [reports.ports]
  have hsource (k : SourceNo) (hk : k ≠ 22) : (bump p 8 1 s).source k = s.source k := bump_source p 8 1 s k hk
  have hdrop : (bump p 8 1 s).ctb.drops.get 18 = s.ctb.drops.get 18 := bump_drops p 8 1 s (by decide)
  obtain ⟨hcounters, hhanded, hframe⟩ := acceptCommand_frame f p sender (bump p 8 1 s)
  have handed := (bump_handed p 8 1 s).trans hhanded
  have frame : ReportsOnly { s with mga := (receiveCommand f p sender s).mga } (receiveCommand f p sender s) := by
    unfold ReportsOnly at hframe reports ⊢
    rw [show receiveCommand f p sender s = acceptCommand f p sender (bump p 8 1 s) from rfl]
    generalize acceptCommand f p sender (bump p 8 1 s) = t at hframe
    rw [hframe, reports]
  have refused (k : SourceNo) (hk : k ≠ 22)
      (h : receiveCommand f p sender s = raise k (.command p sender) (addDrop 18 1 (bump p 8 1 s))) :
      DropRises 18 1 s (receiveCommand f p sender s) ∧
        TookEvent k (.command p sender) s (receiveCommand f p sender s) ∧ (receiveCommand f p sender s).mga = s.mga := by
    obtain ⟨drop, event, kept⟩ := refuseCommand_event (.command p sender) (bump p 8 1 s) hk
    unfold TookEvent at event
    rw [hsource k hk] at event
    rw [h]
    exact ⟨by rw [DropRises, drop, hdrop], event, kept.trans hmga⟩
  refine ⟨?_, fun q k hk hqk => ?_, fun hperm => ?_, fun hperm hlen => ?_, fun hperm hlen hfull => ?_,
    fun hperm hlen hroom => ?_, handed, frame⟩
  · unfold CounterRises
    rw [show (receiveCommand f p sender s).counter p 8 = _ from hcounters p 8 (by decide)]
    exact bump_counter p 8 1 s (by decide)
  · rw [show (receiveCommand f p sender s).counter q k = _ from hcounters q k hk]
    exact bump_counter_of_ne 1 s hk fun h => hqk (by rw [h.1, h.2])
  · exact refused 18 (by decide) (if_pos (by rw [hport]; exact hperm))
  · have h : receiveCommand f p sender s = addDrop 18 1 (bump p 8 1 s) :=
      (if_neg (by rw [hport, hperm]; decide)).trans (if_pos hlen)
    rw [h]
    refine ⟨?_, hmga⟩
    rw [DropRises, addDrop_drops, if_pos rfl, hdrop]
  · exact refused 19 (by decide) ((if_neg (by rw [hport, hperm]; decide)).trans
      ((if_neg (Nat.not_lt.2 hlen)).trans (if_pos (by rw [hmga]; exact hfull))))
  · have h : receiveCommand f p sender s = (bump p 8 1 s).setMga { (bump p 8 1 s).mga with
        queue := (bump p 8 1 s).mga.queue ++ [⟨p, f.station, f.peer, f.payload⟩] } :=
      (if_neg (by rw [hport, hperm]; decide)).trans
        ((if_neg (Nat.not_lt.2 hlen)).trans (if_neg (by rw [hmga]; exact Nat.not_le.2 hroom)))
    rw [h, hmga]
    rfl

/-- A command frame that has been counted and policed, over the state in which it arrived. -/
theorem commandFrame_judged {p : Port} {raw : List Byte} {s u : State} (counted : CountedOnly p raw s u) (y : Fsq)
    (f : Frame) (sender : Sid) {t : State} (ht : t = receiveCommand f p sender { u with fsq := y }) :
    CountedIn p raw s t ∧ CounterRises p 8 1 s t ∧ LearnsNeighbour p raw s t ∧ t.fsq = y ∧
    ((s.port p).permitted = false → DropRises 18 1 s t ∧ TookEvent 18 (.command p sender) s t ∧ t.mga = s.mga) ∧
    ((s.port p).permitted = true → f.payload.length < 4 → DropRises 18 1 s t ∧ t.mga = s.mga) ∧
    ((s.port p).permitted = true → 4 ≤ f.payload.length → 4 ≤ s.mga.queue.length →
      DropRises 18 1 s t ∧ TookEvent 19 (.command p sender) s t ∧ t.mga = s.mga) ∧
    ((s.port p).permitted = true → 4 ≤ f.payload.length → s.mga.queue.length < 4 →
      t.mga = { s.mga with queue := s.mga.queue ++ [⟨p, f.station, f.peer, f.payload⟩] }) ∧
    HandsOnNotices s t ∧
    t = { s with
      ports := t.ports, fsq := t.fsq, ntu := t.ntu, ctb := t.ctb, mga := t.mga
      flight := { s.flight with enqueues := t.flight.enqueues } } := by
  obtain ⟨-, -, -, -, -, -, hpermitted, hmga⟩ := counted.same
  obtain ⟨hrises, hcounters, hforeign, hshort, hfull, hqueued, hhanded, hframe⟩ :=
    receiveCommand_judged f p sender { u with fsq := y }
  rw [← ht] at hrises hcounters hforeign hshort hfull hqueued hhanded hframe
  have hperm : ({ u with fsq := y } : State).port p = u.port p := rfl
  have hagent : ({ u with fsq := y } : State).mga = s.mga := hmga
  rw [hperm, hpermitted p, hagent] at hforeign hshort hfull hqueued
  have drop (h : DropRises 18 1 { u with fsq := y } t) : DropRises 18 1 s t := by
    unfold DropRises at h ⊢
    rw [h]
    exact congrArg (fun x => min 4294967295 (x + 1)) (counted.drops 18 (by decide))
  have event {k : SourceNo} (hk : k ≠ 22) (h : TookEvent k (.command p sender) { u with fsq := y } t) :
      TookEvent k (.command p sender) s t := by
    unfold TookEvent at h ⊢
    rw [show ({ u with fsq := y } : State).source k = s.source k from counted.sources k hk] at h
    exact h
  have hcount (k : Fin 12) (hk : k ≠ 10) (h8 : k ≠ 8) : t.counter p k = u.counter p k :=
    hcounters p k hk fun h => h8 (Prod.mk.inj h).2
  have hports : t.ports = u.ports := by rw [hframe]
  refine ⟨?_, ?_, ?_, by rw [hframe], fun h => ?_, fun h hlen => ?_, fun h hlen hq => ?_, hqueued,
    counted.handed.trans hhanded, ?_⟩
  · have h := counted.counted
    unfold CountedIn CounterRises at *
    rw [hcount 0 (by decide) (by decide), hcount 1 (by decide) (by decide)]
    exact h
  · unfold CounterRises at hrises ⊢
    rw [hrises]
    exact congrArg (fun x : Counter => (x.value + 1) % 4294967296)
      (counted.counters p 8 (by decide) fun _ => ⟨by decide, by decide⟩)
  · unfold LearnsNeighbour
    rw [hports]
    exact counted.neighbour
  · obtain ⟨h1, h2, h3⟩ := hforeign h
    exact ⟨drop h1, event (by decide) h2, h3⟩
  · obtain ⟨h1, h2⟩ := hshort h hlen
    exact ⟨drop h1, h2⟩
  · obtain ⟨h1, h2, h3⟩ := hfull h hlen hq
    exact ⟨drop h1, event (by decide) h2, h3⟩
  · have frame := counted.frame
    unfold ReportsOnly at hframe
    rw [hframe, frame]

/-- A command frame of the part from a quay port is policed first. -/
theorem receiveUplink_command {f : Frame} {q : QPort} {u : State} (hkind : f.kind = .managementCommand)
    (h : f.peer = u.sid) :
    receiveUplink f q u = policed f q (receiveCommand f (QPort.port q) f.station) u := by
  unfold receiveUplink uplinkToPart
  rw [if_pos (by simp [hkind, h])]

theorem receiveDownlink_command {f : Frame} {p : Port} {u : State} (hkind : f.kind = .managementCommand)
    (h : f.station = u.sid) : receiveDownlink f p u = receiveCommand f p f.peer u := by
  unfold receiveDownlink downlinkToPart
  rw [if_pos (by simp [hkind, h])]

/-- Settles O15: the frame is counted, policed at a quay port, and judged. -/
theorem commandFramesAreJudged : Obligations.CommandFramesAreJudged := by
  refine ⟨fun p raw s hr hreceived => ?_, fun q raw s hr hreceived => ?_⟩
  · intro f sender n hpart hconforms
    have counted := countReceived_counted p raw s
    have hsid := counted.part
    obtain ⟨hfsq, -, -, -, -, hover, -⟩ := counted.same
    obtain ⟨q, rfl, hquay⟩ | hquay := quay_cases p
    · have hexec := received_uplink hreceived hr
      generalize countReceived (QPort.port q) (frameBody raw) s = u at *
      have hpeer : f.peer = u.sid := by
        rw [if_pos hquay] at hpart
        rw [hsid]
        exact hpart
      have hsender : sender = f.station := if_pos hquay
      have hoffer : Conforms (ingressBucket q 3) n (QPort.port q) u :=
        (counted.conforms ..).2 (hconforms q (quay_port q))
      have hreceive : receiveUplink f q u =
          receiveCommand f (QPort.port q) sender { u with fsq := (charged (ingressBucket q 3) n (QPort.port q) u).fsq } := by
        rw [receiveUplink_command rfl hpeer, hsender, ← charged_frame]
        exact policed_conforms hoffer
      obtain ⟨hcounted, hmanaged, hneighbour, hcharged, hforeign, hshort, hfull, hqueued, hhanded, hframe⟩ :=
        commandFrame_judged counted _ f sender hreceive
      refine ⟨_, hexec, hcounted, hmanaged, hneighbour, fun q' hq' => ?_, fun h => ?_, hforeign, hshort, hfull, hqueued,
        hhanded, hframe⟩
      · obtain rfl : q = q' := Option.some.inj ((quay_port q).symm.trans hq')
        exact hcharged.trans (charged_fsq_congr hfsq (hover _))
      · exact nomatch (quay_port q).symm.trans h
    · have hexec := received_downlink hreceived hr hquay
      generalize countReceived p (frameBody raw) s = u at *
      have hstation : f.station = u.sid := by
        rw [if_neg (by rw [hquay]; decide)] at hpart
        rw [hsid]
        exact hpart
      have hsender : sender = f.peer := if_neg (by rw [hquay]; decide)
      have hreceive : receiveDownlink f p u = receiveCommand f p sender { u with fsq := u.fsq } := by
        rw [receiveDownlink_command rfl hstation, hsender]
      obtain ⟨hcounted, hmanaged, hneighbour, hkept, hforeign, hshort, hfull, hqueued, hhanded, hframe⟩ :=
        commandFrame_judged counted u.fsq f sender hreceive
      exact ⟨_, hexec, hcounted, hmanaged, hneighbour, fun q hq => (nomatch (quay_none hquay).symm.trans hq),
        fun _ => hkept.trans hfsq, hforeign, hshort, hfull, hqueued, hhanded, hframe⟩
  · intro n hpeer hheld
    have counted := countReceived_counted (QPort.port q) raw s
    have hexec := received_uplink hreceived hr
    generalize countReceived (QPort.port q) (frameBody raw) s = u at *
    rw [receiveUplink_command rfl (hpeer.trans counted.part.symm)] at hexec
    have hoffer : ¬Conforms (ingressBucket q 3) n (QPort.port q) u := fun h => hheld ((counted.conforms ..).1 h)
    exact ⟨u, _, hexec.trans (congrArg _ (policed_held hoffer)), counted, dropAt_countsDrop _ _ (by decide) (by decide)⟩

/-! ### Learning and forwarding (R40, R41, R48) -/

theorem present_counter (k : SourceNo) (c : Bool) (s : State) (q : Port) {j : Fin 12} (hj : j ≠ 10) :
    (present k c s).counter q j = s.counter q j := by
  unfold present
  dsimp only
  split
  · split
    · rfl
    · exact (issue_noted _ _).counters q j hj
  · split <;> rfl

theorem learn_counter (x : Sid) (q : QPort) (g : Nat) (s : State) (p : Port) {j : Fin 12} (hj : j ≠ 10) :
    (learn x q g s).counter p j = s.counter p j := by
  have put (k : Nat) (r : DynRec) (t : State) : (putDynamic k r t).counter p j = t.counter p j :=
    present_counter _ _ _ p hj
  unfold learn
  split
  · rfl
  · split
    · split
      · rfl
      · exact put ..
    · split
      · exact put ..
      · exact put ..
      · rfl

/-- What learning makes of the station table turns on the station table alone. -/
theorem learn_stt_congr {s u : State} (h : u.stt = s.stt) (x : Sid) (q : QPort) (g : Nat) :
    (learn x q g u).stt = (learn x q g s).stt := by
  have put (k : Nat) (r : DynRec) (t : State) :
      (putDynamic k r t).stt = { t.stt with dynamics := Table.put t.stt.dynamics k r } := (putDynamic_tablePresented ..).stt
  unfold learn findStatic findDynamic
  rw [h]
  split
  · exact h
  · split
    · split
      · exact h
      · rw [put, put]
        simp only [State.sttStats, State.setStt, h]
    · split
      · rw [put, put, h]
      · rw [put, put]
        simp only [State.sttStats, State.setStt, h]
      · simp only [State.sttStats, State.setStt, h]

section Dispatch

variable {f : Frame} {q : QPort} {c : IdClass} {s u : State}

/-- A charge leaves what the dispatch of a frame reads. -/
theorem charged_reads (b : BucketNo) (n : Nat) (p : Port) (s : State) :
    (charged b n p s).domain = s.domain ∧ boundLink (charged b n p s) = boundLink s := by
  rw [charged_frame]
  exact ⟨rfl, rfl⟩

/-- The dispatch of an uplink frame, by its kind (R40). -/
theorem dispatchUplink_cases (f : Frame) (q : QPort) (c : IdClass) (s : State) :
    (∀ l, f.kind = .craneControl → boundLink s f.station = some l →
      dispatchUplink f q c s = uplinkControl l f q (s.domain c.domain).trunk.port s) ∧
    (∀ l, f.kind = .positionReport → boundLink s f.station = some l →
      dispatchUplink f q c s = positionReport l f (QPort.port q) s) ∧
    (f.kind = .positionReport → boundLink s f.station = none → dispatchUplink f q c s = learn f.station q f.grade s) ∧
    (f.kind = .reeferReport → c.options.reefer = true →
      dispatchUplink f q c s = takeReport f (QPort.port q) (s.domain c.domain).trunk.port s) ∧
    (f.kind = .data ∨ (f.kind = .craneControl ∧ boundLink s f.station = none) ∨
        (f.kind = .reeferReport ∧ c.options.reefer = false) →
      dispatchUplink f q c s = forwardAsData f (s.domain c.domain) (learn f.station q f.grade s)) ∧
    (f.kind ∈ [.managementCommand, .managementReply, .notice, .linkAdvisory, .reeferBatch] →
      dispatchUplink f q c s = forwardAsData f (s.domain c.domain) s) := by
  unfold dispatchUplink
  refine ⟨fun l hk hl => by simp only [hk, hl], fun l hk hl => by simp only [hk, hl], fun hk hl => by simp only [hk, hl],
    fun hk hc => by simp only [hk, hc, if_true], fun h => ?_, fun h => ?_⟩
  · obtain hk | ⟨hk, hl⟩ | ⟨hk, hc⟩ := h
    · simp only [hk, forwardLearning]
    · simp only [hk, hl, forwardLearning]
    · simp only [hk, hc, Bool.false_eq_true, if_false, forwardLearning]
  · cases hk : f.kind <;> simp [hk] at h ⊢

theorem dispatchDownlink_control {p : Port} {l : LinkNo} (hk : f.kind = .craneControl) (hl : boundLink s f.station = some l) :
    dispatchDownlink f p c s = downlinkControl l f p s := by
  unfold dispatchDownlink
  simp only [hk, hl]

theorem dispatchDownlink_steered {p : Port} (h : f.kind ≠ .craneControl ∨ boundLink s f.station = none) :
    dispatchDownlink f p c s = steer f c.domain p s := by
  unfold dispatchDownlink
  cases hk : f.kind with
  | craneControl => simp only [h.resolve_left fun hne => hne hk]
  | data | positionReport | reeferReport | managementCommand | managementReply | notice | linkAdvisory | reeferBatch => rfl

end Dispatch

/-- The policer of a kind group, as the rule lists the kinds (R39). -/
theorem kindGroup_eq (kind : Kind) : kindGroup kind = match kind with
    | .craneControl => 0
    | .positionReport => 1
    | .reeferReport => 2
    | .data | .managementCommand | .managementReply | .notice | .linkAdvisory | .reeferBatch => 3 := by
  cases kind <;> rfl

/-- A frame at an open policer, learnt and forwarded (R40, R48). -/
theorem forwardedData_effect {p : Port} {raw : List Byte} {s u : State} (counted : CountedOnly p raw s u) (f : Frame)
    (q : QPort) (d : Domain) {t : State} (ht : t = forwardAsData f d (learn f.station q f.grade u)) :
    CountedIn p raw s t ∧ LearnsNeighbour p raw s t ∧ t.stt = (learn f.station q f.grade s).stt ∧
      t.flight.enqueues.getLast? = some
        { queues := [(d.trunk.port, d.queue.queue)], kind := f.kind, body := .forwarded f.bytes } ∧
      t = { s with
        ports := t.ports, stt := t.stt, ntu := t.ntu, ctb := t.ctb
        flight := { s.flight with enqueues := t.flight.enqueues } } := by
  have frame := (learn_keepsPresented f.station q f.grade u).frame
  have counters (j : Fin 12) (hj : j ≠ 10) : t.counter p j = u.counter p j := by
    rw [ht]
    exact learn_counter f.station q f.grade u p hj
  have hstt : u.stt = s.stt := by rw [counted.frame]
  refine ⟨?_, ?_, ?_, ?_, ?_⟩
  · have h := counted.counted
    unfold CountedIn CounterRises at *
    rw [counters 0 (by decide), counters 1 (by decide)]
    exact h
  · unfold LearnsNeighbour
    rw [ht]
    show (learn f.station q f.grade u).ports = _
    rw [frame.ports]
    exact counted.neighbour
  · rw [ht]
    exact learn_stt_congr hstt ..
  · rw [ht]
    exact List.getLast?_concat ..
  · have whole := counted.frame
    unfold ReportsOnly at frame
    generalize learn f.station q f.grade u = v at *
    rw [ht, frame, whole]
    rfl

/-- Settles O13: the frame is counted, policed where it is uplink, and dispatched by its kind. -/
theorem uplinkDataIsLearntAndForwarded : Obligations.UplinkDataIsLearntAndForwarded := by
  refine ⟨fun q raw s c hr hreceived => ?_, fun q raw kind s c hr hreceived => ?_, fun p raw kind s c hr hquay hreceived => ?_⟩
  · intro f hclass hon hopen
    have counted := countReceived_counted (QPort.port q) raw s
    have hexec := received_uplink hreceived hr
    generalize countReceived (QPort.port q) (frameBody raw) s = u at *
    obtain ⟨hclassify, hdomain⟩ := counted.classified f.station
    have hrate : (u.bucket (ingressBucket q 3)).rate = 0 := by
      unfold State.bucket
      rw [counted.same.1]
      exact hopen
    have hcharged : charged (ingressBucket q 3) f.length (QPort.port q) u = u := if_pos hrate
    have hdispatch : receiveUplink f q u = forwardAsData f (s.domain c.domain) (learn f.station q f.grade u) := by
      rw [receiveUplink_policed (uplinkToPart_eq_false fun h => absurd (show Kind.data = .managementCommand from h) (by decide)) (hclassify.trans hclass)
        (by rw [hdomain]; exact hon), policed_conforms (.inl hrate)]
      rw [show charged (ingressBucket q (kindGroup f.kind)) f.length (QPort.port q) u = u from hcharged,
        (dispatchUplink_cases f q c u).2.2.2.2.1 (.inl rfl), hdomain]
    exact ⟨_, hexec, forwardedData_effect counted f q (s.domain c.domain) hdispatch⟩
  · intro f hnot hclass hon trunk b n binds bound forwarded
    have counted := countReceived_counted (QPort.port q) raw s
    have hexec := received_uplink hreceived hr
    generalize countReceived (QPort.port q) (frameBody raw) s = u at *
    obtain ⟨hclassify, hdomain⟩ := counted.classified f.station
    have hb : ingressBucket q (kindGroup f.kind) = b := congrArg (ingressBucket q) (kindGroup_eq kind)
    have hpart : uplinkToPart u f = false := uplinkToPart_eq_false fun hk hpeer =>
      hnot ⟨hk, hpeer.trans counted.part⟩
    rw [receiveUplink_policed hpart (hclassify.trans hclass) (by rw [hdomain]; exact hon)] at hexec
    refine ⟨u, counted, fun hheld => ?_, fun hconforms => ?_⟩
    · have hoffer : ¬Conforms (ingressBucket q (kindGroup f.kind)) f.length (QPort.port q) u := by
        rw [hb]
        exact fun h => hheld ((counted.conforms ..).1 h)
      refine ⟨_, hexec.trans (congrArg _ (policed_held hoffer)), ?_⟩
      rw [hb]
      exact dropAt_countsDrop _ _ (by decide) (by decide)
    · have hoffer : Conforms (ingressBucket q (kindGroup f.kind)) f.length (QPort.port q) u := by
        rw [hb]
        exact (counted.conforms ..).2 hconforms
      intro v goes
      replace hexec := hexec.trans (congrArg _ (policed_conforms hoffer))
      rw [hb] at hexec
      obtain ⟨hreads, hlinks⟩ := charged_reads b n (QPort.port q) u
      have hbound (l : LinkNo) (h : bound l) : boundLink v f.station = some l := by
        rw [hlinks, counted.boundLink]
        exact boundLink_some h.1 h.2
      have hunbound (h : ∀ l, ¬binds l) : boundLink v f.station = none := by
        rw [hlinks, counted.boundLink]
        exact boundLink_none h
      have hdomains : v.domain = s.domain := hreads.trans hdomain
      obtain ⟨hcontrol, hposition, hunlinked, hreefer, hdata, hother⟩ := dispatchUplink_cases f q c v
      rw [hdomains] at hcontrol hreefer hdata hother
      exact ⟨fun l hk hl => hexec.trans (congrArg _ (hcontrol l hk (hbound l hl))),
        fun l hk hl => hexec.trans (congrArg _ (hposition l hk (hbound l hl))),
        fun hk hl => hexec.trans (congrArg _ (hunlinked hk (hunbound hl))),
        fun hk hc => hexec.trans (congrArg _ (hreefer hk hc)),
        fun h => hexec.trans (congrArg _ (hdata (h.imp_right (Or.imp_left fun h => ⟨h.1, hunbound h.2⟩)))),
        fun h => hexec.trans (congrArg _ (hother h))⟩
  · intro f hnot hclass hon hdown binds
    have counted := countReceived_counted p raw s
    have hexec := received_downlink hreceived hr hquay
    generalize countReceived p (frameBody raw) s = u at *
    obtain ⟨hclassify, hdomain⟩ := counted.classified f.station
    have hpart : downlinkToPart u f = false := downlinkToPart_eq_false fun hk hstation =>
      hnot ⟨hk, hstation.trans counted.part⟩
    rw [receiveDownlink_dispatched hpart (hclassify.trans hclass) (by rw [hdomain]; exact hon) hdown] at hexec
    refine ⟨u, counted, fun l hk hl hlow => ?_, fun h => ?_⟩
    · exact hexec.trans (congrArg _ (dispatchDownlink_control hk
        ((counted.boundLink _).trans (boundLink_some hl hlow))))
    · exact hexec.trans (congrArg _ (dispatchDownlink_steered
        (h.imp_right fun h => (counted.boundLink _).trans (boundLink_none h))))

end Sys2Proof.Machine
end

section
/-! Advisories, supervision, reverts and the events in flight to the crane links (R73, R74, R80, R81, R93, R96 to R98, R100):
O26 and O27. -/

namespace Sys2Proof.Machine

/-! ### What raising and presenting leave -/

/-- Notice sources have been told: notice frames alone are handed on, and nothing is counted where they go out. -/
structure Told (s t : State) : Prop where
  handed : HandsOnNotices s t
  frame : ReportsOnly s t
  dest : t.ntu.dest = s.ntu.dest
  counts : NoticesGoOut s → t.ctb = s.ctb

theorem Told.refl (s : State) : Told s s := ⟨.refl s, .refl s, rfl, fun _ => rfl⟩

theorem Told.goOut {s t : State} (h : Told s t) (g : NoticesGoOut s) : NoticesGoOut t := g.congr h.dest h.frame.ports

theorem Told.trans {s t u : State} (h : Told s t) (g : Told t u) : Told s u :=
  ⟨h.handed.trans g.handed, h.frame.trans g.frame, g.dest.trans h.dest,
    fun out => (g.counts (h.goOut out)).trans (h.counts out)⟩

theorem setSource_told (k : SourceNo) (x : Source) (s : State) : Told s (s.setSource k x) :=
  ⟨.of_eq rfl, setSource_reportsOnly k x s, rfl, fun _ => rfl⟩

theorem issue_told (k : SourceNo) (s : State) : Told s (issue k s) :=
  have noted := issue_noted k s
  ⟨noted.handed, noted.frame, noted.dest.1, fun out => (issueWith_ctb k s out).1⟩

theorem raise_told (k : SourceNo) (d : Detail) (s : State) : Told s (raise k d s) := by
  unfold raise
  dsimp only
  split
  · exact (setSource_told ..).trans (issue_told ..)
  · exact setSource_told ..

theorem present_told (k : SourceNo) (c : Bool) (s : State) : Told s (present k c s) := by
  unfold present
  dsimp only
  split
  · split
    · exact setSource_told ..
    · exact (setSource_told ..).trans (issue_told ..)
  · split
    · exact setSource_told ..
    · exact .refl s

theorem presentUncovered_told (s : State) : Told s (presentUncovered s) := present_told ..

theorem presentUncovered_source {k : SourceNo} (s : State) (h5 : k ≠ 5) (h22 : k ≠ 22) :
    (presentUncovered s).source k = s.source k := present_source_of_ne _ s h5 h22

/-! ### Link advisories (R80, R81) -/

/-- An advisory sent from the trunk port `p`: `AdvisorySent` with its port written out. -/
def AdvisoryAt (p : Port) (l : LinkNo) (code : Nat) (also : List Port) (s t : State) : Prop :=
  (s.usable p = true →
    t.flight.enqueues[s.flight.enqueues.length]? = some
      { queues := [(p, .u)], kind := .linkAdvisory
        body := .originated .advisory (originatedBytes .linkAdvisory false (s.link l).config.sid
          ((s.link l).config.peer.getD 0) (sidBytes (s.link l).config.sid ++ be1 l.val ++ be1 code)) }) ∧
  (s.usable p = false →
    (∀ r ∈ t.flight.enqueues.drop s.flight.enqueues.length, r.body.origin ≠ .advisory) ∧
    (NoticesGoOut s → DropRises 9 (1 + also.length) s t ∧ CounterRises p 10 (1 + also.count p) s t))

theorem advisorySent_iff {l : LinkNo} {code : Nat} {also : List Port} {s t : State} :
    AdvisorySent l code also s t ↔ AdvisoryAt (advisoryTrunk s (s.link l).config.sid) l code also s t := by
  unfold AdvisorySent AdvisoryAt advisoryTrunk
  dsimp only
  cases classify s.idc (s.link l).config.sid with
  | none => exact Iff.rfl
  | some k =>
    dsimp only
    rw [Trunk.port_eq]

theorem sendAdvisory_reportsOnly (l : LinkNo) (a : AdvisoryState) (s : State) : ReportsOnly s (sendAdvisory l a s) := by
  unfold sendAdvisory
  dsimp only
  split
  · exact handOff_reportsOnly ..
  · exact portDownDrop_reportsOnly ..

theorem sendAdvisory_source (l : LinkNo) (a : AdvisoryState) (s : State) {k : SourceNo} (hk : k ≠ 22) :
    (sendAdvisory l a s).source k = s.source k := by
  unfold sendAdvisory
  dsimp only
  split
  · rfl
  · exact (portDownDrop_droppedPortDown _ s).sources k hk

theorem sendAdvisory_dest (l : LinkNo) (a : AdvisoryState) (s : State) : (sendAdvisory l a s).ntu.dest = s.ntu.dest := by
  unfold sendAdvisory
  dsimp only
  split
  · rfl
  · exact (portDownDrop_droppedPortDown _ s).dest

/-- What an advisory hands on is the advisory, and notices where it is dropped. -/
theorem sendAdvisory_handed (l : LinkNo) (a : AdvisoryState) (s : State) :
    ∃ more, (sendAdvisory l a s).flight.enqueues = s.flight.enqueues ++ more ∧ ∀ r ∈ more, r.body.origin ≠ .forwarded := by
  unfold sendAdvisory
  dsimp only
  split
  · exact ⟨_, rfl, fun r hr => by rw [List.mem_singleton.1 hr]; exact fun h => nomatch h⟩
  · obtain ⟨more, henqueues, hnotice⟩ := (portDownDrop_droppedPortDown (advisoryTrunk s (s.link l).config.sid) s).handed
    exact ⟨more, henqueues, fun r hr => by rw [(hnotice r hr).2]; exact fun h => nomatch h⟩

theorem sendAdvisory_sent (l : LinkNo) (a : AdvisoryState) (s : State) :
    AdvisorySent l a.code [] s (sendAdvisory l a s) := by
  refine advisorySent_iff.2 ⟨fun hup => ?_, fun hdown => ?_⟩
  · unfold sendAdvisory
    dsimp only
    rw [if_pos hup]
    exact List.getElem?_concat_length
  · have dropped := portDownDrop_droppedPortDown (advisoryTrunk s (s.link l).config.sid) s
    have hsend : sendAdvisory l a s = portDownDrop (advisoryTrunk s (s.link l).config.sid) s :=
      if_neg (by rw [hdown]; decide)
    rw [hsend]
    refine ⟨fun r hr => ?_, fun out => ?_⟩
    · obtain ⟨more, henqueues, hnotice⟩ := dropped.handed
      rw [henqueues, List.drop_left] at hr
      rw [(hnotice r hr).2]
      exact fun h => nomatch h
    · obtain ⟨hcounter, hdrop, -⟩ := dropped.counts (.inl out)
      exact ⟨hdrop, hcounter⟩

section Sent

variable {p : Port} {l : LinkNo} {code : Nat} {also : List Port} {s u t : State}

/-- Telling notice sources keeps an advisory that has been sent. -/
theorem AdvisoryAt.told (h : AdvisoryAt p l code also s u) (hdest : u.ntu.dest = s.ntu.dest) (hports : u.ports = s.ports)
    (g : Told u t) : AdvisoryAt p l code also s t := by
  obtain ⟨more, henqueues, hnotice⟩ := g.handed
  refine ⟨fun hup => ?_, fun hdown => ⟨fun r hr => ?_, fun out => ?_⟩⟩
  · have sent := h.1 hup
    rw [henqueues, List.getElem?_append_left (List.getElem?_eq_some_iff.1 sent).1]
    exact sent
  · rw [henqueues, List.drop_append] at hr
    obtain hr | hr := List.mem_append.1 hr
    · exact (h.2 hdown).1 r hr
    · rw [(hnotice r (List.mem_of_mem_drop hr)).2]
      exact fun h => nomatch h
  · have counted := (h.2 hdown).2 out
    unfold DropRises CounterRises State.counter at *
    rw [g.counts (out.congr hdest hports)]
    exact counted

/-- A frame that is handed on afterwards keeps an advisory that has been sent. -/
theorem AdvisoryAt.handOff (h : AdvisoryAt p l code also s u) {r : EnqueueRequest} (hr : r.body.origin ≠ .advisory) :
    AdvisoryAt p l code also s (handOff r u) := by
  refine ⟨fun hup => ?_, fun hdown => ⟨fun r' hr' => ?_, (h.2 hdown).2⟩⟩
  · have sent := h.1 hup
    show (u.flight.enqueues ++ [r])[_]? = _
    rw [List.getElem?_append_left (List.getElem?_eq_some_iff.1 sent).1]
    exact sent
  · replace hr' : r' ∈ (u.flight.enqueues ++ [r]).drop s.flight.enqueues.length := hr'
    rw [List.drop_append] at hr'
    obtain hr' | hr' := List.mem_append.1 hr'
    · exact (h.2 hdown).1 r' hr'
    · rw [List.mem_singleton.1 (List.mem_of_mem_drop hr')]
      exact hr

/-- A state that an advisory reads as another: its link's configuration, the identity records, the ports, the enqueues
in flight, the notice unit and the counters. -/
structure AdvisedAlike (l : LinkNo) (s u : State) : Prop where
  config : (u.link l).config = (s.link l).config
  idc : u.idc = s.idc
  ports : u.ports = s.ports
  enqueues : u.flight.enqueues = s.flight.enqueues
  ntu : u.ntu = s.ntu
  ctb : u.ctb = s.ctb

theorem AdvisedAlike.usable (h : AdvisedAlike l s u) : u.usable = s.usable := by
  funext p
  unfold State.usable State.port
  rw [h.ports]

theorem AdvisedAlike.goOut (h : AdvisedAlike l s u) (out : NoticesGoOut s) : NoticesGoOut u :=
  out.congr (by rw [h.ntu]) h.ports

theorem AdvisorySent.alike (h : AdvisedAlike l s u) (g : AdvisorySent l code also u t) : AdvisorySent l code also s t := by
  have hdomain : u.domain = s.domain := by unfold State.domain; rw [h.idc]
  have hcounter : u.counter = s.counter := by unfold State.counter; rw [h.ctb]
  have hgo := h.goOut
  unfold AdvisorySent DropRises CounterRises at *
  rw [h.config, h.idc, hdomain, h.usable, h.enqueues, h.ctb, hcounter] at g
  exact ⟨g.1, fun hdown => ⟨(g.2 hdown).1, fun out => (g.2 hdown).2 (hgo out)⟩⟩

/-- An advisory and then the event that it tells of (log 45). -/
theorem advisoryEvent (a : AdvisoryState) {k : SourceNo} (d : Detail) (hk : k ≠ 22) (h : AdvisedAlike l s u)
    (ht : t = raise k d (sendAdvisory l a u)) :
    AdvisorySent l a.code [] s t ∧ TookEvent k d s t ∧ ReportsOnly u t := by
  have told := raise_told k d (sendAdvisory l a u)
  have raised := raise_eventRaised k d (sendAdvisory l a u) hk
  have reports := sendAdvisory_reportsOnly l a u
  subst ht
  refine ⟨.alike h (advisorySent_iff.2 ?_), ?_, reports.trans raised.frame⟩
  · exact (advisorySent_iff.1 (sendAdvisory_sent l a u)).told (sendAdvisory_dest l a u) reports.ports told
  · have event := raised.event
    unfold TookEvent at event ⊢
    rw [sendAdvisory_source l a u hk] at event
    unfold State.source at event ⊢
    rw [h.ntu] at event
    exact event

end Sent

theorem AdvisorySent.told {l : LinkNo} {code : Nat} {also : List Port} {s u t : State} (h : AdvisorySent l code also s u)
    (hdest : u.ntu.dest = s.ntu.dest) (hports : u.ports = s.ports) (g : Told u t) : AdvisorySent l code also s t :=
  advisorySent_iff.2 ((advisorySent_iff.1 h).told hdest hports g)

theorem TookEvent.kept {k : SourceNo} {d : Detail} {s u t : State} (h : TookEvent k d s u) (g : t.source k = u.source k) :
    TookEvent k d s t := g.trans h

/-! ### Supervision and hold expiries (R73, R74, R93) -/

/-- A change of a link's state with its advisory and its event, after which CRANE-UNCOVERED is presented (R100). -/
theorem stateChange_effect {l : LinkNo} {s u : State} (a : AdvisoryState) {k : SourceNo} (d : Detail) (hk : k ≠ 22)
    (h5 : k ≠ 5) (h : AdvisedAlike l s u) {t : State}
    (ht : t = presentUncovered (raise k d (sendAdvisory l a u))) :
    AdvisorySent l a.code [] s t ∧ TookEvent k d s t ∧ UncoveredPresented t ∧ ReportsOnly u t := by
  obtain ⟨hsent, hevent, hreports⟩ := advisoryEvent a d hk h rfl
  have hdest : (raise k d (sendAdvisory l a u)).ntu.dest = s.ntu.dest := by
    rw [(raise_told k d (sendAdvisory l a u)).dest, sendAdvisory_dest, h.ntu]
  subst ht
  exact ⟨hsent.told hdest (hreports.ports.trans h.ports) (presentUncovered_told _),
    hevent.kept (presentUncovered_source _ h5 hk), presentUncovered_presented _,
    hreports.trans (presentUncovered_reportsOnly _)⟩

/-- A LAPSED link's change: its record is written and its span removed (R74). -/
theorem superviseLink_lapsing {l : LinkNo} {s : State} (h : (s.link l).config.lapse ≤ (s.link l).missed + 1) :
    superviseLink l s = presentUncovered (raise 1 (.link l) (sendAdvisory l .lapsed
      (({ s with flight := { s.flight with
          spans := s.flight.spans ++ spansFor .remove (s.link l).segment } } : State).setLink l
        { s.link l with
          state := .lapsed, missed := (s.link l).missed + 1, timer := none, context := none
          counts := { (s.link l).counts with lapses := min 4294967295 ((s.link l).counts.lapses + 1) } }))) := by
  rw [superviseLink_lapses h]
  unfold lapse
  dsimp only
  rw [sendSpanFor_eq, State.link_setLink_self]
  have twice (x y : Link) : (s.setLink l x).setLink l y = s.setLink l y := by
    unfold State.setLink vset
    simp
  rw [twice]
  rfl

theorem exec_supervisionExpiry {l : LinkNo} {n : Nat} {s : State} (h : (s.link l).timer = some n) :
    exec (.supervisionExpiry l) s = .next (superviseLink l s) := by
  show execSupervisionExpiry l s = _
  simp only [execSupervisionExpiry, h]

/-- The frame of a supervision expiry, whatever it comes to. -/
theorem superviseLink_frame (l : LinkNo) (s : State) : LinkFrame l s (superviseLink l s) := by
  obtain h | h := Nat.lt_or_ge ((s.link l).missed + 1) (s.link l).config.lapse
  · by_cases hlate : (s.link l).state = .live ∧ (s.link l).config.late ≤ (s.link l).missed + 1
    · rw [superviseLink_late h hlate]
      exact (setLink_checkFrame ..).linkFrame.trans (((sendAdvisory_reportsOnly ..).trans
        ((raise_reportsOnly ..).trans (presentUncovered_reportsOnly _))).linkFrame l)
    · rw [superviseLink_misses h hlate]
      exact (setLink_checkFrame ..).linkFrame
  · rw [superviseLink_lapsing h]
    refine LinkFrame.trans ?_ (((sendAdvisory_reportsOnly ..).trans
      ((raise_reportsOnly ..).trans (presentUncovered_reportsOnly _))).linkFrame l)
    exact ⟨fun m hm => State.link_setLink_of_ne _ _ hm, rfl⟩

/-- Settles O26. -/
theorem craneTimersSuperviseAndRevert : Obligations.CraneTimersSuperviseAndRevert := by
  refine ⟨fun l n s htimer => ?_, fun l h s hctx => ?_⟩
  · intro x m
    refine ⟨superviseLink l s, exec_supervisionExpiry htimer, fun hlapse => ?_, fun hm hlive hlate => ?_,
      fun hm hkeep => ?_, superviseLink_frame l s⟩
    · rw [superviseLink_lapsing hlapse]
      generalize hu : (({ s with flight := { s.flight with
          spans := s.flight.spans ++ spansFor .remove (s.link l).segment } } : State).setLink l
        { s.link l with
          state := .lapsed, missed := (s.link l).missed + 1, timer := none, context := none
          counts := { (s.link l).counts with lapses := min 4294967295 ((s.link l).counts.lapses + 1) } }) = u
      have hlink : u.link l = _ := hu ▸ State.link_setLink_self ..
      have alike : AdvisedAlike l s u :=
        ⟨by rw [hlink], by rw [← hu]; rfl, by rw [← hu]; rfl, by rw [← hu]; rfl, by rw [← hu]; rfl, by rw [← hu]; rfl⟩
      obtain ⟨hsent, hevent, huncovered, hreports⟩ :=
        stateChange_effect .lapsed (k := 1) (.link l) (by decide) (by decide) alike rfl
      exact ⟨(hreports.link l).trans hlink, hreports.spans.trans (by rw [← hu]; rfl), hsent, hevent, huncovered⟩
    · rw [superviseLink_late hm ⟨hlive, hlate⟩]
      generalize hu : s.setLink l ((s.link l).late ((s.link l).missed + 1)) = u
      have hlink : u.link l = _ := hu ▸ State.link_setLink_self ..
      have alike : AdvisedAlike l s u :=
        ⟨by rw [hlink]; rfl, by rw [← hu]; rfl, by rw [← hu]; rfl, by rw [← hu]; rfl, by rw [← hu]; rfl, by rw [← hu]; rfl⟩
      obtain ⟨hsent, hevent, huncovered, hreports⟩ :=
        stateChange_effect .late (k := 0) (.link l) (by decide) (by decide) alike rfl
      exact ⟨(hreports.link l).trans hlink, hreports.spans.trans (by rw [← hu]; rfl), hsent, hevent, huncovered⟩
    · rw [superviseLink_misses hm fun h => hkeep.elim (fun hne => hne h.1) fun hlt => Nat.not_le.2 hlt h.2]
      exact ⟨State.link_setLink_self .., rfl⟩
  · generalize hu : s.setLink l { s.link l with
      context := none, reverted := some h.new
      counts := { (s.link l).counts with reverted := countUp (s.link l).counts.reverted 1 } } = u
    have hexec : exec (.holdExpiry l) s = .next (presentUncovered (raise 4 (.reverted l h.new) u)) := by
      show execHoldExpiry l s = _
      simp only [execHoldExpiry, hctx, ← hu]
    have hlink : u.link l = _ := hu ▸ State.link_setLink_self ..
    have raised := raise_eventRaised 4 (.reverted l h.new) u (by decide)
    have reports := raised.frame.trans (presentUncovered_reportsOnly _)
    refine ⟨_, hexec, (reports.link l).trans hlink, ?_, reports.spans.trans (by rw [← hu]; rfl),
      presentUncovered_presented _, LinkFrame.trans ?_ (reports.linkFrame l)⟩
    · have event := raised.event.kept (presentUncovered_source _ (by decide) (by decide))
      rw [← hu] at event ⊢
      exact event
    · rw [← hu]
      exact (setLink_checkFrame ..).linkFrame

/-! ### Events in flight to a link (R96 to R98) -/

/-- What the work of a link event may change: one link and the enqueues in flight. -/
theorem linkDownAt_frame {l : LinkNo} {p : Port} {s : State} (hbound : (s.link l).state ≠ .unbound) :
    CheckFrame l s (linkDownAt l p s) := by
  unfold linkDownAt
  dsimp only
  rw [if_neg hbound]
  split
  · split
    · exact setLink_checkFrame ..
    · split
      · refine (setLink_checkFrame ..).trans (cellCheck_checkFrame ?_)
        rw [State.link_setLink_self]
        exact hbound
      · exact .refl l s
  · split
    · exact cellCheck_checkFrame hbound
    · exact .refl l s

theorem linkUpAt_frame {l : LinkNo} {p : Port} {s : State} (hbound : (s.link l).state ≠ .unbound) :
    CheckFrame l s (linkUpAt l p s) := by
  unfold linkUpAt
  split
  · exact .refl l s
  · exact cellCheck_checkFrame hbound

/-- The work of a link-down announcement, by the link's context (R96). -/
theorem linkDownAt_link {l : LinkNo} {p : Port} {s : State} (hbound : (s.link l).state ≠ .unbound) :
    (∀ h, (s.link l).context = some h → (linkDownAt l p s).link l =
      if QPort.port h.old = p then (s.link l).complete h
      else if QPort.port h.new = p then (cellCheck l (s.setLink l (s.link l).abandon)).link l
      else s.link l) ∧
    ((s.link l).context = none → (linkDownAt l p s).link l =
      if QPort.port (s.link l).primary = p then (cellCheck l s).link l else s.link l) := by
  unfold linkDownAt
  dsimp only
  rw [if_neg hbound]
  refine ⟨fun h hctx => ?_, fun hctx => ?_⟩
  · simp only [hctx]
    split
    · exact State.link_setLink_self ..
    · split <;> rfl
  · simp only [hctx]
    split <;> rfl

/-- The work of an event at a link, over the state without the event. -/
theorem takeLinkEvent_some {up : Bool} {l : LinkNo} {p : Port} {s : State}
    (h : s.flight.linkEvents.find? (fun v => v.link == l) = some ⟨up, l, p⟩) :
    takeLinkEvent ⟨up, l, p⟩ s =
      some { s with flight := { s.flight with linkEvents := s.flight.linkEvents.erase ⟨up, l, p⟩ } } :=
  if_pos h

/-- The effect of an event at a link: its work, and then CRANE-UNCOVERED presented (R100). -/
theorem linkEvent_effect {l : LinkNo} {s u t : State} {events : List LinkEvent}
    (hu : u = { s with flight := { s.flight with linkEvents := events } }) {v : State} (frame : CheckFrame l u v)
    (ht : t = presentUncovered v) :
    t.link l = v.link l ∧ t.flight.linkEvents = events ∧ UncoveredPresented t ∧ (∀ m, m ≠ l → t.link m = s.link m) ∧
      t = { s with
        links := t.links, ntu := t.ntu, ctb := t.ctb
        flight := { s.flight with enqueues := t.flight.enqueues, linkEvents := t.flight.linkEvents } } := by
  have reports := presentUncovered_reportsOnly v
  have presented := presentUncovered_presented v
  obtain ⟨hothers, hframe⟩ := frame
  rw [← ht] at reports presented
  have hevents : t.flight.linkEvents = events := by
    rw [reports, hframe, hu]
  refine ⟨reports.link l, hevents, presented, fun m hm => (reports.link m).trans ((hothers m hm).trans ?_), ?_⟩
  · rw [hu]
    rfl
  · rw [hevents]
    unfold ReportsOnly at reports
    rw [reports, hframe, hu]

/-- A re-evaluation of a bound link with a position: the cell check from the raw segment, from which the move of its
span stands apart (R98). -/
theorem reevaluate_eq {l : LinkNo} {s : State} {pos : Nat} (hbound : (s.link l).state ≠ .unbound)
    (hpos : (s.link l).position = some pos) {g : Nat} (hg : g = rawSegment s.cvm.active.geometry pos) :
    reevaluate l s =
      if (s.link l).segment = some g then
        presentUncovered (cellCheck l (s.setLink l { s.link l with segment := some g, reverted := none }))
      else presentUncovered (moveSpan (s.link l) g
        (cellCheck l (s.setLink l { s.link l with segment := some g, reverted := none }))) := by
  have hmoved (y : Link) : (moveSpan (s.link l) g s).setLink l y = moveSpan (s.link l) g (s.setLink l y) := by
    rw [moveSpan_eq, moveSpan_eq]
    rfl
  have hkept : (moveSpan (s.link l) g s).link l = s.link l := by
    rw [moveSpan_eq]
    rfl
  have hreevaluate : reevaluate l s = presentUncovered (cellCheck l
      ((if (s.link l).segment = some g then s else moveSpan (s.link l) g s).setLink l
        { (if (s.link l).segment = some g then s else moveSpan (s.link l) g s).link l with
          segment := some g, reverted := none })) := by
    unfold reevaluate
    dsimp only
    rw [hpos, hg]
    cases hstate : (s.link l).state with
    | unbound => exact absurd hstate hbound
    | waiting | live | late | lapsed => rfl
  rw [hreevaluate]
  split
  · rfl
  · rw [hkept, hmoved, cellCheck_moveSpan]
    rw [State.link_setLink_self]
    exact hbound

/-- Settles O27. -/
theorem eventsAtLinksRunTheCellCheck : Obligations.EventsAtLinksRunTheCellCheck := by
  refine ⟨fun up l p s hbound hfind => ?_, fun l pos s hbound hpos hdue => ?_⟩
  · intro x checked
    generalize hu : ({ s with flight := { s.flight with
      linkEvents := s.flight.linkEvents.erase ⟨up, l, p⟩ } } : State) = u
    have hlink : u.link l = x := by rw [← hu]; rfl
    have hboundU : (u.link l).state ≠ .unbound := by rw [hlink]; exact hbound
    have htaken : takeLinkEvent ⟨up, l, p⟩ s = some u := (takeLinkEvent_some hfind).trans (congrArg some hu)
    have check (y : Link) (hy : y.state ≠ .unbound) {v : State} (hv : v.link l = y) (hports : v.ports = s.ports)
        (hcvm : v.cvm = s.cvm) : (cellCheck l v).link l = checked y := by
      refine cellCheck_link_congr (by rw [State.link_setLink_self]; exact hy) hports ?_ ?_
        (hv.trans (State.link_setLink_self ..).symm)
      · rw [hcvm]; rfl
      · rw [hcvm]; rfl
    cases up with
    | false =>
      have hexec : exec (.clsLinkDown l p) s = .next (presentUncovered (linkDownAt l p u)) := by
        show execClsLinkDown l p s = _
        simp only [execClsLinkDown, htaken]
      obtain ⟨hkept, hevents, hpresented, hothers, hframe⟩ := linkEvent_effect hu.symm (linkDownAt_frame hboundU) rfl
      obtain ⟨hwith, hwithout⟩ := linkDownAt_link (p := p) hboundU
      rw [hlink] at hwith hwithout
      refine ⟨_, hexec, fun _ h hctx => hkept.trans ((hwith h hctx).trans ?_), fun _ hctx =>
        hkept.trans ((hwithout hctx).trans ?_), fun hup => (nomatch hup), hevents, hpresented, hothers, hframe⟩
      · rw [check x.abandon hbound (State.link_setLink_self ..) (by rw [← hu]; rfl) (by rw [← hu]; rfl)]
        rfl
      · rw [check x hbound hlink (by rw [← hu]) (by rw [← hu])]
    | true =>
      have hexec : exec (.clsLinkUp l p) s = .next (presentUncovered (linkUpAt l p u)) := by
        show execClsLinkUp l p s = _
        simp only [execClsLinkUp, htaken]
      obtain ⟨hkept, hevents, hpresented, hothers, hframe⟩ := linkEvent_effect hu.symm (linkUpAt_frame hboundU) rfl
      refine ⟨_, hexec, fun hup => (nomatch hup), fun hup => (nomatch hup), fun _ => hkept.trans ?_, hevents, hpresented,
        hothers, hframe⟩
      unfold linkUpAt
      cases hquay : Port.isQuay p with
      | false => rw [if_pos (.inr rfl)]; exact hlink
      | true =>
        rw [if_neg (fun h => h.elim hboundU Bool.true_eq_false.mp), if_pos rfl]
        exact check x hbound hlink (by rw [← hu]) (by rw [← hu])
  · intro x g seg
    generalize hu : ({ s with flight := { s.flight with
      reevaluations := s.flight.reevaluations.erase l } } : State) = u
    have hlink : u.link l = x := by rw [← hu]; rfl
    have hexec : exec (.mapSwappedReevaluation l) s = .next (reevaluate l u) := by
      show execMapSwappedReevaluation l s = _
      rw [execMapSwappedReevaluation, if_pos hdue, ← hu]
      rfl
    have hreevaluate := reevaluate_eq (l := l) (s := u) (pos := pos) (g := seg) (by rw [hlink]; exact hbound)
      (by rw [hlink]; exact hpos) (by rw [← hu]; rfl)
    rw [hlink] at hreevaluate
    have frame : CheckFrame l u (cellCheck l (u.setLink l { x with segment := some seg, reverted := none })) :=
      (setLink_checkFrame ..).trans (cellCheck_checkFrame (by rw [State.link_setLink_self]; exact hbound))
    have check : (cellCheck l (u.setLink l { x with segment := some seg, reverted := none })).link l =
        (cellCheck l (s.setLink l { x with segment := some seg, reverted := none })).link l := by
      refine cellCheck_link_congr (by rw [State.link_setLink_self]; exact hbound) ?_ ?_ ?_ ?_
      · rw [← hu]; rfl
      · rw [← hu]; rfl
      · rw [← hu]; rfl
      · rw [State.link_setLink_self, State.link_setLink_self]
    generalize cellCheck l (u.setLink l { x with segment := some seg, reverted := none }) = v at *
    obtain ⟨hothers, hframe⟩ := frame
    have hmoved : reevaluate l u = presentUncovered { v with flight := { v.flight with spans := v.flight.spans ++
        (if (x.state = .live ∨ x.state = .late) ∧ x.segment ≠ some seg
          then spansFor .remove x.segment ++ [.add seg] else []) } } := by
      rw [hreevaluate]
      by_cases hsame : x.segment = some seg
      · rw [if_pos hsame, if_neg (fun h => h.2 hsame), List.append_nil]
      · rw [if_neg hsame, moveSpan_eq]
        simp only [ne_eq, hsame, not_false_eq_true, and_true]
        rfl
    have reports := presentUncovered_reportsOnly { v with flight := { v.flight with spans := v.flight.spans ++
        (if (x.state = .live ∨ x.state = .late) ∧ x.segment ≠ some seg
          then spansFor .remove x.segment ++ [.add seg] else []) } }
    have presented := presentUncovered_presented { v with flight := { v.flight with spans := v.flight.spans ++
        (if (x.state = .live ∨ x.state = .late) ∧ x.segment ≠ some seg
          then spansFor .remove x.segment ++ [.add seg] else []) } }
    rw [← hmoved] at reports presented
    generalize reevaluate l u = t at *
    refine ⟨t, hexec, (reports.link l).trans check, ?_, ?_, presented,
      fun m hm => (reports.link m).trans ((hothers m hm).trans ?_), ?_⟩
    · rw [reports.spans, hframe, ← hu]
    · rw [reports, hframe, ← hu]
    · rw [← hu]; rfl
    · unfold ReportsOnly at reports
      rw [reports, hframe, ← hu]

end Sys2Proof.Machine
end

section
/-! Uplink and downlink control at a crane link (R68 to R71, R75 to R79, R92): O16 and O17. -/

namespace Sys2Proof.Machine

/-! ### The cycle filter (R68) -/

/-- A control frame that the cycle filter accepts. -/
theorem judgeCycle_accepted {x : Link} {cycle : Nat} (hbound : x.state ≠ .unbound)
    (h : (x.state = .waiting ∨ x.state = .lapsed) ∨
      ∃ last, x.cycle = some last ∧ 1 ≤ (cycle + 256 - last) % 256 ∧ (cycle + 256 - last) % 256 ≤ 127) :
    judgeCycle x cycle = .accepted := by
  obtain h | ⟨last, hlast, hlow, hhigh⟩ := h
  · unfold judgeCycle
    obtain h | h := h
    · simp only [h]
    · simp only [h]
  · have compared : (if (cycle + 256 - last) % 256 = 0 then CycleJudgement.duplicate
        else if (cycle + 256 - last) % 256 ≤ 127 then .accepted else .stale) = .accepted := by
      rw [if_neg (by omega), if_pos hhigh]
    unfold judgeCycle
    cases hstate : x.state with
    | unbound => exact absurd hstate hbound
    | waiting | lapsed => rfl
    | live | late => simp only [hlast, compared]

/-- A control frame at a LIVE or LATE link, by its distance. -/
theorem judgeCycle_compared {x : Link} {cycle last : Nat} (hbound : x.state ≠ .unbound)
    (hfresh : ¬(x.state = .waiting ∨ x.state = .lapsed)) (hlast : x.cycle = some last) :
    judgeCycle x cycle = if (cycle + 256 - last) % 256 = 0 then .duplicate
      else if (cycle + 256 - last) % 256 ≤ 127 then .accepted else .stale := by
  unfold judgeCycle
  cases hstate : x.state with
  | unbound => exact absurd hstate hbound
  | waiting => exact absurd (.inl hstate) hfresh
  | lapsed => exact absurd (.inr hstate) hfresh
  | live | late => simp only [hlast]

/-- A frame the filter drops is counted at its link and under its reason, and nothing else changes (R71). -/
theorem linkCount_dropped (l : LinkNo) (f : LinkCounts → LinkCounts) (r : Fin 20) (s : State) {t : State}
    (ht : t = addDrop r 1 (s.linkCounts l f)) :
    t.link l = { s.link l with counts := f (s.link l).counts } ∧ DropRises r 1 s t ∧
      t = { s with links := t.links, ctb := t.ctb } ∧ LinkFrame l s t := by
  subst ht
  exact ⟨State.link_setLink_self .., (addDrop_drops ..).trans (if_pos rfl), rfl,
    fun m hm => State.link_setLink_of_ne _ _ hm, rfl⟩

/-! ### Acceptance (R69, R70, R92) -/

/-- What restoring a link and adding its span leave of the state after its record was written: the links, every source
but 2 and 22, the destination and the ports; what they hand on is advisories and notices. -/
structure Restored (spans : List SpanEvent) (u v : State) : Prop where
  sources : ∀ k, k ≠ 2 → k ≠ 22 → v.source k = u.source k
  dest : v.ntu.dest = u.ntu.dest
  handed : ∃ more, v.flight.enqueues = u.flight.enqueues ++ more ∧ ∀ r ∈ more, r.body.origin ≠ .forwarded
  frame : v = { u with
    ntu := v.ntu, ctb := v.ctb, flight := { u.flight with enqueues := v.flight.enqueues, spans := u.flight.spans ++ spans } }

/-- Notices are no forwarded frames. -/
theorem HandsOnNotices.no_forwarded {s t : State} (h : HandsOnNotices s t) :
    ∃ more, t.flight.enqueues = s.flight.enqueues ++ more ∧ ∀ r ∈ more, r.body.origin ≠ .forwarded := by
  obtain ⟨more, henqueues, hnotice⟩ := h
  exact ⟨more, henqueues, fun r hr => by rw [(hnotice r hr).2]; exact fun h => nomatch h⟩

theorem restoreNotice_restored (l : LinkNo) (before : LinkState) (u : State) :
    Restored [] u (restoreNotice l before u) := by
  have told : Restored [] u (raise 2 (.link l) (sendAdvisory l .restored u)) := by
    have reports := (sendAdvisory_reportsOnly l .restored u).trans
      (raise_reportsOnly 2 (.link l) (sendAdvisory l .restored u))
    obtain ⟨a, ha, ha'⟩ := sendAdvisory_handed l .restored u
    obtain ⟨b, hb, hb'⟩ := (raise_told 2 (.link l) (sendAdvisory l .restored u)).handed.no_forwarded
    refine ⟨fun k h2 h22 => (raise_source_of_ne _ _ h2 h22).trans (sendAdvisory_source _ _ _ h22),
      (raise_told ..).dest.trans (sendAdvisory_dest ..), ⟨a ++ b, by rw [hb, ha, List.append_assoc], fun r hr =>
        (List.mem_append.1 hr).elim (ha' r) (hb' r)⟩, ?_⟩
    unfold ReportsOnly at reports
    rw [List.append_nil]
    exact reports
  have kept : Restored [] u u := ⟨fun _ _ _ => rfl, rfl, ⟨[], by simp, by simp⟩, by rw [List.append_nil]⟩
  cases before with
  | late | lapsed => exact told
  | unbound | waiting | live => exact kept

/-- The span that acceptance adds (R70). -/
theorem acceptSpan_eq (before : LinkState) (segment : Option Nat) (s : State) :
    acceptSpan before segment s = { s with flight := { s.flight with spans := s.flight.spans ++
      (if before = .waiting ∨ before = .lapsed then spansFor .add segment else []) } } := by
  cases before with
  | waiting | lapsed => exact sendSpanFor_eq ..
  | unbound | live | late => simp [acceptSpan]

/-- The frame of a forward, or of its drop as port down (R69). -/
theorem forwardTo_usable {p : Port} {q : QClass} {f : Frame} {s : State} (h : s.usable p = true) :
    forwardTo p q f s = handOff { queues := [(p, q)], kind := f.kind, body := .forwarded f.bytes } s := if_pos h

theorem forwardTo_down {p : Port} {q : QClass} {f : Frame} {s : State} (h : s.usable p = false) :
    forwardTo p q f s = portDownDrop p s := if_neg (by rw [h]; decide)

theorem forwardTo_reportsOnly (p : Port) (q : QClass) (f : Frame) (s : State) : ReportsOnly s (forwardTo p q f s) := by
  unfold forwardTo
  split
  · exact handOff_reportsOnly ..
  · exact portDownDrop_reportsOnly ..

theorem forwardTo_source (p : Port) (q : QClass) (f : Frame) (s : State) {k : SourceNo} (hk : k ≠ 22) :
    (forwardTo p q f s).source k = s.source k := by
  unfold forwardTo
  split
  · rfl
  · exact (portDownDrop_droppedPortDown p s).sources k hk

/-- An advisory that has been sent, and a frame dropped as port down after it. -/
theorem AdvisorySent.then_portDown {l : LinkNo} {code : Nat} {s u : State} (h : AdvisorySent l code [] s u)
    (hdest : u.ntu.dest = s.ntu.dest) (hports : u.ports = s.ports) (trunk : Port) :
    AdvisorySent l code [trunk] s (portDownDrop trunk u) := by
  have dropped := portDownDrop_droppedPortDown trunk u
  rw [advisorySent_iff] at h ⊢
  generalize advisoryTrunk s (s.link l).config.sid = p at h
  obtain ⟨more, henqueues, hnotice⟩ := dropped.handed
  refine ⟨fun hup => ?_, fun hdown => ⟨fun r hr => ?_, fun out => ?_⟩⟩
  · have sent := h.1 hup
    rw [henqueues, List.getElem?_append_left (List.getElem?_eq_some_iff.1 sent).1]
    exact sent
  · rw [henqueues, List.drop_append] at hr
    obtain hr | hr := List.mem_append.1 hr
    · exact (h.2 hdown).1 r hr
    · rw [(hnotice r (List.mem_of_mem_drop hr)).2]
      exact fun h => nomatch h
  · obtain ⟨hdrop, hcounter⟩ := (h.2 hdown).2 out
    obtain ⟨tcounter, tdrop, tothers⟩ := dropped.counts (.inl (out.congr hdest hports))
    unfold DropRises CounterRises at *
    refine ⟨?_, ?_⟩
    · rw [tdrop, hdrop]
      simp only [List.length_nil, List.length_singleton]
      omega
    · by_cases hp : p = trunk
      · subst hp
        rw [tcounter, hcounter]
        simp only [List.count_nil, List.count_singleton_self]
        omega
      · rw [tothers p hp, hcounter, List.count_singleton, if_neg (by simpa using fun h => hp h.symm)]
        rfl

/-- The state in which an accepted frame is forwarded: the link is written, restored and spanned, and CRANE-UNCOVERED
presented where it may have changed (R69, R70, R100). -/
def acceptedState (l : LinkNo) (f : Frame) (arrival : QPort) (s : State) : State :=
  let x := s.link l
  let y := x.accepted f.cycle arrival
  let s1 := acceptSpan x.state x.segment (restoreNotice l x.state (s.setLink l y))
  if x.state ≠ .live ∨ y.context ≠ x.context then presentUncovered s1 else s1

theorem acceptControl_eq (l : LinkNo) (f : Frame) (arrival : QPort) (trunk : Port) (s : State) :
    acceptControl l f arrival trunk s = forwardTo trunk .c f (acceptedState l f arrival s) := rfl

section Accepted

variable {l : LinkNo} {f : Frame} {q : QPort} {s v : State}

/-- The accepted state is the restored and spanned one, with notice sources told. -/
theorem acceptedState_told (l : LinkNo) (f : Frame) (q : QPort) (s : State) :
    Told (acceptSpan (s.link l).state (s.link l).segment
      (restoreNotice l (s.link l).state (s.setLink l ((s.link l).accepted f.cycle q)))) (acceptedState l f q s) := by
  unfold acceptedState
  dsimp only
  split
  · exact presentUncovered_told _
  · exact .refl _

theorem acceptedState_source {k : SourceNo} (h5 : k ≠ 5) (h22 : k ≠ 22) : (acceptedState l f q s).source k =
    (restoreNotice l (s.link l).state (s.setLink l ((s.link l).accepted f.cycle q))).source k := by
  have spanned (before : LinkState) (segment : Option Nat) (w : State) :
      (acceptSpan before segment w).source k = w.source k := by
    rw [acceptSpan_eq]
    rfl
  unfold acceptedState
  dsimp only
  split
  · exact (presentUncovered_source _ h5 h22).trans (spanned ..)
  · exact spanned ..

/-- What acceptance leaves before the frame is forwarded. -/
theorem acceptedState_effect (hv : v = acceptedState l f q s) :
    v.link l = (s.link l).accepted f.cycle q ∧ v.ports = s.ports ∧ v.ntu.dest = s.ntu.dest ∧
      v.flight.spans = s.flight.spans ++ (if (s.link l).state = .waiting ∨ (s.link l).state = .lapsed
        then spansFor .add (s.link l).segment else []) ∧
      (∃ more, v.flight.enqueues = s.flight.enqueues ++ more ∧ ∀ r ∈ more, r.body.origin ≠ .forwarded) ∧
      LinkFrame l s v := by
  have told := acceptedState_told l f q s
  have restored := restoreNotice_restored l (s.link l).state (s.setLink l ((s.link l).accepted f.cycle q))
  rw [acceptSpan_eq, ← hv] at told
  generalize restoreNotice l (s.link l).state (s.setLink l ((s.link l).accepted f.cycle q)) = w at *
  obtain ⟨a, ha, ha'⟩ := restored.handed
  obtain ⟨b, hb, hb'⟩ := told.handed.no_forwarded
  have reports := told.frame
  have frame := restored.frame
  rw [List.append_nil] at frame
  have hlinks : v.links = (s.setLink l ((s.link l).accepted f.cycle q)).links := by rw [reports, frame]
  refine ⟨?_, ?_, ?_, ?_, ⟨a ++ b, ?_, fun r hr => (List.mem_append.1 hr).elim (ha' r) (hb' r)⟩, fun m hm => ?_, ?_⟩
  · unfold State.link
    rw [hlinks]
    exact State.link_setLink_self ..
  · rw [reports, frame]
    rfl
  · rw [told.dest]
    exact restored.dest
  · rw [reports.spans, frame]
    rfl
  · rw [hb]
    show w.flight.enqueues ++ b = _
    rw [ha, List.append_assoc]
    rfl
  · unfold State.link
    rw [hlinks]
    exact State.link_setLink_of_ne _ _ hm
  · unfold ReportsOnly at reports
    rw [reports, frame]
    rfl

/-- A LATE or LAPSED link is restored, with its advisory and its event (R70, R80). -/
theorem acceptedState_restores (hv : v = acceptedState l f q s)
    (hstate : (s.link l).state = .late ∨ (s.link l).state = .lapsed) :
    AdvisorySent l 3 [] s v ∧ TookEvent 2 (.link l) s v := by
  have told := acceptedState_told l f q s
  have hrestore : restoreNotice l (s.link l).state (s.setLink l ((s.link l).accepted f.cycle q)) =
      raise 2 (.link l) (sendAdvisory l .restored (s.setLink l ((s.link l).accepted f.cycle q))) := by
    obtain h | h := hstate
    · rw [h]; rfl
    · rw [h]; rfl
  have hconfig : ((s.link l).accepted f.cycle q).config = (s.link l).config := by
    unfold Link.accepted
    dsimp only
    split
    · split <;> rfl
    · rfl
  have alike : AdvisedAlike l s (s.setLink l ((s.link l).accepted f.cycle q)) :=
    ⟨by rw [State.link_setLink_self, hconfig], rfl, rfl, rfl, rfl, rfl⟩
  obtain ⟨hsent, hevent, hreports⟩ := advisoryEvent .restored (k := 2) (.link l) (by decide) alike rfl
  have hdest := restoreNotice_restored l (s.link l).state (s.setLink l ((s.link l).accepted f.cycle q))
  have hsource := acceptedState_source (l := l) (f := f) (q := q) (s := s) (k := 2) (by decide) (by decide)
  rw [← hv] at hsource
  rw [hrestore] at told hdest hsource
  generalize raise 2 (.link l) (sendAdvisory l .restored (s.setLink l ((s.link l).accepted f.cycle q))) = w at *
  rw [acceptSpan_eq, ← hv] at told
  have hspanned : AdvisorySent l 3 [] s { w with flight := { w.flight with spans := w.flight.spans ++
      (if (s.link l).state = .waiting ∨ (s.link l).state = .lapsed then spansFor .add (s.link l).segment else []) } } :=
    hsent
  exact ⟨hspanned.told hdest.dest (by rw [hreports.ports]; rfl) told, hevent.kept hsource⟩

/-- Where no link is restored, acceptance tells notice sources alone. -/
theorem acceptedState_quiet (hv : v = acceptedState l f q s)
    (hstate : (s.link l).state = .waiting ∨ (s.link l).state = .live) (out : NoticesGoOut s) :
    NoticesGoOut v ∧ v.ctb = s.ctb := by
  have told := acceptedState_told l f q s
  have hrestore : restoreNotice l (s.link l).state (s.setLink l ((s.link l).accepted f.cycle q)) =
      s.setLink l ((s.link l).accepted f.cycle q) := by
    obtain h | h := hstate
    · rw [h]; rfl
    · rw [h]; rfl
  rw [hrestore, acceptSpan_eq, ← hv] at told
  exact ⟨told.goOut out, told.counts out⟩

/-- The link after an accepted frame (R69, R70, R92). -/
theorem Link.accepted_eq (x : Link) (cycle : Nat) (q : QPort) :
    (x.context = none → x.accepted cycle q =
      { x with cycle := some cycle, missed := 0, timer := some x.config.period, state := .live }) ∧
    ∀ h, x.context = some h → x.accepted cycle q =
      if h.new = q then
        { x with
          cycle := some cycle, missed := 0, timer := some x.config.period, state := .live
          primary := h.new, context := none
          counts := { x.counts with completed := min 4294967295 (x.counts.completed + 1) } }
      else { x with cycle := some cycle, missed := 0, timer := some x.config.period, state := .live } := by
  unfold Link.accepted
  refine ⟨fun hctx => by simp only [hctx], fun h hctx => ?_⟩
  simp only [hctx]
  rfl

end Accepted

/-- Uplink control that the filter drops (R71). -/
theorem uplinkControl_duplicate {l : LinkNo} {f : Frame} (q : QPort) (trunk : Port) {s : State}
    (h : judgeCycle (s.link l) f.cycle = .duplicate) : uplinkControl l f q trunk s =
      addDrop 11 1 (s.linkCounts l (fun c => { c with duplicates := countUp c.duplicates 1 })) := by
  simp only [uplinkControl, h]

theorem uplinkControl_stale {l : LinkNo} {f : Frame} (q : QPort) (trunk : Port) {s : State}
    (h : judgeCycle (s.link l) f.cycle = .stale) : uplinkControl l f q trunk s =
      addDrop 12 1 (s.linkCounts l (fun c => { c with stale := countUp c.stale 1 })) := by
  simp only [uplinkControl, h]

/-- Settles O16: the judgement of the filter, and the effect of each. -/
theorem cycleFilterJudgesUplinkControl : Obligations.CycleFilterJudgesUplinkControl := by
  intro l f q trunk s hbound x fresh d t
  have hdropped (last : Nat) (hfresh : ¬fresh) (hlast : x.cycle = some last) (hd : d last = 0) :
      t = addDrop 11 1 (s.linkCounts l (fun c => { c with duplicates := countUp c.duplicates 1 })) := by
    have hjudge := judgeCycle_compared (cycle := f.cycle) hbound hfresh hlast
    rw [if_pos hd] at hjudge
    exact uplinkControl_duplicate q trunk hjudge
  have hstale (last : Nat) (hfresh : ¬fresh) (hlast : x.cycle = some last) (hd : 128 ≤ d last) :
      t = addDrop 12 1 (s.linkCounts l (fun c => { c with stale := countUp c.stale 1 })) := by
    have hjudge := judgeCycle_compared (cycle := f.cycle) hbound hfresh hlast
    rw [if_neg (show ¬d last = 0 by omega), if_neg (show ¬d last ≤ 127 by omega)] at hjudge
    exact uplinkControl_stale q trunk hjudge
  have haccepted (h : judgeCycle x f.cycle = .accepted) : t = forwardTo trunk .c f (acceptedState l f q s) := by
    rw [← acceptControl_eq]
    simp only [t, uplinkControl, x, h]
  have hframe : LinkFrame l s t := by
    cases hjudge : judgeCycle x f.cycle with
    | accepted =>
      rw [haccepted hjudge]
      obtain ⟨-, -, -, -, -, hframe⟩ := acceptedState_effect (l := l) (f := f) (q := q) (s := s) rfl
      exact hframe.trans ((forwardTo_reportsOnly ..).linkFrame l)
    | duplicate =>
      exact (linkCount_dropped l _ 11 s (uplinkControl_duplicate q trunk hjudge)).2.2.2
    | stale =>
      exact (linkCount_dropped l _ 12 s (uplinkControl_stale q trunk hjudge)).2.2.2
  clear_value t
  refine ⟨fun haccept => ?_, fun last hfresh hlast hd => ?_, fun last hfresh hlast hd => ?_, ?_⟩
  · have ht := haccepted (judgeCycle_accepted hbound haccept)
    generalize hv : acceptedState l f q s = v at ht
    obtain ⟨hlink, hports, hdest, hspans, ⟨more, henqueues, hmore⟩, -⟩ := acceptedState_effect hv.symm
    have husable : v.usable = s.usable := State.usable_congr hports
    have reports := forwardTo_reportsOnly trunk .c f v
    rw [← ht] at reports
    have hup (h : s.usable trunk = true) :
        t = handOff { queues := [(trunk, .c)], kind := f.kind, body := .forwarded f.bytes } v :=
      ht.trans (forwardTo_usable (by rw [husable]; exact h))
    have hdown (h : s.usable trunk = false) : t = portDownDrop trunk v :=
      ht.trans (forwardTo_down (by rw [husable]; exact h))
    obtain ⟨hwithout, hwith⟩ := Link.accepted_eq (s.link l) f.cycle q
    refine ⟨(reports.link l).trans (hlink.trans ?_), fun hstate => ?_, reports.spans.trans hspans, fun h => ?_,
      fun h => ⟨fun r hr => ?_, fun out hstate => ?_⟩⟩
    · cases hctx : (s.link l).context with
      | none => exact (hwithout hctx).trans (by rw [hctx])
      | some h =>
        rw [hwith h hctx]
        simp only [x]
        split
        · next hnew => rw [hnew]
        · rw [hctx]
    · obtain ⟨hsent, hevent⟩ := acceptedState_restores hv.symm hstate
      refine ⟨hevent.kept ?_, ?_⟩
      · rw [ht]
        exact forwardTo_source trunk .c f v (by decide)
      · cases h : s.usable trunk with
        | true =>
          rw [if_pos rfl, hup h]
          exact advisorySent_iff.2 ((advisorySent_iff.1 hsent).handOff fun h => nomatch h)
        | false =>
          rw [if_neg (by decide), hdown h]
          exact hsent.then_portDown hdest hports trunk
    · rw [hup h]
      exact List.getLast?_concat ..
    · obtain ⟨b, hb, hb'⟩ := (portDownDrop_droppedPortDown trunk v).handed.no_forwarded
      rw [hdown h, hb, henqueues, List.append_assoc, List.drop_left] at hr
      exact (List.mem_append.1 hr).elim (hmore r) (hb' r)
    · obtain ⟨hout, hctb⟩ := acceptedState_quiet hv.symm hstate out
      obtain ⟨hcounter, hdrop, -⟩ := (portDownDrop_droppedPortDown trunk v).counts (.inl hout)
      unfold DropRises CounterRises State.counter at *
      rw [hdown h, hdrop, hcounter, hctb]
      exact ⟨rfl, rfl⟩
  · obtain ⟨hlink, hdrop, hframe, -⟩ := linkCount_dropped l _ 11 s (hdropped last hfresh hlast hd)
    exact ⟨hlink, hdrop, hframe⟩
  · obtain ⟨hlink, hdrop, hframe, -⟩ := linkCount_dropped l _ 12 s (hstale last hfresh hlast hd)
    exact ⟨hlink, hdrop, hframe⟩
  · exact hframe

end Sys2Proof.Machine
end

section
/-! Downlink control at a crane link, and frames dropped as port down at several ports (R75 to R79): O17. -/

namespace Sys2Proof.Machine

/-! ### Counts that are counted in turn -/

theorem DropRisesBy.after {r : Fin 20} {n : Nat} {s u t : State} (h : DropRises r 1 s u) (g : DropRisesBy r n u t) :
    DropRisesBy r (n + 1) s t := by
  obtain ⟨hnone, hsome⟩ := g
  refine ⟨fun h => absurd h (Nat.succ_ne_zero n), fun _ => ?_⟩
  unfold DropRises at *
  by_cases hn : n = 0
  · rw [hnone hn, h, hn]
  · rw [hsome hn, h]
    omega

theorem CounterRisesBy.after {p : Port} {c : Fin 12} {n : Nat} {s u t : State} (h : CounterRises p c 1 s u)
    (g : CounterRisesBy p c n u t) : CounterRisesBy p c (n + 1) s t := by
  obtain ⟨hnone, hsome⟩ := g
  refine ⟨fun h => absurd h (Nat.succ_ne_zero n), fun _ => ?_⟩
  unfold CounterRises at *
  by_cases hn : n = 0
  · rw [hnone hn, h, hn]
  · rw [hsome hn, h]
    omega

/-- Where no notice frame is lost, frames dropped at ports count each of them, once for each time it is named. -/
theorem DroppedAtPorts.counts {ps : List Port} {s t : State} (h : DroppedAtPorts ps s t) (out : NoticesGoOut s) :
    DropRisesBy 9 ps.length s t ∧ ∀ p, CounterRisesBy p 10 (ps.count p) s t := by
  induction ps generalizing s with
  | nil => cases h; exact ⟨⟨fun _ => rfl, fun h => absurd rfl h⟩, fun _ => ⟨fun _ => rfl, fun h => absurd rfl h⟩⟩
  | cons p ps ih =>
    obtain ⟨u, dropped, rest⟩ := h
    obtain ⟨hcounter, hdrop, hothers⟩ := dropped.counts (.inl out)
    obtain ⟨restDrop, restCounter⟩ := ih rest (out.congr dropped.dest dropped.frame.ports)
    refine ⟨restDrop.after hdrop, fun q => ?_⟩
    by_cases hq : q = p
    · subst hq
      rw [List.count_cons_self]
      exact (restCounter q).after hcounter
    · rw [List.count_cons_of_ne (fun h => hq h.symm)]
      have rest := restCounter q
      unfold CounterRisesBy CounterRises at rest ⊢
      rw [hothers q hq] at rest
      exact rest

/-! ### What downlink control leaves alone -/

/-- What downlink control changes at most, with a link of its own: that link, a bucket, and what reports change. -/
def ControlFrame (l : LinkNo) (s t : State) : Prop :=
  (∀ m, m ≠ l → t.link m = s.link m) ∧
    t = { s with
      links := t.links, fsq := t.fsq, ntu := t.ntu, ctb := t.ctb
      flight := { s.flight with enqueues := t.flight.enqueues } }

theorem ControlFrame.reports {l : LinkNo} {s t u : State} (h : ControlFrame l s t) (g : ReportsOnly t u) :
    ControlFrame l s u := by
  obtain ⟨hlinks, hframe⟩ := h
  refine ⟨fun m hm => (g.link m).trans (hlinks m hm), ?_⟩
  unfold ReportsOnly at g
  rw [g, hframe]

/-! ### The checks of a downlink control frame (R75 to R77) -/

section Checks

variable {l : LinkNo} {f : Frame} {arrival : Port} {s : State}

theorem downlinkControl_lapsed (h : (s.link l).state = .lapsed) : downlinkControl l f arrival s =
    addDrop 14 1 (s.linkCounts l (fun c => { c with lapsedDiscard := countUp c.lapsedDiscard 1 })) := if_pos h

theorem downlinkControl_foreign (h : (s.link l).state ≠ .lapsed)
    (hpeer : ∃ own, (s.link l).config.peer = some own ∧ own ≠ f.peer) : downlinkControl l f arrival s =
    raise 3 (.foreign l f.peer) (addDrop 13 1 (s.linkCounts l (fun c => { c with foreign := countUp c.foreign 1 }))) := by
  obtain ⟨own, hown, hne⟩ := hpeer
  unfold downlinkControl
  dsimp only
  rw [if_neg h, if_pos]
  rw [hown]
  simpa using hne

theorem downlinkControl_policed (h : (s.link l).state ≠ .lapsed)
    (hpeer : ¬∃ own, (s.link l).config.peer = some own ∧ own ≠ f.peer) : downlinkControl l f arrival s =
    if (offer (linkBucket l) f.length arrival s).1 then deliverControl ((s.link l).refilled f) f
        ((offer (linkBucket l) f.length arrival s).2.setLink l ((s.link l).refilled f))
    else bump arrival 6 1 (addDrop 7 1 (offer (linkBucket l) f.length arrival s).2) := by
  unfold downlinkControl
  dsimp only
  rw [if_neg h, if_neg]
  · cases hown : (s.link l).config.peer with
    | none => simp
    | some own => simpa using not_not.1 fun hne => hpeer ⟨own, hown, hne⟩

/-- A downlink control frame that passes the checks is charged, kept and delivered. -/
theorem downlinkControl_passes (h : (s.link l).state ≠ .lapsed)
    (hpeer : ¬∃ own, (s.link l).config.peer = some own ∧ own ≠ f.peer)
    (hconforms : Conforms (linkBucket l) f.length arrival s) : downlinkControl l f arrival s =
    deliverControl ((s.link l).refilled f) f
      ((charged (linkBucket l) f.length arrival s).setLink l ((s.link l).refilled f)) := by
  rw [downlinkControl_policed h hpeer, offer_conforms hconforms, if_pos rfl]

theorem downlinkControl_held (h : (s.link l).state ≠ .lapsed)
    (hpeer : ¬∃ own, (s.link l).config.peer = some own ∧ own ≠ f.peer)
    (hheld : ¬Conforms (linkBucket l) f.length arrival s) : downlinkControl l f arrival s =
    bump arrival 6 1 (addDrop 7 1 (heldBack (linkBucket l) f.length arrival s)) := by
  rw [downlinkControl_policed h hpeer, offer_not_conforms hheld, if_neg Bool.false_ne_true]

end Checks

/-- A frame that does not conform counts an over-burst drop at most. -/
theorem heldBack_frame (b : BucketNo) (n : Nat) (p : Port) (s : State) :
    heldBack b n p s = { s with fsq := (heldBack b n p s).fsq } ∧ (heldBack b n p s).fsq.buckets = s.fsq.buckets := by
  unfold heldBack
  split <;> exact ⟨rfl, rfl⟩

/-- A link's ports of delivery (R78). -/
theorem Link.deliveryPorts_nodup (x : Link) : x.deliveryPorts.Nodup := by
  unfold Link.deliveryPorts
  cases x.context with
  | none => simp
  | some h =>
    simp only
    split
    · simp
    · next hne => simpa using fun e => hne e.symm

theorem Link.refilled_deliveryPorts (x : Link) (f : Frame) : (x.refilled f).deliveryPorts = x.deliveryPorts := by
  unfold Link.refilled
  split <;> rfl

theorem charged_bucket (b : BucketNo) (n : Nat) (p : Port) (s : State) : (charged b n p s).bucket b =
    if (s.bucket b).rate = 0 then s.bucket b
    else { s.bucket b with credit := (s.bucket b).credit - frameCost b n p s } := by
  unfold charged
  split
  · rfl
  · exact vset_get_self ..

/-! ### O17 -/

/-- A delivery as a whole: the link and the buckets as they were, the ports that are not usable counted, and the frame
handed on for the others. -/
theorem deliverControl_effect (x : Link) (f : Frame) {s t : State} (ht : t = deliverControl x f s) :
    let good := x.deliveryPorts.filter (fun q => s.usable (QPort.port q))
    let bad := x.deliveryPorts.filter (fun q => !s.usable (QPort.port q))
    ReportsOnly s t ∧
    (NoticesGoOut s → DropRisesBy 9 bad.length s t ∧ ∀ q ∈ bad, CounterRises (QPort.port q) 10 1 s t) ∧
    (good = [] → HandsOnNotices s t) ∧
    (good ≠ [] → t.flight.enqueues.getLast? = some
      { queues := good.map (fun q => (QPort.port q, .c)), kind := f.kind, body := .forwarded f.bytes }) ∧
    (good = x.deliveryPorts → t.flight.enqueues.length = s.flight.enqueues.length + 1) := by
  intro good bad
  obtain ⟨v, dropped, hv⟩ := deliverControl_eq x f s
  have nodup : (bad.map QPort.port).Nodup := (x.deliveryPorts_nodup.filter _).map (fun a b h => by
    have := congrArg Port.quay h
    rwa [quay_port, quay_port, Option.some_inj] at this)
  obtain ⟨reports, handed⟩ := dropped.reports
  have counts (out : NoticesGoOut s) :
      DropRisesBy 9 bad.length s v ∧ ∀ q ∈ bad, CounterRises (QPort.port q) 10 1 s v := by
    obtain ⟨hdrop, hcounter⟩ := dropped.counts out
    rw [List.length_map] at hdrop
    refine ⟨hdrop, fun q hq => ?_⟩
    obtain ⟨-, hrises⟩ := hcounter (QPort.port q)
    rw [List.count_eq_one_of_mem nodup (List.mem_map_of_mem hq)] at hrises
    exact hrises (by decide)
  have hfull (hgood : good = x.deliveryPorts) : v = s ∧ good ≠ [] := by
    have hempty : bad = [] := by
      rw [List.filter_eq_nil_iff]
      intro q hq
      have := List.filter_eq_self.1 hgood q hq
      simpa using this
    refine ⟨?_, ?_⟩
    · rw [show x.deliveryPorts.filter (fun q => !s.usable (QPort.port q)) = [] from hempty] at dropped
      exact dropped
    · rw [hgood]
      unfold Link.deliveryPorts
      split
      · exact fun h => nomatch h
      · split <;> exact fun h => nomatch h
  rw [hv] at ht
  by_cases hgood : good = []
  · rw [if_pos hgood] at ht
    subst ht
    exact ⟨reports, counts, fun _ => handed, fun h => absurd hgood h, fun h => absurd hgood (hfull h).2⟩
  · rw [if_neg hgood] at ht
    subst ht
    refine ⟨?_, counts, fun h => absurd h hgood, fun _ => List.getLast?_concat .., fun h => ?_⟩
    · unfold ReportsOnly at reports ⊢
      rw [reports]
    · rw [(hfull h).1]
      exact List.length_append

/-- What a downlink control frame comes to changes its own link, a bucket and what reports change. -/
theorem downlinkControl_frame (l : LinkNo) (f : Frame) (arrival : Port) (s : State) :
    ControlFrame l s (downlinkControl l f arrival s) := by
  have counted (g : LinkCounts → LinkCounts) : ControlFrame l s (s.linkCounts l g) :=
    ⟨fun _ hm => State.link_setLink_of_ne _ _ hm, rfl⟩
  by_cases h : (s.link l).state = .lapsed
  · rw [downlinkControl_lapsed h]
    exact (counted _).reports (addDrop_reportsOnly ..)
  · by_cases hpeer : ∃ own, (s.link l).config.peer = some own ∧ own ≠ f.peer
    · rw [downlinkControl_foreign h hpeer]
      exact ((counted _).reports (addDrop_reportsOnly ..)).reports (raise_reportsOnly ..)
    · by_cases hconforms : Conforms (linkBucket l) f.length arrival s
      · rw [downlinkControl_passes h hpeer hconforms]
        obtain ⟨reports, -⟩ := deliverControl_effect ((s.link l).refilled f) f
          (s := (charged (linkBucket l) f.length arrival s).setLink l ((s.link l).refilled f)) rfl
        refine ControlFrame.reports ?_ reports
        rw [charged_frame]
        exact ⟨fun _ hm => State.link_setLink_of_ne _ _ hm, rfl⟩
      · rw [downlinkControl_held h hpeer hconforms]
        refine ControlFrame.reports (ControlFrame.reports ?_ (addDrop_reportsOnly ..)) (bump_reportsOnly ..)
        obtain ⟨hheld, -⟩ := heldBack_frame (linkBucket l) f.length arrival s
        rw [hheld]
        exact ⟨fun _ _ => rfl, rfl⟩

/-- Settles O17: each check in its order, and the delivery of a frame that passes. -/
theorem downlinkControlIsCheckedAndDelivered : Obligations.DownlinkControlIsCheckedAndDelivered := by
  intro l f arrival s hkind x b cost ports good bad foreign t
  obtain ⟨hlinks, hframe⟩ := downlinkControl_frame l f arrival s
  refine ⟨fun h => ?_, fun h hpeer => ?_, fun h hpeer hrate hcredit => ?_, fun h hpeer hconforms => ?_, hlinks, hframe⟩
  · obtain ⟨hlink, hdrop, hframe, -⟩ := linkCount_dropped l _ 14 s (t := t) (downlinkControl_lapsed h)
    exact ⟨hlink, hdrop, hframe⟩
  · have ht : t = _ := downlinkControl_foreign (arrival := arrival) h hpeer
    obtain ⟨hlink, hdrop, hframe, -⟩ := linkCount_dropped l
      (fun c => { c with foreign := countUp c.foreign 1 }) 13 s rfl
    have raised := raise_eventRaised 3 (.foreign l f.peer)
      (addDrop 13 1 (s.linkCounts l (fun c => { c with foreign := countUp c.foreign 1 }))) (by decide)
    rw [← ht] at raised
    have reports := raised.frame
    refine ⟨(reports.link l).trans hlink, ?_, raised.event, by rw [reports]; rfl⟩
    have hreason := raised.drops 13 (by decide)
    unfold DropRises at *
    rw [hreason, hdrop]
  · have ht : t = _ := downlinkControl_held h hpeer fun hc => hc.elim hrate (not_le.2 hcredit)
    obtain ⟨hheld, hbuckets⟩ := heldBack_frame (linkBucket l) f.length arrival s
    have dropped := countsDrop_some arrival 6 7 (heldBack (linkBucket l) f.length arrival s) (by decide) (by decide)
    rw [← ht] at dropped
    generalize heldBack (linkBucket l) f.length arrival s = w at *
    have reports := dropped.frame
    have hctb : w.ctb = s.ctb := by rw [hheld]
    refine ⟨(reports.link l).trans (by rw [hheld]; rfl), ?_, ?_, by rw [reports]; exact hbuckets⟩
    · have hreason := dropped.reason
      unfold DropRises at *
      rwa [hctb] at hreason
    · have hcounter := dropped.port 6 rfl
      unfold CounterRises State.counter at *
      rwa [hctb] at hcounter
  · intro y
    have ht : t = _ := downlinkControl_passes h hpeer hconforms
    change t = deliverControl y f ((charged (linkBucket l) f.length arrival s).setLink l y) at ht
    have hy : y.deliveryPorts = ports := by
      refine (x.refilled_deliveryPorts f).trans ?_
      simp only [ports, Link.deliveryPorts]
      cases x.context <;> rfl
    have hbucket := charged_bucket (linkBucket l) f.length arrival s
    obtain ⟨v, dropped, hv⟩ := deliverControl_eq y f ((charged (linkBucket l) f.length arrival s).setLink l y)
    have effect := deliverControl_effect y f ht
    have hcharged := charged_frame (linkBucket l) f.length arrival s
    have husable : ((charged (linkBucket l) f.length arrival s).setLink l y).usable = s.usable :=
      State.usable_congr (by rw [hcharged]; rfl)
    have hctb : ((charged (linkBucket l) f.length arrival s).setLink l y).ctb = s.ctb := by rw [hcharged]; rfl
    have hflight : ((charged (linkBucket l) f.length arrival s).setLink l y).flight = s.flight := by
      rw [hcharged]; rfl
    have hout (out : NoticesGoOut s) : NoticesGoOut ((charged (linkBucket l) f.length arrival s).setLink l y) :=
      out.congr (by rw [hcharged]; rfl) (by rw [hcharged]; rfl)
    rw [hy, husable] at dropped hv
    rw [← ht, hkind] at hv
    simp only [hy, husable, hkind] at effect
    obtain ⟨reports, hcounts, hnotices, hlast, hone⟩ := effect
    refine ⟨(reports.link l).trans (State.link_setLink_self ..), ?_, ⟨v, dropped, hv⟩, fun out => ?_, fun h => ?_,
      hlast, fun h => ?_⟩
    · rw [reports]
      exact hbucket
    · have counted := hcounts (hout out)
      unfold DropRisesBy DropRises CounterRises State.counter at *
      rw [hctb] at counted
      exact counted
    · have handed := hnotices h
      unfold HandsOnNotices at *
      rwa [hflight] at handed
    · rw [hone h, hflight]

end Sys2Proof.Machine
end

section
/-! Downlink steering (R56 to R60): O21. -/

namespace Sys2Proof.Machine

/-- A frame delivered to the ports of a list that carry it: each other port is counted under service mode (R57). -/
def Delivered (carries : QPort → Bool) (f : Frame) (d : Domain) (ports : List QPort) (u t : State) : Prop :=
  DropRises 6 (ports.filter (fun q => !carries q)).length u t ∧
  (∀ r, r ≠ 6 → t.ctb.drops.get r = u.ctb.drops.get r) ∧
  t = { u with
    ctb := { u.ctb with drops := t.ctb.drops }
    flight := { u.flight with enqueues := u.flight.enqueues ++
      (if ports.filter carries = [] then []
        else [{ queues := (ports.filter carries).map (fun q => (QPort.port q, d.queue.queue)), kind := f.kind
                body := .forwarded f.bytes }]) } }

/-- Whether a quay port's service mode carries a frame's kind (R23). -/
def carriesKind (s : State) (f : Frame) (q : QPort) : Bool :=
  (s.port (QPort.port q)).mode != .craneOnly ||
    [Kind.craneControl, .positionReport, .managementCommand, .managementReply].contains f.kind

theorem carriesKind_eq (s : State) (f : Frame) (q : QPort) :
    carriesKind s f q = !((s.port (QPort.port q)).mode == .craneOnly && !f.kind.craneOnly) := by
  unfold carriesKind
  cases (s.port (QPort.port q)).mode <;> cases f.kind <;> rfl

theorem deliverSteered_delivered (f : Frame) (d : Domain) (ports : List QPort) (u : State) :
    Delivered (carriesKind u f) f d ports u (deliverSteered f d ports u) := by
  have hkept : ports.filter (fun q => !((u.port (QPort.port q)).mode == .craneOnly && !f.kind.craneOnly)) =
      ports.filter (carriesKind u f) := List.filter_congr fun q _ => (carriesKind_eq u f q).symm
  have hremoved : ports.filter (fun q => (u.port (QPort.port q)).mode == .craneOnly && !f.kind.craneOnly) =
      ports.filter (fun q => !carriesKind u f q) :=
    List.filter_congr fun q _ => by rw [carriesKind_eq, Bool.not_not]
  unfold Delivered deliverSteered DropRises
  simp only [hkept, hremoved]
  by_cases h : ports.filter (carriesKind u f) = []
  · rw [if_pos h, if_pos h, List.append_nil]
    exact ⟨(addDrop_drops ..).trans (if_pos rfl), fun r hr => (addDrop_drops ..).trans (if_neg hr), rfl⟩
  · rw [if_neg h, if_neg h]
    exact ⟨(addDrop_drops 6 _ u 6).trans (if_pos rfl), fun r hr => (addDrop_drops 6 _ u r).trans (if_neg hr), rfl⟩

/-! ### What steering leaves alone -/

/-- What steering changes at most: the counts of the STT, the buckets, and what reports change. -/
def SteerFrame (s t : State) : Prop :=
  t = { s with
    stt := { s.stt with stats := t.stt.stats }, fsq := t.fsq, ntu := t.ntu, ctb := t.ctb
    flight := { s.flight with enqueues := t.flight.enqueues } }

theorem SteerFrame.refl (s : State) : SteerFrame s s := rfl

theorem SteerFrame.reports {s t u : State} (h : SteerFrame s t) (g : ReportsOnly t u) : SteerFrame s u := by
  unfold SteerFrame ReportsOnly at *
  rw [g, h]

theorem SteerFrame.delivered {s u t : State} {carries : QPort → Bool} {f : Frame} {d : Domain} {ports : List QPort}
    (h : SteerFrame s u) (g : Delivered carries f d ports u t) : SteerFrame s t := by
  obtain ⟨-, -, hframe⟩ := g
  unfold SteerFrame at *
  rw [hframe, h]

/-! ### Steering to a port and to a coverage cell (R58, R59) -/

theorem steerToPort_up {f : Frame} {d : Domain} {q : QPort} {s : State} (h : s.usable (QPort.port q) = true) :
    Delivered (carriesKind s f) f d [q] s (steerToPort f d q s) := by
  rw [steerToPort, if_pos h]
  exact deliverSteered_delivered ..

theorem steerToPort_down {f : Frame} {d : Domain} {q : QPort} {s : State} (h : s.usable (QPort.port q) = false) :
    DroppedPortDown (QPort.port q) s (steerToPort f d q s) := by
  rw [steerToPort, if_neg (by rw [h]; exact Bool.false_ne_true)]
  exact portDownDrop_droppedPortDown ..

theorem steerToPort_frame (f : Frame) (d : Domain) (q : QPort) (s : State) : SteerFrame s (steerToPort f d q s) := by
  cases h : s.usable (QPort.port q) with
  | true => exact SteerFrame.delivered (.refl s) (steerToPort_up h)
  | false => exact SteerFrame.reports (.refl s) (steerToPort_down h).frame

/-- The usable ports of a coverage cell (R59). -/
def cellPorts (s : State) (g a : Nat) : List QPort :=
  ((s.cvm.active.cell g a).primary.toList ++ (s.cvm.active.cell g a).secondary.toList).filter
    (fun q => s.usable (QPort.port q))

/-- A SID placed at a coverage cell by its reefer record, while the map is in use (R56). -/
def Placed (s : State) (sid : Sid) (g a : Nat) : Prop :=
  s.cvm.valid = true ∧ ∃ k r, findReefer s sid = some (k, r) ∧
    r.readings.segment = some g ∧ r.readings.lane = some a

theorem locatedPorts_of_placed {s : State} {sid : Sid} {g a : Nat} (h : Placed s sid g a) :
    locatedPorts s sid = cellPorts s g a := by
  obtain ⟨hvalid, k, r, hfind, hsegment, hlane⟩ := h
  simp only [locatedPorts, hvalid, hfind, hsegment, hlane]
  rfl

/-- Located delivery applies to no SID but a placed one. -/
theorem locatedPorts_cases (s : State) (sid : Sid) : locatedPorts s sid = [] ∨ ∃ g a, Placed s sid g a := by
  cases hvalid : s.cvm.valid with
  | false => exact .inl (by simp only [locatedPorts, hvalid])
  | true =>
    cases hfind : findReefer s sid with
    | none => exact .inl (by simp only [locatedPorts, hvalid, hfind])
    | some found =>
      obtain ⟨k, r⟩ := found
      cases hsegment : r.readings.segment with
      | none => exact .inl (by simp only [locatedPorts, hvalid, hfind, hsegment])
      | some g =>
        cases hlane : r.readings.lane with
        | none => exact .inl (by simp only [locatedPorts, hvalid, hfind, hsegment, hlane])
        | some a => exact .inr ⟨g, a, hvalid, k, r, hfind, hsegment, hlane⟩

theorem steerMiss_located {f : Frame} {n : Fin 8} {arrival : Port} {s : State} (h : locatedPorts s f.station ≠ []) :
    steerMiss f n arrival s = deliverSteered f (s.domain n) (locatedPorts s f.station)
      (s.sttStats (fun x => { x with located := countUp x.located 1 })) := by
  unfold steerMiss
  cases hports : locatedPorts s f.station with
  | nil => exact absurd hports h
  | cons q rest => rfl

theorem steerMiss_flood {f : Frame} {n : Fin 8} {arrival : Port} {s : State} (h : locatedPorts s f.station = []) :
    steerMiss f n arrival s = flood f n arrival s := by
  simp only [steerMiss, h]

/-! ### Floods (R60) -/

section Flood

variable {f : Frame} {n : Fin 8} {arrival : Port} {s : State}

/-- The usable ports of a domain's flood set, in ascending order. -/
def floodPorts (s : State) (n : Fin 8) : List QPort :=
  (List.finRange 12).filter (fun q => (s.domain n).flood.getLsbD q.val && s.usable (QPort.port q))

theorem floodPorts_eq (s : State) (n : Fin 8) :
    (quayList (s.domain n).flood).filter (fun q => s.usable (QPort.port q)) = floodPorts s n := by
  unfold quayList floodPorts
  rw [List.filter_filter]
  exact List.filter_congr fun q _ => Bool.and_comm ..

theorem flood_nowhere (h : floodPorts s n = []) : flood f n arrival s = addDrop 9 1 s := by
  simp only [flood, floodPorts_eq, h, if_true]

theorem flood_held (h : floodPorts s n ≠ []) (hheld : ¬Conforms (floodBucket n) f.length arrival s) :
    flood f n arrival s = bump arrival 6 1 (addDrop 7 1 (heldBack (floodBucket n) f.length arrival s)) := by
  simp only [flood, floodPorts_eq, h, if_false, offer_not_conforms hheld, Bool.false_eq_true]

theorem flood_conforms (h : floodPorts s n ≠ []) (hconforms : Conforms (floodBucket n) f.length arrival s) :
    flood f n arrival s = deliverSteered f (s.domain n) (floodPorts s n)
      (charged (floodBucket n) f.length arrival { s with stt := { s.stt with stats := { s.stt.stats with
        floods := min 4294967295 (s.stt.stats.floods + 1) } } }) := by
  have counted : (charged (floodBucket n) f.length arrival s).sttStats
      (fun x => { x with floods := countUp x.floods 1 }) =
      charged (floodBucket n) f.length arrival { s with stt := { s.stt with stats := { s.stt.stats with
        floods := min 4294967295 (s.stt.stats.floods + 1) } } } := by
    unfold charged
    by_cases hrate : (s.bucket (floodBucket n)).rate = 0
    · exact (congrArg (State.sttStats · _) (if_pos hrate)).trans (if_pos hrate).symm
    · exact (congrArg (State.sttStats · _) (if_neg hrate)).trans (if_neg hrate).symm
  simp only [flood, floodPorts_eq, h, if_false, offer_conforms hconforms, if_true, counted]

/-- A flood that conforms delivers the frame at the flood set (R57, R60). -/
theorem flood_delivered (h : floodPorts s n ≠ []) (hconforms : Conforms (floodBucket n) f.length arrival s) :
    Delivered (carriesKind s f) f (s.domain n) (floodPorts s n)
      (charged (floodBucket n) f.length arrival { s with stt := { s.stt with stats := { s.stt.stats with
        floods := min 4294967295 (s.stt.stats.floods + 1) } } }) (flood f n arrival s) := by
  have hcharged := charged_frame (floodBucket n) f.length arrival { s with stt := { s.stt with
    stats := { s.stt.stats with floods := min 4294967295 (s.stt.stats.floods + 1) } } }
  rw [flood_conforms h hconforms]
  generalize charged _ _ _ _ = w at *
  have hcarries : carriesKind w f = carriesKind s f := by rw [hcharged]; rfl
  rw [← hcarries]
  exact deliverSteered_delivered ..

theorem flood_frame (f : Frame) (n : Fin 8) (arrival : Port) (s : State) : SteerFrame s (flood f n arrival s) := by
  by_cases h : floodPorts s n = []
  · rw [flood_nowhere h]
    exact SteerFrame.reports (.refl s) (addDrop_reportsOnly ..)
  · by_cases hconforms : Conforms (floodBucket n) f.length arrival s
    · refine SteerFrame.delivered ?_ (flood_delivered h hconforms)
      unfold SteerFrame
      rw [charged_frame]
    · rw [flood_held h hconforms]
      refine SteerFrame.reports (SteerFrame.reports ?_ (addDrop_reportsOnly ..)) (bump_reportsOnly ..)
      obtain ⟨hheld, -⟩ := heldBack_frame (floodBucket n) f.length arrival s
      rw [hheld]
      rfl

end Flood

/-! ### Steering by the station table (R56) -/

section Steer

variable {f : Frame} {n : Fin 8} {arrival : Port} {s : State}

theorem steer_static {k : Nat} {sid : Sid} {q : QPort} (h : findStatic s f.station = some (k, ⟨sid, .static q⟩)) :
    steer f n arrival s = steerToPort f (s.domain n) q s := by
  simp only [steer, h]

theorem steer_crane {k : Nat} {sid : Sid} {l : LinkNo} (h : findStatic s f.station = some (k, ⟨sid, .crane l⟩)) :
    steer f n arrival s = steerToPort f (s.domain n) (s.link l).primary s := by
  simp only [steer, h]

theorem steer_dynamic {k : Nat} {r : DynRec} (hstatic : findStatic s f.station = none)
    (h : findDynamic s f.station = some (k, r)) : steer f n arrival s = steerToPort f (s.domain n) r.port s := by
  simp only [steer, hstatic, h]

theorem steer_miss (hstatic : findStatic s f.station = none) (hdynamic : findDynamic s f.station = none) :
    steer f n arrival s = steerMiss f n arrival s := by
  simp only [steer, hstatic, hdynamic]

theorem steerMiss_delivered {g a : Nat} (hplaced : Placed s f.station g a) (h : cellPorts s g a ≠ []) :
    Delivered (carriesKind s f) f (s.domain n) (cellPorts s g a)
      { s with stt := { s.stt with stats := { s.stt.stats with located := min 4294967295 (s.stt.stats.located + 1) } } }
      (steerMiss f n arrival s) := by
  have hports := locatedPorts_of_placed hplaced
  rw [steerMiss_located (by rw [hports]; exact h), hports]
  exact deliverSteered_delivered ..

theorem steerMiss_frame (f : Frame) (n : Fin 8) (arrival : Port) (s : State) :
    SteerFrame s (steerMiss f n arrival s) := by
  by_cases h : locatedPorts s f.station = []
  · rw [steerMiss_flood h]
    exact flood_frame ..
  · rw [steerMiss_located h]
    exact SteerFrame.delivered (u := s.sttStats fun x => { x with located := countUp x.located 1 }) rfl
      (deliverSteered_delivered ..)

theorem steer_frame (f : Frame) (n : Fin 8) (arrival : Port) (s : State) : SteerFrame s (steer f n arrival s) := by
  cases hstatic : findStatic s f.station with
  | some found =>
    obtain ⟨k, sid, binding⟩ := found
    cases binding with
    | crane l => rw [steer_crane hstatic]; exact steerToPort_frame ..
    | static q => rw [steer_static hstatic]; exact steerToPort_frame ..
  | none =>
    cases hdynamic : findDynamic s f.station with
    | some found => rw [steer_dynamic hstatic hdynamic]; exact steerToPort_frame ..
    | none => rw [steer_miss hstatic hdynamic]; exact steerMiss_frame ..

end Steer

/-- Settles O21: the record that steers, the cell, and the flood. -/
theorem steeringFollowsTheRecords : Obligations.SteeringFollowsTheRecords := by
  intro f n arrival s d t up carries delivers toPort cells placed ports b
  have hport {q : QPort} (h : t = steerToPort f d q s) : toPort q := by
    refine ⟨fun hup => ?_, fun hdown => ?_⟩
    · have delivered := steerToPort_up (f := f) (d := d) hup
      rw [← h] at delivered
      exact delivered
    · rw [h]
      exact steerToPort_down hdown
  refine ⟨fun k sid q h => hport (steer_static h), fun k sid l h => hport (steer_crane h),
    fun k r hstatic h => hport (steer_dynamic hstatic h), fun hstatic hdynamic => ?_, steer_frame f n arrival s⟩
  have ht : t = steerMiss f n arrival s := steer_miss hstatic hdynamic
  refine ⟨fun g a hplaced hcell => ?_, fun hnowhere => ?_⟩
  · have delivered := steerMiss_delivered (n := n) (arrival := arrival) hplaced hcell
    rw [← ht] at delivered
    exact delivered
  · have hlocated : locatedPorts s f.station = [] :=
      (locatedPorts_cases s f.station).elim id fun ⟨g, a, hplaced⟩ =>
        (locatedPorts_of_placed hplaced).trans (hnowhere g a hplaced)
    rw [steerMiss_flood hlocated] at ht
    refine ⟨fun h => ?_, fun h hconforms => ?_, fun h hheld => ?_⟩
    · have ht : t = _ := ht.trans (flood_nowhere h)
      rw [ht]
      exact ⟨(addDrop_drops ..).trans (if_pos rfl), fun r hr => (addDrop_drops ..).trans (if_neg hr), rfl⟩
    · have delivered := flood_delivered h hconforms
      rw [← ht] at delivered
      exact delivered
    · rw [ht.trans (flood_held h hheld)]
      exact countsDrop_some arrival 6 7 _ (by decide) (by decide)

end Sys2Proof.Machine
end

section
/-! Reefer reports (R108 to R117): O20. -/

namespace Sys2Proof.Machine

/-! ### The body of a report (R109, R111) -/

/-- The codes of a list that an alarm list still takes, each once. -/
def codesLeft (codes acc : List Byte) : List Byte :=
  ((codes.filter (fun c => c != 0 && c != 255)).filter (fun c => !acc.contains c)).eraseDups

theorem codesLeft_passed {c : Byte} {acc : List Byte} (codes : List Byte) (h : c = 0 ∨ c = 255 ∨ c ∈ acc) :
    codesLeft (c :: codes) acc = codesLeft codes acc := by
  unfold codesLeft
  rw [List.filter_cons]
  split
  · next hcode =>
    have hmem : c ∈ acc := by
      obtain h | h | h := h
      · simp [h] at hcode
      · simp [h] at hcode
      · exact h
    rw [List.filter_cons, if_neg (by simpa using hmem)]
  · rfl

theorem codesLeft_taken {c : Byte} {acc : List Byte} (codes : List Byte) (h : ¬(c = 0 ∨ c = 255 ∨ c ∈ acc)) :
    codesLeft (c :: codes) acc = c :: codesLeft codes (acc ++ [c]) := by
  obtain ⟨h0, h255, hnew⟩ : c ≠ 0 ∧ c ≠ 255 ∧ c ∉ acc := by simpa [not_or] using h
  unfold codesLeft
  rw [List.filter_cons, if_pos (by simpa using And.intro h0 h255), List.filter_cons, if_pos (by simpa using hnew), List.eraseDups_cons,
    List.filter_filter (q := fun c => !acc.contains c)]
  congr 3
  funext b
  simp only [List.contains_append, List.contains_cons, List.contains_nil, Bool.or_false, Bool.not_or]
  exact Bool.and_comm ..

/-- The alarm list of a body: the first four codes that count, each once; a fifth one truncates (R111). -/
theorem alarmList_eq (codes acc : List Byte) (t : Bool) (hacc : acc.length ≤ 4) :
    alarmList codes acc t = ((acc ++ codesLeft codes acc).take 4,
      t || decide (4 < acc.length + (codesLeft codes acc).length)) := by
  induction codes generalizing acc t with
  | nil =>
    have hnone : codesLeft [] acc = [] := rfl
    rw [hnone, List.append_nil, List.take_of_length_le hacc]
    simp [alarmList, hacc]
  | cons c codes ih =>
    unfold alarmList
    split
    · next h => rw [ih acc t hacc, codesLeft_passed codes h]
    · next h =>
      rw [codesLeft_taken codes h]
      split
      · rw [ih _ t (by simp; omega)]
        simp only [List.append_assoc, List.singleton_append, List.length_append, List.length_cons, List.length_nil]
        congr 3
        simp
        omega
      · have hfull : acc.length = 4 := by omega
        rw [ih acc true hacc, List.take_append_of_le_length (by omega), List.take_append_of_le_length (by omega)]
        simp [hfull]

theorem unitOfCode_some {n : Nat} (h : n ≤ 4) : ∃ u, unitOfCode n = some u ∧ u.code = n := by
  obtain rfl | rfl | rfl | rfl | rfl : n = 0 ∨ n = 1 ∨ n = 2 ∨ n = 3 ∨ n = 4 := by omega
  all_goals exact ⟨_, rfl, rfl⟩

theorem unitOfCode_none {n : Nat} (h : ¬n ≤ 4) : unitOfCode n = none := by
  obtain ⟨m, rfl⟩ : ∃ m, n = m + 5 := ⟨n - 5, by omega⟩
  rfl

/-- A body is well formed when its length, its check and its unit code are right (R109). -/
def WellFormed (body : List Byte) : Prop :=
  body.length = 15 + (byteAt body 12).toNat ∧
    u16At body (13 + (byteAt body 12).toNat) = (crc16 (body.take (13 + (byteAt body 12).toNat))).toNat ∧
    (byteAt body 2).toNat ≤ 4

theorem readReport_none {body : List Byte} (h : ¬WellFormed body) : readReport body = none := by
  unfold readReport
  dsimp only
  split_ifs with hshort hlength hcheck
  · rfl
  · rfl
  · rfl
  · rw [unitOfCode_none fun hunit => h ⟨not_not.1 hlength, not_not.1 hcheck, hunit⟩]

/-- The report that a well-formed body carries (R111). -/
theorem readReport_some {body : List Byte} (h : WellFormed body) : ∃ rep, readReport body = some rep ∧
    rep.readings.counter = u16At body 0 ∧ rep.readings.unit.code = (byteAt body 2).toNat ∧
    rep.readings.segment = clampSegment (u16At body 3) ∧ rep.readings.lane = clampLane (byteAt body 5).toNat ∧
    rep.readings.setpoint = clampTemperature (-400) 300 (s16At body 6) ∧
    rep.readings.supply = clampTemperature (-500) 800 (s16At body 8) ∧
    rep.readings.ret = clampTemperature (-500) 800 (s16At body 10) ∧
    rep.readings.alarms = (alarmList ((body.drop 13).take (byteAt body 12).toNat) [] false).1 ∧
    rep.truncated = (alarmList ((body.drop 13).take (byteAt body 12).toNat) [] false).2 := by
  obtain ⟨hlength, hcheck, hunit⟩ := h
  obtain ⟨u, hu, hcode⟩ := unitOfCode_some hunit
  unfold readReport
  dsimp only
  rw [if_neg (by omega), if_neg (not_not.2 hlength), if_neg (not_not.2 hcheck), hu]
  exact ⟨_, rfl, rfl, hcode, rfl, rfl, rfl, rfl, rfl, rfl, rfl⟩

/-! ### Significance and the counter (R114, R116) -/

theorem sameCodes_iff (x y : List Byte) : sameCodes x y = true ↔ ∀ c, c ∈ x ↔ c ∈ y := by
  simp only [sameCodes, Bool.and_eq_true, List.all_eq_true, List.contains_iff_mem]
  exact ⟨fun ⟨h, g⟩ c => ⟨h c, g c⟩, fun h => ⟨fun c => (h c).1, fun c => (h c).2⟩⟩

theorem supplyChanged_iff (threshold : Nat) (old new : Option Int) : supplyChanged threshold old new = true ↔
    old.isSome ≠ new.isSome ∨ ∃ a b, old = some a ∧ new = some b ∧ (threshold : Int) ≤ |b - a| := by
  cases old <;> cases new <;> simp [supplyChanged]

theorem significant_iff (threshold : Nat) (r : Reefer) (new : Readings) : significant threshold r new = true ↔
    r.state ≠ .reporting ∨ r.readings.unit ≠ new.unit ∨ r.readings.setpoint ≠ new.setpoint ∨
      r.readings.supply.isSome ≠ new.supply.isSome ∨
      (∃ a b, r.readings.supply = some a ∧ new.supply = some b ∧ (threshold : Int) ≤ |b - a|) ∨
      ¬∀ c, c ∈ r.readings.alarms ↔ c ∈ new.alarms := by
  have hcodes := not_congr (sameCodes_iff r.readings.alarms new.alarms)
  simp only [significant, Bool.or_eq_true, bne_iff_ne, supplyChanged_iff, Bool.not_eq_true', ← hcodes, or_assoc,
    Bool.not_eq_true]

section Judge

variable {r : Reefer} {counter : Nat}

theorem judge_fresh (h : r.state ≠ .reporting) : judge r counter = .accepted := if_pos h

theorem judge_restarted (h : r.state = .reporting ∧ counter = 0 ∧ r.readings.counter ≠ 0) :
    judge r counter = .restarted := by
  obtain ⟨hstate, hcounter⟩ := h
  rw [judge, if_neg (not_not.2 hstate), if_pos hcounter]

/-- The judgement of a counter at a record that reports, by its distance (R114). -/
theorem judge_compared (hstate : r.state = .reporting)
    (h : ¬(r.state = .reporting ∧ counter = 0 ∧ r.readings.counter ≠ 0)) : judge r counter =
      if (counter + 65536 - r.readings.counter) % 65536 = 0 then .duplicate
      else if (counter + 65536 - r.readings.counter) % 65536 ≤ 32767 then .accepted else .stale := by
  rw [judge, if_neg (not_not.2 hstate), if_neg fun g => h ⟨hstate, g⟩]

end Judge

/-! ### The alarm path (R117) -/

/-- A charge and a count of the consolidator do not touch each other. -/
theorem charged_rcnStats (b : BucketNo) (n : Nat) (p : Port) (g : RcnStats → RcnStats) (s : State) :
    (charged b n p s).rcnStats g = charged b n p (s.rcnStats g) := by
  unfold charged
  by_cases hrate : (s.bucket b).rate = 0
  · exact (congrArg (State.rcnStats · g) (if_pos hrate)).trans (if_pos hrate).symm
  · exact (congrArg (State.rcnStats · g) (if_neg hrate)).trans (if_neg hrate).symm

theorem heldBack_rcnStats (b : BucketNo) (n : Nat) (p : Port) (g : RcnStats → RcnStats) (s : State) :
    (heldBack b n p s).rcnStats g = heldBack b n p (s.rcnStats g) := by
  unfold heldBack
  by_cases hburst : (s.bucket b).burst * 16 < frameCost b n p s
  · exact (congrArg (State.rcnStats · g) (if_pos hburst)).trans (if_pos hburst).symm
  · exact (congrArg (State.rcnStats · g) (if_neg hburst)).trans (if_neg hburst).symm

/-- The alarm path as a report takes it, with its new codes. -/
def alarmed (f : Frame) (arrival trunk : Port) (fresh : List Byte) (s : State) : State :=
  if fresh = [] then s else alarmPath f arrival trunk s

theorem alarmed_taken (f : Frame) (arrival trunk : Port) (fresh : List Byte) (s : State) :
    AlarmPathTaken f arrival trunk fresh s (alarmed f arrival trunk fresh s) := by
  refine ⟨fun h => if_pos h, fun hfresh hconforms => ?_, fun hfresh hheld => ?_⟩
  · rw [alarmed, if_neg hfresh, alarmPath]
    dsimp only
    rw [offer_conforms (show Conforms alarmBucket f.length arrival s from hconforms), if_pos rfl, charged_rcnStats]
    have raised := raise_eventRaised 8 (.sid f.station) (charged alarmBucket f.length arrival
      (s.rcnStats (fun x => { x with alarmsForwarded := countUp x.alarmsForwarded 1 }))) (by decide)
    refine ⟨_, raised, fun hup => forwardTo_usable ?_, fun hdown => ?_⟩
    all_goals
      have husable : (raise 8 (.sid f.station) (charged alarmBucket f.length arrival (s.rcnStats
          (fun x => { x with alarmsForwarded := countUp x.alarmsForwarded 1 })))).usable = s.usable :=
        State.usable_congr (raised.frame.ports.trans (by rw [charged_frame]; rfl))
    · rw [husable]
      exact hup
    · have dropped := portDownDrop_droppedPortDown trunk (raise 8 (.sid f.station) (charged alarmBucket f.length arrival
        (s.rcnStats (fun x => { x with alarmsForwarded := countUp x.alarmsForwarded 1 }))))
      rw [← forwardTo_down (q := .u) (f := f) (by rw [husable]; exact hdown)] at dropped
      exact dropped
  · rw [alarmed, if_neg hfresh, alarmPath]
    dsimp only
    rw [offer_not_conforms (show ¬Conforms alarmBucket f.length arrival s from hheld), if_neg Bool.false_ne_true,
      heldBack_rcnStats]
    exact ⟨_, countsDrop_none arrival 17 _, raise_eventRaised 21 _ _ (by decide)⟩

end Sys2Proof.Machine
end

section
/-! What a report leaves at its record, and the effects of taking it (R112 to R117): O20. -/

namespace Sys2Proof.Machine

/-! ### Records and their batch places -/

/-- A record without its batch place. -/
def Reefer.unplaced (r : Reefer) : Reefer := { r with place := .none }

/-- A consolidator whose records differ at most in their batch places, and whose counts of accepted and inserted
reports, and the expiry it remembers, are as they were. -/
structure Rcn.PlacesOnly (a b : Rcn) : Prop where
  records  : Table.mapValues b.reefers Reefer.unplaced = Table.mapValues a.reefers Reefer.unplaced
  accepted : b.stats.accepted = a.stats.accepted
  inserts  : b.stats.inserts = a.stats.inserts
  remembered : b.remembered = a.remembered

theorem Rcn.PlacesOnly.refl (a : Rcn) : a.PlacesOnly a := ⟨rfl, rfl, rfl, rfl⟩

theorem Rcn.PlacesOnly.trans {a b c : Rcn} (h : a.PlacesOnly b) (g : b.PlacesOnly c) : a.PlacesOnly c :=
  ⟨g.records.trans h.records, g.accepted.trans h.accepted, g.inserts.trans h.inserts,
    g.remembered.trans h.remembered⟩

theorem Rcn.PlacesOnly.of_rcn {a : Rcn} {s t : State} (h : a.PlacesOnly s.rcn) (g : t.rcn = s.rcn) :
    a.PlacesOnly t.rcn := g ▸ h

/-- A table rewritten record by record, where a function does not see the change. -/
theorem Table.mapValues_mapValues {α : Type} {t : Table α} {f g : α → α} (h : ∀ v, f (g v) = f v) :
    Table.mapValues (Table.mapValues t g) f = Table.mapValues t f := by
  simp [Table.mapValues, List.map_map, Function.comp_def, h]

/-- A table written at an occupied place, where a function does not see the change. -/
theorem Table.mapValues_put {α : Type} {t : Table α} {k : Nat} {v w : α} {f : α → α}
    (hsorted : t.Pairwise (fun a b => a.1 < b.1)) (h : Table.get t k = some v) (hf : f w = f v) :
    Table.mapValues (Table.put t k w) f = Table.mapValues t f := by
  induction t with
  | nil => cases h
  | cons e t ih =>
    obtain ⟨j, x⟩ := e
    obtain ⟨hlt, hrest⟩ := List.pairwise_cons.1 hsorted
    by_cases hjk : j = k
    · subst hjk
      have hx : x = v := by simpa [Table.get] using h
      simp [Table.put, Table.mapValues, hx, hf]
    · have hget : Table.get t k = some v := by simpa [Table.get, hjk] using h
      have hkj : ¬k < j := by
        have := hlt _ ((Table.get_eq_some t k v hrest).1 hget)
        dsimp only at this
        omega
      have rest := ih hrest hget
      unfold Table.mapValues at rest ⊢
      rw [Table.put, if_neg hkj, if_neg (Ne.symm hjk), List.map_cons, List.map_cons, rest]

/-- A record written again at its place changes nothing. -/
theorem Table.put_get {α : Type} {t : Table α} {k : Nat} {v : α} (hsorted : t.Pairwise (fun a b => a.1 < b.1))
    (h : Table.get t k = some v) : Table.put t k v = t := by
  have same := Table.mapValues_put (f := id) hsorted h rfl
  simpa [Table.mapValues] using same

/-- The record that a write puts in the place of the one found is found there. -/
theorem Table.find_put {α : Type} {t : Table α} {p : α → Bool} {k : Nat} {v w : α}
    (hsorted : t.Pairwise (fun a b => a.1 < b.1)) (h : Table.find t p = some (k, v)) (hw : p w = true) :
    Table.find (Table.put t k w) p = some (k, w) := by
  induction t with
  | nil => cases h
  | cons e t ih =>
    obtain ⟨j, x⟩ := e
    obtain ⟨hlt, hrest⟩ := List.pairwise_cons.1 hsorted
    unfold Table.find at h ⊢
    rw [List.find?_cons] at h
    cases hx : p x with
    | true =>
      simp only [hx, Option.some.injEq, Prod.mk.injEq] at h
      obtain ⟨rfl, -⟩ := h
      simp [Table.put, hw]
    | false =>
      simp only [hx] at h
      have hjk : j < k := hlt _ (List.mem_of_find?_eq_some h)
      rw [Table.put, if_neg (by omega), if_neg (by omega), List.find?_cons]
      simp only [hx]
      exact ih hrest h

/-- Records that differ in their places alone are found alike. -/
theorem Rcn.PlacesOnly.find {a b : Rcn} (h : a.PlacesOnly b) {sid : Sid} {k : Nat} {r : Reefer}
    (hfind : Table.find a.reefers (fun r => r.sid == sid) = some (k, r)) :
    ∃ r', Table.find b.reefers (fun r => r.sid == sid) = some (k, r') ∧ r'.unplaced = r.unplaced := by
  have found (t : Table Reefer) : Table.find (Table.mapValues t Reefer.unplaced) (fun r => r.sid == sid) =
      (Table.find t (fun r => r.sid == sid)).map (fun e => (e.1, e.2.unplaced)) := by
    unfold Table.find Table.mapValues
    rw [List.find?_map]
    rfl
  have both := found b.reefers
  rw [h.records, found a.reefers, hfind] at both
  obtain ⟨⟨j, r'⟩, hfound, hsame⟩ := Option.map_eq_some_iff.1 both.symm
  simp only [Prod.mk.injEq] at hsame
  obtain ⟨rfl, hsame⟩ := hsame
  exact ⟨r', hfound, hsame⟩

theorem Rcn.PlacesOnly.get {a b : Rcn} (h : a.PlacesOnly b) {k : Nat} {r : Reefer}
    (hget : Table.get a.reefers k = some r) : ∃ r', Table.get b.reefers k = some r' ∧ r'.unplaced = r.unplaced := by
  have both := Table.get_mapValues b.reefers Reefer.unplaced k
  rw [h.records, Table.get_mapValues, hget] at both
  exact Option.map_eq_some_iff.1 both.symm

/-! ### The append leaves the records but their places -/

theorem discardSending_placesOnly (s : State) : s.rcn.PlacesOnly (discardSending s).rcn := by
  refine ⟨?_, rfl, rfl, ?_⟩
  · refine (Table.mapValues_mapValues (f := Reefer.unplaced) fun r => ?_)
    unfold markUnsent Reefer.unplaced
    split <;> rfl
  · show s.rcn.idleSending.remembered = _
    unfold Rcn.idleSending
    split_ifs <;> rfl

theorem carryOutSwap_placesOnly (s : State) : s.rcn.PlacesOnly (carryOutSwap s).rcn := by
  have swapped : s.rcn.PlacesOnly s.rcn.swapped := by
    refine ⟨Table.mapValues_mapValues fun r => ?_, rfl, rfl, rfl⟩
    unfold leaveFilling Reefer.unplaced
    cases r.place <;> rfl
  have presented : s.rcn.PlacesOnly (presentBatchOverflow (s.setRcn s.rcn.swapped)).rcn :=
    Rcn.PlacesOnly.of_rcn (s := s.setRcn s.rcn.swapped) swapped ((presentBatchOverflow_agrees _).same .rcn (by decide))
  unfold carryOutSwap
  dsimp only
  split
  · exact presented
  · exact (presented.of_rcn (portDownDrop_reportsOnly ..).rcn).trans (discardSending_placesOnly _)

theorem swapDue_placesOnly (s : State) : s.rcn.PlacesOnly (swapDue s).rcn := by
  unfold swapDue
  split
  · exact carryOutSwap_placesOnly s
  · exact ⟨rfl, rfl, rfl, rfl⟩

/-- Writing the FILLING buffer changes the buffers alone. -/
theorem Rcn.setFilling_frame (r : Rcn) (b : Buffer) : r.setFilling b =
    { r with bufferA := (r.setFilling b).bufferA, bufferB := (r.setFilling b).bufferB } := by
  unfold Rcn.setFilling
  split <;> rfl

theorem Rcn.setFilling_placesOnly (r : Rcn) (b : Buffer) : r.PlacesOnly (r.setFilling b) := by
  rw [Rcn.setFilling_frame]
  exact ⟨rfl, rfl, rfl, rfl⟩

/-- An append changes the buffers and its record alone. -/
theorem Rcn.appended_frame (r : Rcn) (k : Nat) (x : Reefer) (e : BatchEntry) : r.appended k x e =
    { r with
      reefers := Table.put r.reefers k { x with place := .inFilling r.filling.entries.length }
      bufferA := (r.appended k x e).bufferA, bufferB := (r.appended k x e).bufferB } := by
  unfold Rcn.appended
  dsimp only
  rw [Rcn.setFilling_frame]

theorem batchAppend_placesOnly (k : Nat) (st : EntryState) {s : State}
    (hsorted : s.rcn.reefers.Pairwise (fun a b => a.1 < b.1)) : s.rcn.PlacesOnly (batchAppend k st s).rcn := by
  have written {r : Reefer} (hget : Table.get s.rcn.reefers k = some r) (place : BatchPlace) :
      Table.mapValues (Table.put s.rcn.reefers k { r with place := place }) Reefer.unplaced =
        Table.mapValues s.rcn.reefers Reefer.unplaced := Table.mapValues_put hsorted hget rfl
  cases hget : Table.get s.rcn.reefers k with
  | none => rw [batchAppend_free hget]; exact .refl _
  | some r =>
    by_cases hplace : ∃ i, r.place = .inFilling i
    · obtain ⟨i, hplace⟩ := hplace
      rw [batchAppend_overwrites hget hplace]
      exact Rcn.setFilling_placesOnly ..
    · have hplace : ∀ i, r.place ≠ .inFilling i := fun i hi => hplace ⟨i, hi⟩
      obtain hroom | hroom := Nat.lt_or_ge s.rcn.filling.entries.length 48
      · rw [batchAppend_adds hget hplace hroom]
        have added : s.rcn.PlacesOnly (entryAdded k r st s).rcn := by
          unfold entryAdded
          rw [Rcn.appended_frame]
          exact ⟨written hget _, rfl, rfl, rfl⟩
        refine Rcn.PlacesOnly.of_rcn ?_ ((presentBatchOverflow_agrees _).same .rcn (by decide))
        split
        · exact added.trans (swapDue_placesOnly _)
        · exact added
      · rw [batchAppend_overflows hget hplace hroom]
        exact ⟨written hget _, rfl, rfl, rfl⟩

/-! ### The alarm path leaves the records (R117) -/

theorem alarmed_rcn (f : Frame) (arrival trunk : Port) (fresh : List Byte) (s : State) :
    ∃ x, (alarmed f arrival trunk fresh s).rcn = { s.rcn with stats := x } ∧
      x.accepted = s.rcn.stats.accepted ∧ x.inserts = s.rcn.stats.inserts := by
  obtain ⟨hnone, hpasses, hheld⟩ := alarmed_taken f arrival trunk fresh s
  generalize alarmed f arrival trunk fresh s = t at *
  by_cases hfresh : fresh = []
  · rw [hnone hfresh]
    exact ⟨_, rfl, rfl, rfl⟩
  · by_cases hconforms : Conforms alarmBucket f.bytes.length arrival s
    · obtain ⟨u, raised, hup, hdown⟩ := hpasses hfresh hconforms
      have hrcn := raised.frame.rcn
      rw [charged_frame] at hrcn
      cases h : s.usable trunk with
      | true => rw [hup h]; exact ⟨_, hrcn, rfl, rfl⟩
      | false => exact ⟨_, (hdown h).frame.rcn.trans hrcn, rfl, rfl⟩
    · obtain ⟨u, dropped, raised⟩ := hheld hfresh hconforms
      have hrcn := raised.frame.rcn.trans dropped.frame.rcn
      obtain ⟨hframe, -⟩ := heldBack_frame alarmBucket f.bytes.length arrival { s with rcn := { s.rcn with stats :=
        { s.rcn.stats with alarmHolds := min 4294967295 (s.rcn.stats.alarmHolds + 1) } } }
      rw [hframe] at hrcn
      exact ⟨_, hrcn, rfl, rfl⟩

/-! ### Acceptance (R115) -/

/-- The part after a record was written for an accepted report, which is counted. -/
def reportWritten (k : Nat) (r : Reefer) (s : State) : State :=
  { s with rcn := { s.rcn with
    reefers := Table.put s.rcn.reefers k r
    stats := { s.rcn.stats with accepted := min 4294967295 (s.rcn.stats.accepted + 1) } } }

/-- An accepted report writes its record, takes the alarm path and is appended where it is a significant change; the
record stands as written but for its batch place (R115 to R117). -/
theorem acceptReport_effect (k : Nat) (r : Reefer) (new : Readings) (sig : Bool) (fresh : List Byte) (f : Frame)
    (arrival trunk : Port) {s t : State} (hsorted : s.rcn.reefers.Pairwise (fun a b => a.1 < b.1))
    (ht : t = acceptReport k r new sig fresh f arrival trunk s) :
    (∃ v, AlarmPathTaken f arrival trunk fresh (reportWritten k (r.updated new s.seconds) s) v ∧
      (sig = true → t = batchAppend k .reporting v) ∧ (sig = false → t = v)) ∧
    (reportWritten k (r.updated new s.seconds) s).rcn.PlacesOnly t.rcn := by
  subst ht
  have heq : acceptReport k r new sig fresh f arrival trunk s = if sig then batchAppend k .reporting
      (alarmed f arrival trunk fresh (reportWritten k (r.updated new s.seconds) s))
      else alarmed f arrival trunk fresh (reportWritten k (r.updated new s.seconds) s) := rfl
  have taken := alarmed_taken f arrival trunk fresh (reportWritten k (r.updated new s.seconds) s)
  obtain ⟨x, hrcn, haccepted, hinserts⟩ := alarmed_rcn f arrival trunk fresh
    (reportWritten k (r.updated new s.seconds) s)
  rw [heq]
  generalize alarmed f arrival trunk fresh (reportWritten k (r.updated new s.seconds) s) = v at *
  have kept : (reportWritten k (r.updated new s.seconds) s).rcn.PlacesOnly v.rcn := by
    rw [hrcn]
    exact ⟨rfl, haccepted, hinserts, rfl⟩
  have hput : v.rcn.reefers.Pairwise (fun a b => a.1 < b.1) := by
    rw [hrcn]
    exact Table.put_sorted _ k _ hsorted
  cases sig with
  | true => exact ⟨⟨v, taken, fun _ => rfl, (nomatch ·)⟩, kept.trans (batchAppend_placesOnly k _ hput)⟩
  | false => exact ⟨⟨v, taken, (nomatch ·), fun _ => rfl⟩, kept⟩

/-! ### What a report comes to (R108, R112 to R114) -/

/-- The part with other statistics of the consolidator. -/
def State.withRcnStats (s : State) (x : RcnStats) : State := { s with rcn := { s.rcn with stats := x } }

/-- The statistics after a report was read, whose alarm list may have been truncated (R111). -/
def readStats (rep : Report) (x : RcnStats) : RcnStats :=
  if rep.truncated then { x with truncations := min 4294967295 (x.truncations + 1) } else x

section Taken

variable {f : Frame} {arrival trunk : Port} {s : State} {rep : Report} {k : Nat} {r : Reefer}

theorem takeReport_failed (h : readReport f.payload = none) : takeReport f arrival trunk s =
    addDrop 15 1 (s.rcnStats (fun x => { x with checkFailures := countUp x.checkFailures 1 })) := by
  unfold takeReport
  rw [h]

theorem readStats_eq (rep : Report) (s : State) :
    (if rep.truncated then s.rcnStats (fun x => { x with truncations := countUp x.truncations 1 }) else s) =
      s.withRcnStats (readStats rep s.rcn.stats) := by
  unfold readStats
  cases rep.truncated <;> rfl

section Found

variable (hrep : readReport f.payload = some rep) (hfind : findReefer s f.station = some (k, r))
include hrep hfind

/-- A report at a record, by its judgement (R114). -/
theorem takeReport_duplicate (h : judge r rep.readings.counter = .duplicate) : takeReport f arrival trunk s =
    addDrop 16 1 ((s.withRcnStats (readStats rep s.rcn.stats)).rcnStats
      (fun x => { x with duplicates := countUp x.duplicates 1 })) := by
  have hfind : findReefer (s.withRcnStats (readStats rep s.rcn.stats)) f.station = some (k, r) := hfind
  unfold takeReport
  simp only [hrep, readStats_eq, hfind, h]

theorem takeReport_stale (h : judge r rep.readings.counter = .stale) : takeReport f arrival trunk s =
    addDrop 16 1 ((s.withRcnStats (readStats rep s.rcn.stats)).rcnStats
      (fun x => { x with stale := countUp x.stale 1 })) := by
  have hfind : findReefer (s.withRcnStats (readStats rep s.rcn.stats)) f.station = some (k, r) := hfind
  unfold takeReport
  simp only [hrep, readStats_eq, hfind, h]

theorem takeReport_accepted (h : judge r rep.readings.counter = .accepted) : takeReport f arrival trunk s =
    acceptReport k r rep.readings (significant s.rcn.settings.threshold r rep.readings)
      (newAlarms r.readings.alarms rep.readings.alarms) f arrival trunk
      (s.withRcnStats (readStats rep s.rcn.stats)) := by
  have hfind : findReefer (s.withRcnStats (readStats rep s.rcn.stats)) f.station = some (k, r) := hfind
  unfold takeReport
  simp only [hrep, readStats_eq, hfind, h]
  rfl

theorem takeReport_restarted (h : judge r rep.readings.counter = .restarted) : takeReport f arrival trunk s =
    acceptReport k r rep.readings (significant s.rcn.settings.threshold r rep.readings)
      (newAlarms r.readings.alarms rep.readings.alarms) f arrival trunk
      ((s.withRcnStats (readStats rep s.rcn.stats)).rcnStats
        (fun x => { x with restarts := countUp x.restarts 1 })) := by
  have hfind : findReefer (s.withRcnStats (readStats rep s.rcn.stats)) f.station = some (k, r) := hfind
  unfold takeReport
  simp only [hrep, readStats_eq, hfind, h]
  rfl

end Found

/-- A report of a SID without a record (R112, R113). -/
theorem takeReport_full (hrep : readReport f.payload = some rep) (hfind : findReefer s f.station = none)
    (hfull : Table.lowestFree s.rcn.reefers 4096 = none) : takeReport f arrival trunk s =
    forwardTo trunk .d f ((s.withRcnStats (readStats rep s.rcn.stats)).rcnStats
      (fun x => { x with passThroughs := countUp x.passThroughs 1 })) := by
  have hfind : findReefer (s.withRcnStats (readStats rep s.rcn.stats)) f.station = none := hfind
  have hfull : Table.lowestFree (s.withRcnStats (readStats rep s.rcn.stats)).rcn.reefers Config.reeferPlaces = none :=
    hfull
  unfold takeReport
  simp only [hrep, readStats_eq, hfind, hfull]

theorem takeReport_inserts (hrep : readReport f.payload = some rep) (hfind : findReefer s f.station = none)
    (hfree : Table.lowestFree s.rcn.reefers 4096 = some k) : takeReport f arrival trunk s =
    acceptReport k (newReefer s f.station rep.readings) rep.readings true rep.readings.alarms f arrival trunk
      (presentReeferFull (((s.withRcnStats (readStats rep s.rcn.stats)).setReefer k
        (newReefer s f.station rep.readings)).rcnStats (fun x => { x with inserts := countUp x.inserts 1 }))) := by
  have hfind : findReefer (s.withRcnStats (readStats rep s.rcn.stats)) f.station = none := hfind
  have hfree : Table.lowestFree (s.withRcnStats (readStats rep s.rcn.stats)).rcn.reefers Config.reeferPlaces = some k :=
    hfree
  unfold takeReport
  simp only [hrep, readStats_eq, hfind, hfree]
  rfl

end Taken

end Sys2Proof.Machine
end

section
/-! Reefer reports at their records (R108 to R117): O20. -/

namespace Sys2Proof.Machine

theorem readStats_accepted (rep : Report) (x : RcnStats) :
    (readStats rep x).accepted = x.accepted ∧ (readStats rep x).inserts = x.inserts := by
  unfold readStats
  split <;> exact ⟨rfl, rfl⟩

/-- An accepted report at a record found leaves it found, written but for its place (R115). -/
theorem acceptReport_found {k : Nat} {r : Reefer} {new : Readings} {sig : Bool} {fresh : List Byte} {f : Frame}
    {arrival trunk : Port} {s t : State} (hsorted : s.rcn.reefers.Pairwise (fun a b => a.1 < b.1))
    (hfind : findReefer s f.station = some (k, r)) (ht : t = acceptReport k r new sig fresh f arrival trunk s) :
    (∃ r', findReefer t f.station = some (k, r') ∧
      { r' with place := r.place } =
        { r with readings := new, state := .reporting, missed := 0, heard := true, stamp := s.seconds }) ∧
    t.rcn.stats.accepted = min 4294967295 (s.rcn.stats.accepted + 1) := by
  obtain ⟨-, kept⟩ := acceptReport_effect k r new sig fresh f arrival trunk hsorted ht
  have hsid : (r.sid == f.station) = true := List.find?_some (p := fun e : Nat × Reefer => e.2.sid == f.station) hfind
  obtain ⟨r', hr', hsame⟩ := kept.find (Table.find_put (w := r.updated new s.seconds) hsorted hfind hsid)
  exact ⟨⟨r', hr', congrArg (fun x => { x with place := r.place }) hsame⟩, kept.accepted⟩

theorem codesLeft_nil (codes : List Byte) :
    codesLeft codes [] = (codes.filter (fun c => c != 0 && c != 255)).eraseDups := by
  simp [codesLeft]

theorem presentReeferFull_presented (s : State) :
    ((presentReeferFull s).source 11).pending = reeferFull s ∧ ReportsOnly s (presentReeferFull s) ∧
      HandsOnNotices s (presentReeferFull s) :=
  ⟨present_pending (k := 11) _ _ (by decide), present_reportsOnly .., (present_told ..).handed⟩

/-- Settles O20: the body, the counter, and what each judgement comes to. -/
theorem reeferReportsAreTakenAtTheirRecords : Obligations.ReeferReportsAreTakenAtTheirRecords := by
  refine ⟨?_, ?_⟩
  · intro body n well temperature
    refine ⟨readReport_none, fun hwell => ?_⟩
    obtain ⟨rep, hread, hcounter, hunit, hsegment, hlane, hsetpoint, hsupply, hret, halarms, htruncated⟩ :=
      readReport_some hwell
    have halarm := alarmList_eq ((body.drop 13).take n) [] false (by simp)
    rw [halarm] at halarms htruncated
    refine ⟨rep, hread, hcounter, hunit, hsegment.trans ?_, hlane.trans ?_, hsetpoint, hsupply, hret, ?_, ?_⟩
    · unfold clampSegment
      rw [min_comm]
    · unfold clampLane
      simp only [Nat.lt_succ_iff]
    · rw [halarms, codesLeft_nil]
      rfl
    · rw [htruncated, codesLeft_nil, Bool.false_or, List.length_nil, Nat.zero_add]
  intro f arrival trunk s hlaw t up
  obtain ⟨⟨hsorted, -⟩, -, -⟩ := hlaw
  have hdrops {r : Fin 20} {x : RcnStats} (ht : t = addDrop r 1 (s.withRcnStats x)) :
      DropRises r 1 s t ∧ (∀ j, j ≠ r → t.ctb.drops.get j = s.ctb.drops.get j) ∧
        t = { s with ctb := { s.ctb with drops := t.ctb.drops }, rcn := { s.rcn with stats := x } } := by
    rw [ht]
    exact ⟨(addDrop_drops ..).trans (if_pos rfl), fun r hr => (addDrop_drops ..).trans (if_neg hr), rfl⟩
  refine ⟨fun hfail => hdrops (takeReport_failed hfail), ?_⟩
  intro rep hrep new stats dropped
  refine ⟨?_, ?_, ?_⟩
  · intro k r hfind d restarted fresh signif takes
    have hdropped {x : RcnStats} (ht : t = addDrop 16 1 (s.withRcnStats x)) : dropped x := hdrops ht
    have hsignificant := significant_iff s.rcn.settings.threshold r new
    have htakes {x : RcnStats} (ht : t = acceptReport k r new (significant s.rcn.settings.threshold r new)
        (newAlarms r.readings.alarms new.alarms) f arrival trunk (s.withRcnStats x)) : takes x := by
      obtain ⟨⟨v, taken, hsig, hnot⟩, -⟩ := acceptReport_effect (s := s.withRcnStats x) k r new _ _ f arrival trunk
        hsorted ht
      exact ⟨v, taken, fun h => hsig (hsignificant.2 h), fun h => hnot (Bool.eq_false_iff.2 (mt hsignificant.1 h))⟩
    have hstands {x : RcnStats} (hx : x.accepted = s.rcn.stats.accepted)
        (ht : t = acceptReport k r new (significant s.rcn.settings.threshold r new)
          (newAlarms r.readings.alarms new.alarms) f arrival trunk (s.withRcnStats x)) :=
      hx ▸ acceptReport_found (s := s.withRcnStats x) hsorted hfind ht
    have hduplicate (h : judge r new.counter = .duplicate) : t = addDrop 16 1 (s.withRcnStats
        { stats with duplicates := up stats.duplicates }) := takeReport_duplicate hrep hfind h
    have hstale (h : judge r new.counter = .stale) : t = addDrop 16 1 (s.withRcnStats
        { stats with stale := up stats.stale }) := takeReport_stale hrep hfind h
    have haccepted (h : judge r new.counter = .accepted) : t = acceptReport k r new
        (significant s.rcn.settings.threshold r new) (newAlarms r.readings.alarms new.alarms) f arrival trunk
        (s.withRcnStats stats) := takeReport_accepted hrep hfind h
    have hrestarted (h : judge r new.counter = .restarted) : t = acceptReport k r new
        (significant s.rcn.settings.threshold r new) (newAlarms r.readings.alarms new.alarms) f arrival trunk
        (s.withRcnStats { stats with restarts := up stats.restarts }) := takeReport_restarted hrep hfind h
    have hjudge (h : r.state ≠ .reporting ∨ (¬restarted ∧ 1 ≤ d ∧ d ≤ 32767)) : judge r new.counter = .accepted := by
      by_cases hstate : r.state = .reporting
      · obtain ⟨hnot, hlow, hhigh⟩ := h.resolve_left (not_not.2 hstate)
        rw [judge_compared hstate hnot, if_neg (show ¬d = 0 by omega), if_pos hhigh]
      · exact judge_fresh hstate
    refine ⟨fun hstate hnot hd => ?_, fun hstate hnot hd => ?_, fun h => ?_, fun h => ?_, fun h => ?_⟩
    · exact hdropped (hduplicate (by rw [judge_compared hstate hnot, if_pos hd]))
    · refine hdropped (hstale ?_)
      rw [judge_compared hstate hnot, if_neg (show ¬d = 0 by omega), if_neg (show ¬d ≤ 32767 by omega)]
    · exact htakes (hrestarted (judge_restarted h))
    · exact htakes (haccepted (hjudge h))
    · obtain ⟨hcount, -⟩ := readStats_accepted rep s.rcn.stats
      by_cases hr : restarted
      · exact hstands (x := { stats with restarts := up stats.restarts }) hcount (hrestarted (judge_restarted hr))
      · exact hstands (x := stats) hcount (haccepted (hjudge (h.imp_right fun h => ⟨hr, h.resolve_left hr⟩)))
  · intro k hfind hfree r inserted
    have ht : t = acceptReport k r new true new.alarms f arrival trunk (presentReeferFull inserted) :=
      takeReport_inserts hrep hfind hfree
    obtain ⟨hpending, hreports, hhanded⟩ := presentReeferFull_presented inserted
    generalize presentReeferFull inserted = u at *
    have hreefers : u.rcn.reefers = Table.put s.rcn.reefers k r := by rw [hreports.rcn]
    have hsorted' : u.rcn.reefers.Pairwise (fun a b => a.1 < b.1) := by
      rw [hreefers]
      exact Table.put_sorted _ k _ hsorted
    have hget : Table.get u.rcn.reefers k = some r := by
      rw [hreefers]
      exact Table.get_put_same _ k _ hsorted
    have hupdated : r.updated new u.seconds = r := by
      have hseconds : u.seconds = s.seconds := by
        unfold ReportsOnly at hreports
        rw [hreports]
      rw [hseconds]
      rfl
    obtain ⟨⟨v, taken, happended, -⟩, kept⟩ := acceptReport_effect k r new true new.alarms f arrival trunk hsorted' ht
    rw [hupdated] at taken kept
    have hwritten : reportWritten k r u = { u with rcn := { u.rcn with stats :=
        { u.rcn.stats with accepted := up u.rcn.stats.accepted } } } := by
      unfold reportWritten
      rw [Table.put_get hsorted' hget]
    rw [hwritten] at taken kept
    have hcounted := readStats_accepted rep s.rcn.stats
    obtain ⟨r', hr', hsame⟩ := kept.get hget
    refine ⟨⟨u, v, hpending, hreports, hhanded, taken, happended rfl⟩, ⟨r', hr', hsame⟩, ?_, ?_⟩
    · refine kept.inserts.trans ?_
      have hinserts : u.rcn.stats.inserts = up stats.inserts := by rw [hreports.rcn]
      exact hinserts.trans (congrArg up hcounted.2)
    · refine kept.accepted.trans ?_
      have haccepted : u.rcn.stats.accepted = stats.accepted := by rw [hreports.rcn]
      exact congrArg up (haccepted.trans hcounted.1)
  · intro hfind hfull passed
    have ht : t = forwardTo trunk .d f passed := takeReport_full hrep hfind hfull
    refine ⟨fun hup => ht.trans (forwardTo_usable hup), fun hdown => ?_⟩
    rw [ht, forwardTo_down (s := passed) hdown]
    exact portDownDrop_droppedPortDown ..

end Sys2Proof.Machine
end

section
/-! The supervision sweep and the batch buffers (R122 to R136): O35 and O36. -/

namespace Sys2Proof.Machine

/-! ### The supervision sweep (R122 to R127) -/

theorem allowance_placed {s : State} {r : Readings} {g a : Nat} (hvalid : s.cvm.valid = true) (hsegment : r.segment = some g)
    (hlane : r.lane = some a) : allowance s r = min 15 (s.rcn.settings.allowance + gradeTerm (s.cvm.active.cell g a).grade +
      (if s.cvm.overlayAt g = 0 then 0 else 2) +
      (if ∃ q, (s.cvm.active.cell g a).primary = some q ∧ (s.port (QPort.port q)).link = .down then 4 else 0)) := by
  have hoverlay : (if 0 < s.cvm.overlayAt g then 2 else 0) = if s.cvm.overlayAt g = 0 then 0 else 2 := by
    split <;> split <;> omega
  simp only [allowance, hvalid, hsegment, hlane, hoverlay]
  cases (s.cvm.active.cell g a).primary <;> simp

theorem allowance_unplaced {s : State} {r : Readings} (h : s.cvm.valid = false ∨ r.segment = none ∨ r.lane = none) :
    allowance s r = s.rcn.settings.allowance := by
  unfold allowance
  obtain h | h | h := h
  · simp only [h]
  · cases s.cvm.valid <;> simp only [h]
  · cases s.cvm.valid <;> cases r.segment <;> simp only [h]

/-- The sweep after its visit to a place, where the visit left what it remembers. -/
theorem advanceReeferSweep_eq {k : Nat} {s u : State} (h : u.rcn.remembered = s.rcn.remembered) :
    advanceReeferSweep k u = { u with rcn := { u.rcn with
      sweep := if k < 4095 then some (k + 1) else if s.rcn.remembered then some 0 else none
      remembered := s.rcn.remembered && decide (k < 4095) } } := by
  unfold advanceReeferSweep
  by_cases hk : k < 4095
  · have hplaces : k + 1 < Config.reeferPlaces := Nat.succ_lt_succ hk
    simp only [hplaces, hk, if_true, decide_true, Bool.and_true, ← h]
    rfl
  · have hplaces : ¬k + 1 < Config.reeferPlaces := fun g => hk (Nat.lt_of_succ_lt_succ g)
    simp only [hplaces, hk, if_false, decide_false, Bool.and_false, ← h]
    cases u.rcn.remembered <;> rfl

section Visit

variable {k : Nat} {s : State} {r : Reefer}

theorem exec_sweepVisit_free (hsweep : s.rcn.sweep = some k) (hget : Table.get s.rcn.reefers k = none) :
    exec .supervisionSweepVisit s = .next (advanceReeferSweep k s) := by
  show execSupervisionSweepVisit s = _
  unfold execSupervisionSweepVisit
  simp only [hsweep, hget]

theorem exec_sweepVisit (hsweep : s.rcn.sweep = some k) (hget : Table.get s.rcn.reefers k = some r) :
    exec .supervisionSweepVisit s = .next (advanceReeferSweep k (visitReefer k r s)) := by
  show execSupervisionSweepVisit s = _
  unfold execSupervisionSweepVisit
  simp only [hsweep, hget]

/-- An append leaves whether the sweep remembers an expiry. -/
theorem batchAppend_remembered (k : Nat) (st : EntryState) (s : State) :
    (batchAppend k st s).rcn.remembered = s.rcn.remembered := by
  cases hget : Table.get s.rcn.reefers k with
  | none => rw [batchAppend_free hget]
  | some r =>
    by_cases hplace : ∃ i, r.place = .inFilling i
    · obtain ⟨i, hplace⟩ := hplace
      rw [batchAppend_overwrites hget hplace]
      exact (Rcn.setFilling_placesOnly ..).remembered
    · have hplace : ∀ i, r.place ≠ .inFilling i := fun i hi => hplace ⟨i, hi⟩
      obtain hroom | hroom := Nat.lt_or_ge s.rcn.filling.entries.length 48
      · have added : (entryAdded k r st s).rcn.remembered = s.rcn.remembered := by
          unfold entryAdded
          rw [Rcn.appended_frame]
          rfl
        rw [batchAppend_adds hget hplace hroom]
        refine (congrArg Rcn.remembered ((presentBatchOverflow_agrees _).same .rcn (by decide))).trans ?_
        split
        · exact (swapDue_placesOnly _).remembered.trans added
        · exact added
      · rw [batchAppend_overflows hget hplace hroom]
        rfl

theorem removeReefer_remembered (k : Nat) (s : State) : (removeReefer k s).rcn.remembered = s.rcn.remembered := by
  obtain ⟨hrcn, -⟩ := removeReefer_presented k s
  rw [hrcn]

theorem raise_remembered (j : SourceNo) (d : Detail) (s : State) : (raise j d s).rcn.remembered = s.rcn.remembered := by
  rw [(raise_reportsOnly j d s).rcn]

/-- The visits of the sweep to a record (R123 to R127). -/
theorem visitReefer_heard (h : r.heard = true) : visitReefer k r s =
    catchUp k { r with heard := false } (s.setReefer k { r with heard := false }) := if_pos h

section Unheard

variable (hheard : r.heard = false)
include hheard

theorem visitReefer_retires (h : r.state = .silent ∧ r.missed = 15 ∧ s.rcn.settings.retire = true) :
    visitReefer k r s = retireReefer k { r with missed := min 15 (r.missed + 1) }
      (s.setReefer k { r with missed := min 15 (r.missed + 1) }) :=
  (if_neg (by rw [hheard]; exact Bool.false_ne_true)).trans (if_pos h)

theorem visitReefer_silent (hretires : ¬(r.state = .silent ∧ r.missed = 15 ∧ s.rcn.settings.retire = true))
    (h : silentThreshold s r.readings ≤ min 15 (r.missed + 1) ∧ r.state ≠ .silent) : visitReefer k r s =
    batchAppend k .silent (raise 10 (.sid r.sid)
      (s.setReefer k { r with missed := min 15 (r.missed + 1), state := .silent })) :=
  (if_neg (by rw [hheard]; exact Bool.false_ne_true)).trans ((if_neg hretires).trans (if_pos h))

theorem visitReefer_overdue (hretires : ¬(r.state = .silent ∧ r.missed = 15 ∧ s.rcn.settings.retire = true))
    (hsilent : ¬(silentThreshold s r.readings ≤ min 15 (r.missed + 1) ∧ r.state ≠ .silent))
    (h : allowance s r.readings < min 15 (r.missed + 1) ∧ r.state = .reporting) : visitReefer k r s =
    batchAppend k .overdue (raise 9 (.sid r.sid)
      (s.setReefer k { r with missed := min 15 (r.missed + 1), state := .overdue })) :=
  (if_neg (by rw [hheard]; exact Bool.false_ne_true)).trans
    ((if_neg hretires).trans ((if_neg hsilent).trans (if_pos h)))

theorem visitReefer_missed (hretires : ¬(r.state = .silent ∧ r.missed = 15 ∧ s.rcn.settings.retire = true))
    (hsilent : ¬(silentThreshold s r.readings ≤ min 15 (r.missed + 1) ∧ r.state ≠ .silent))
    (h : ¬(allowance s r.readings < min 15 (r.missed + 1) ∧ r.state = .reporting)) : visitReefer k r s =
    catchUp k { r with missed := min 15 (r.missed + 1) }
      (s.setReefer k { r with missed := min 15 (r.missed + 1) }) :=
  (if_neg (by rw [hheard]; exact Bool.false_ne_true)).trans
    ((if_neg hretires).trans ((if_neg hsilent).trans (if_neg h)))

end Unheard

theorem canAppend_iff : canAppend s r = true ↔ (∃ i, r.place = .inFilling i) ∨ s.rcn.filling.entries.length < 48 := by
  unfold canAppend
  cases r.place with
  | inFilling i => simp
  | none | unsent =>
    simp only [reduceCtorEq, exists_false, false_or]
    exact decide_eq_true_iff

theorem catchUp_remembered (k : Nat) (r : Reefer) (s : State) : (catchUp k r s).rcn.remembered = s.rcn.remembered := by
  unfold catchUp
  split
  · exact batchAppend_remembered ..
  · rfl

end Visit

/-- Settles O35: the allowance, and the branches of a visit. -/
theorem sweepVisitSupervisesTheRecord : Obligations.SweepVisitSupervisesTheRecord := by
  refine ⟨fun s r => ⟨?_, allowance_unplaced, rfl⟩, ?_⟩
  · intro g a hvalid hsegment hlane c
    exact allowance_placed hvalid hsegment hlane
  intro k s hsweep done
  refine ⟨fun hget => ?_, ?_⟩
  · exact (exec_sweepVisit_free hsweep hget).trans (congrArg Host.Outcome.next (advanceReeferSweep_eq rfl))
  intro r hget m put caughtUp retires room
  have hdone {u : State} (hvisit : visitReefer k r s = u) (hkept : u.rcn.remembered = s.rcn.remembered) : done u := by
    refine (exec_sweepVisit hsweep hget).trans (congrArg Host.Outcome.next ?_)
    rw [hvisit]
    exact advanceReeferSweep_eq hkept
  refine ⟨fun hheard => ?_, fun hheard hretires hroom => ?_, fun hheard hretires hroom => ?_,
    fun hheard hretires hstate hthreshold => ?_, fun hheard hstate hthreshold hallowance => ?_,
    fun hheard hretires hsilent hoverdue => ?_⟩
  · exact hdone (visitReefer_heard hheard) (catchUp_remembered ..)
  · refine hdone ((visitReefer_retires hheard hretires).trans (if_neg ?_)) (batchAppend_remembered ..)
    rw [canAppend_iff]
    exact hroom
  · refine hdone ((visitReefer_retires hheard hretires).trans (if_pos ?_))
      ((removeReefer_remembered ..).trans (batchAppend_remembered ..))
    exact canAppend_iff.2 hroom
  · exact hdone (visitReefer_silent hheard hretires ⟨hthreshold, hstate⟩)
      ((batchAppend_remembered ..).trans (raise_remembered ..))
  · refine hdone (visitReefer_overdue hheard (fun h => ?_) (fun h => absurd h.1 (not_le.2 hthreshold))
      ⟨hallowance, hstate⟩) ((batchAppend_remembered ..).trans (raise_remembered ..))
    rw [hstate] at h
    exact absurd h.1 (by decide)
  · refine hdone (visitReefer_missed hheard hretires (fun h => ?_) (fun h => ?_)) (catchUp_remembered ..)
    · exact hsilent.elim h.2 (not_lt.2 h.1)
    · exact hoverdue.elim (absurd h.2) (not_le.2 h.1)

end Sys2Proof.Machine
end

section
/-! The batch buffers (R128 to R136): O36. -/

namespace Sys2Proof.Machine

theorem Rcn.setFilling_batchTimer (r : Rcn) (b : Buffer) : (r.setFilling b).batchTimer = r.batchTimer := by
  rw [Rcn.setFilling_frame]

theorem Rcn.setFilling_other (r : Rcn) (entries : List BatchEntry) :
    (r.setFilling { r.filling with entries := entries }).other = r.other := by
  unfold Rcn.setFilling Rcn.filling Rcn.other
  by_cases h : r.bufferA.state = .filling
  · simp [h]
  · simp only [h, if_false]

/-- The part after an append has added an entry, but for a timer that it starts. -/
theorem entryAdded_eq (k : Nat) (r : Reefer) (st : EntryState) (s : State) : entryAdded k r st s =
    { s with rcn := { s.rcn.setFilling ⟨s.rcn.filling.state, s.rcn.filling.entries ++ [batchEntry s r st]⟩ with
      reefers := Table.put s.rcn.reefers k { r with place := .inFilling s.rcn.filling.entries.length }
      batchTimer := if s.rcn.filling.entries = [] then some s.rcn.settings.batchPeriod else s.rcn.batchTimer } } := by
  have hframe := Rcn.setFilling_frame s.rcn ⟨s.rcn.filling.state, s.rcn.filling.entries ++ [batchEntry s r st]⟩
  unfold entryAdded Rcn.appended
  simp only [List.length_eq_zero_iff]
  rw [hframe]
  rfl

/-! ### What the batch buffers leave alone -/

/-- What the batch buffers change at most: the consolidator and what reports change. -/
def BatchFrame (s t : State) : Prop :=
  t = { s with
    rcn := t.rcn, ntu := t.ntu, ctb := t.ctb, flight := { s.flight with enqueues := t.flight.enqueues } }

theorem BatchFrame.reports {s t u : State} (h : BatchFrame s t) (g : ReportsOnly t u) : BatchFrame s u := by
  unfold BatchFrame ReportsOnly at *
  rw [g, h]

theorem BatchFrame.trans {s t u : State} (h : BatchFrame s t) (g : BatchFrame t u) : BatchFrame s u := by
  unfold BatchFrame at *
  rw [g, h]

theorem BatchFrame.setRcn (s : State) (r : Rcn) : BatchFrame s (s.setRcn r) := rfl

theorem carryOutSwap_frame (s : State) : BatchFrame s (carryOutSwap s) := by
  have swapped : BatchFrame s (presentBatchOverflow (s.setRcn s.rcn.swapped)) :=
    (BatchFrame.setRcn ..).reports (present_reportsOnly ..)
  unfold carryOutSwap
  dsimp only
  split
  · exact swapped.trans rfl
  · exact (swapped.reports (portDownDrop_reportsOnly ..)).trans (.setRcn ..)

theorem swapDue_frame (s : State) : BatchFrame s (swapDue s) := by
  unfold swapDue
  split
  · exact carryOutSwap_frame s
  · exact .setRcn ..

theorem entryAdded_frame (k : Nat) (r : Reefer) (st : EntryState) (s : State) : BatchFrame s (entryAdded k r st s) :=
  .setRcn ..

theorem batchAppend_frame (k : Nat) (st : EntryState) (s : State) : BatchFrame s (batchAppend k st s) := by
  cases hget : Table.get s.rcn.reefers k with
  | none => rw [batchAppend_free hget]; rfl
  | some r =>
    by_cases hplace : ∃ i, r.place = .inFilling i
    · obtain ⟨i, hplace⟩ := hplace
      rw [batchAppend_overwrites hget hplace]
      exact .setRcn ..
    · have hplace : ∀ i, r.place ≠ .inFilling i := fun i hi => hplace ⟨i, hi⟩
      obtain hroom | hroom := Nat.lt_or_ge s.rcn.filling.entries.length 48
      · rw [batchAppend_adds hget hplace hroom]
        refine BatchFrame.reports ?_ (present_reportsOnly ..)
        split
        · exact (entryAdded_frame ..).trans (swapDue_frame _)
        · exact entryAdded_frame ..
      · rw [batchAppend_overflows hget hplace hroom]
        exact .setRcn ..

/-! ### Presenting BATCH-OVERFLOW (R133) -/

theorem batchOverflow_of_full {s : State} (hfull : 48 ≤ s.rcn.filling.entries.length)
    (hsending : s.rcn.other.state = .sending) : batchOverflow s = true := by
  unfold batchOverflow
  rw [hsending, decide_eq_true (show Config.batchEntries ≤ s.rcn.filling.entries.length from hfull)]
  rfl

/-- After a swap was carried out, BATCH-OVERFLOW is presented already. -/
theorem SwapCarriedOut.presented {s t : State} (h : SwapCarriedOut s t) : presentBatchOverflow t = t := by
  obtain ⟨hfilling, -, -, hpending, -⟩ := h
  have hoverflow : batchOverflow t = false := by
    unfold batchOverflow
    rw [hfilling]
    rfl
  rw [presentBatchOverflow, hoverflow]
  exact present_of_same hpending

theorem presentBatchOverflow_kept (s : State) : (presentBatchOverflow s).rcn = s.rcn ∧
    ((presentBatchOverflow s).source 12).pending = batchOverflow s :=
  ⟨(presentBatchOverflow_agrees s).same .rcn (by decide), present_pending (k := 12) _ _ (by decide)⟩

/-! ### The expiry of the batch timer (R131) -/

section Expiry

variable {n : Nat} {s : State} (htimer : s.rcn.batchTimer = some n)
include htimer

theorem exec_batchTimerExpiry_idle (h : s.rcn.filling.entries = [] ∨ s.rcn.sendDue = true) :
    exec .batchTimerExpiry s = .next { s with rcn := { s.rcn with batchTimer := none } } := by
  show execBatchTimerExpiry s = _
  unfold execBatchTimerExpiry
  simp only [htimer, h, if_true]
  rfl

theorem exec_batchTimerExpiry_due (h : ¬(s.rcn.filling.entries = [] ∨ s.rcn.sendDue = true)) :
    exec .batchTimerExpiry s = .next (swapDue { s with rcn := { s.rcn with batchTimer := none } }) := by
  show execBatchTimerExpiry s = _
  unfold execBatchTimerExpiry
  simp only [htimer, h, if_false]
  rfl

end Expiry

/-- Settles O36: the cases of the append, and of the expiry. -/
theorem batchBuffersFillAndSwap : Obligations.BatchBuffersFillAndSwap := by
  refine ⟨?_, ?_⟩
  · intro k st r s hget hstamp x entry before t
    have hentry : batchEntry s r st = entry := by
      unfold batchEntry secondsSince
      rw [if_pos hstamp]
    have hadds (hplace : ∀ i, r.place ≠ .inFilling i) (hroom : before.length < 48) :
        t = presentBatchOverflow (if before.length + 1 = 48 then swapDue (entryAdded k r st s)
          else entryAdded k r st s) := batchAppend_adds hget hplace hroom st
    have hadded := entryAdded_eq k r st s
    rw [hentry] at hadded
    have hfilling : (entryAdded k r st s).rcn.filling.entries = before ++ [entry] := by
      rw [hadded]
      exact congrArg Buffer.entries (Rcn.setFilling_filling s.rcn _)
    have hother : (entryAdded k r st s).rcn.other = s.rcn.other := by
      rw [hadded]
      exact Rcn.setFilling_other s.rcn _
    refine ⟨fun i hplace => ?_, fun hplace hlen => ?_, fun hplace hlen hsending => ?_, fun hplace hlen hidle => ?_,
      fun hplace hfull => batchAppend_overflows hget hplace hfull st, ?_⟩
    · have ht : t = _ := batchAppend_overwrites hget hplace st
      rw [ht, hentry]
      exact ⟨congrArg Buffer.entries (Rcn.setFilling_filling ..), Rcn.setFilling_reefers ..,
        Rcn.setFilling_batchTimer .., Rcn.setFilling_stats ..⟩
    · have ht := hadds hplace (by omega)
      rw [if_neg (by omega)] at ht
      obtain ⟨hrcn, -⟩ := presentBatchOverflow_kept (entryAdded k r st s)
      rw [← ht] at hrcn
      rw [hrcn]
      refine ⟨hfilling, ?_, ?_⟩
      · rw [hadded]
      · rw [hadded]
    · have ht := hadds hplace (by omega)
      rw [if_pos (by omega), swapDue, if_neg (by rw [hother, hsending]; decide)] at ht
      obtain ⟨hrcn, hpending⟩ := presentBatchOverflow_kept
        ((entryAdded k r st s).setRcn { (entryAdded k r st s).rcn with sendDue := true })
      rw [← ht] at hrcn hpending
      rw [hrcn, hpending]
      refine ⟨hfilling, rfl, ?_, ?_⟩
      · have hlength : (entryAdded k r st s).rcn.filling.entries.length = 48 := by
          rw [hfilling, List.length_append, hlen]
          rfl
        exact batchOverflow_of_full hlength.ge ((congrArg Buffer.state hother).trans hsending)
      · rw [hadded, hlen]
        rfl
    · have ht := hadds hplace (by omega)
      rw [if_pos (by omega), swapDue, if_pos (by rw [hother, hidle])] at ht
      have swapped := carryOutSwap_swapCarriedOut (entryAdded k r st s)
      rw [swapped.presented] at ht
      have hkept : entryAdded k r st s = { s with
          rcn := { s.rcn.setFilling ⟨s.rcn.filling.state, before ++ [entry]⟩ with
            reefers := Table.put s.rcn.reefers k { r with place := .inFilling 47 } } } := by
        have hsome : s.rcn.filling.entries ≠ [] := List.ne_nil_of_length_pos (hlen ▸ Nat.succ_pos 46)
        rw [hadded, hlen, if_neg hsome, ← Rcn.setFilling_batchTimer]
      rw [← ht, hkept] at swapped
      exact swapped
    · exact batchAppend_frame k st s
  · intro n s htimer stopped entries
    refine ⟨fun h => exec_batchTimerExpiry_idle htimer h, fun hentries hdue hbusy => ?_, fun hentries hdue hidle => ?_⟩
    · refine (exec_batchTimerExpiry_due htimer (by simpa [hdue] using hentries)).trans ?_
      exact congrArg Host.Outcome.next (if_neg hbusy)
    · refine ⟨_, (exec_batchTimerExpiry_due htimer (by simpa [hdue] using hentries)).trans
        (congrArg Host.Outcome.next (if_pos hidle)), carryOutSwap_swapCarriedOut stopped⟩

end Sys2Proof.Machine
end

section
/-! Span events, the swap of the coverage map, and the walks of the cell commands (R4, R7, R8, R11 to R13, R16): O23 and
O25. -/

namespace Sys2Proof.Machine

/-! ### Span events (R16) -/

theorem inSpan_iff (g i : Nat) : inSpan g i = true ↔ i + 1 = g ∨ i = g ∨ i = g + 1 := by
  unfold inSpan
  rw [decide_eq_true_iff]
  omega

theorem addSpan_get (g : Nat) (o : Vector Nat 256) (i : Fin 256) :
    (addSpan g o).get i = o.get i + (if i.val + 1 = g ∨ i.val = g ∨ i.val = g + 1 then 1 else 0) := by
  have hspan := inSpan_iff g i.val
  unfold addSpan
  rw [Vector.get_ofFn]
  by_cases h : i.val + 1 = g ∨ i.val = g ∨ i.val = g + 1
  · rw [if_pos (hspan.2 h), if_pos h]
  · rw [if_neg (mt hspan.1 h), if_neg h, Nat.add_zero]

theorem removeSpan_get (g : Nat) (o : Vector Nat 256) (i : Fin 256) :
    (removeSpan g o).get i = o.get i - (if i.val + 1 = g ∨ i.val = g ∨ i.val = g + 1 then 1 else 0) := by
  have hspan := inSpan_iff g i.val
  unfold removeSpan
  rw [Vector.get_ofFn]
  by_cases h : i.val + 1 = g ∨ i.val = g ∨ i.val = g + 1
  · rw [if_pos (hspan.2 h), if_pos h]
  · rw [if_neg (mt hspan.1 h), if_neg h, Nat.sub_zero]

/-- The span event at the head of those in flight is taken (log 6). -/
theorem takeSpan_head {e : SpanEvent} {rest : List SpanEvent} {s : State} (h : s.flight.spans = e :: rest) :
    takeSpan e s = some { s with flight := { s.flight with spans := rest } } := by
  unfold takeSpan
  rw [h, if_pos List.head?_cons]
  rfl

theorem exec_addSpan {g : Nat} {rest : List SpanEvent} {s : State} (h : s.flight.spans = .add g :: rest) :
    exec (.addSpan g) s = .next { s with
      cvm := { s.cvm with overlay := addSpan g s.cvm.overlay }, flight := { s.flight with spans := rest } } := by
  show execAddSpan g s = _
  unfold execAddSpan
  simp only [takeSpan_head h]
  rfl

theorem exec_removeSpan {g : Nat} {rest : List SpanEvent} {s : State} (h : s.flight.spans = .remove g :: rest) :
    exec (.removeSpan g) s = .next { s with
      cvm := { s.cvm with overlay := removeSpan g s.cvm.overlay }, flight := { s.flight with spans := rest } } := by
  show execRemoveSpan g s = _
  unfold execRemoveSpan
  simp only [takeSpan_head h]
  rfl

/-! ### COMMIT-MAP and the swap (R12, R13) -/

theorem exec_commitMap {s : State} {e : Execution} (h : Awaits s e .commitMap) : exec .commitMap s =
    .next { s with cvm := { s.cvm with swapPending := true }, mga := { s.mga with phase := .held e } } := by
  show execCommitMap s = _
  unfold execCommitMap
  simp only [executionAt_of_awaits h]
  rfl

/-- The part after a swap, before the COMMIT-MAP ends. -/
def mapExchanged (s : State) : State :=
  sendMapSwapped (presentMapInvalid (raise 14 (.bank (!s.cvm.activeIsOne)) (s.setCvm s.cvm.swapped)))

theorem mapExchanged_told (s : State) :
    Told (s.setCvm s.cvm.swapped) (presentMapInvalid (raise 14 (.bank (!s.cvm.activeIsOne)) (s.setCvm s.cvm.swapped))) :=
  (raise_told ..).trans (present_told ..)

theorem mapExchanged_source (s : State) : TookEvent 14 (.bank (!s.cvm.activeIsOne)) s (mapExchanged s) ∧
    ((mapExchanged s).source 15).pending = false := by
  have raised := raise_eventRaised 14 (.bank (!s.cvm.activeIsOne)) (s.setCvm s.cvm.swapped) (by decide)
  have hvalid : mapInvalid (raise 14 (.bank (!s.cvm.activeIsOne)) (s.setCvm s.cvm.swapped)) = false := by
    unfold mapInvalid
    rw [show (raise 14 (.bank (!s.cvm.activeIsOne)) (s.setCvm s.cvm.swapped)).cvm = s.cvm.swapped from
      (raise_agrees ..).same .cvm (by decide)]
    rfl
  refine ⟨TookEvent.kept raised.event ?_, (present_pending (k := 15) _ _ (by decide)).trans hvalid⟩
  exact present_source_of_ne _ _ (by decide) (by decide)

theorem mapExchanged_cvm (s : State) : (mapExchanged s).cvm = s.cvm.swapped := by
  have frame := (mapExchanged_told s).frame
  unfold ReportsOnly at frame
  unfold mapExchanged
  rw [frame]
  rfl

/-- What a swap leaves, and what it sends (R13). -/
theorem mapExchanged_frame (s : State) :
    (mapExchanged s).flight.reevaluations =
      s.flight.reevaluations ++ (boundLinks s).filter (fun l => (s.link l).position.isSome) ∧
    mapExchanged s = { s with
      cvm := s.cvm.swapped, ntu := (mapExchanged s).ntu, ctb := (mapExchanged s).ctb
      flight := { s.flight with
        enqueues := (mapExchanged s).flight.enqueues, reevaluations := (mapExchanged s).flight.reevaluations } } := by
  have frame := (mapExchanged_told s).frame
  unfold ReportsOnly at frame
  unfold mapExchanged
  rw [frame]
  refine ⟨congrArg (s.flight.reevaluations ++ ·) ?_, rfl⟩
  unfold boundLinks
  rw [List.filter_filter]
  exact List.filter_congr fun l _ => Bool.and_comm ..

theorem swapMap_held {s : State} {e : Execution} (h : s.mga.phase = .held e) : swapMap s =
    completeCommand false e .ok [if s.cvm.activeIsOne then 0 else 1] (mapExchanged s) := by
  have hphase : (mapExchanged s).mga.phase = .held e := by
    rw [(mapExchanged_frame s).2]
    exact h
  have hbank : (mapExchanged s).cvm.activeIsOne = !s.cvm.activeIsOne := by
    rw [mapExchanged_cvm]
    rfl
  have hswap : swapMap s = completeCommit (mapExchanged s) := rfl
  rw [hswap]
  unfold completeCommit
  simp only [hphase, hbank]
  cases s.cvm.activeIsOne <;> rfl

/-- Settles O23: the span events, COMMIT-MAP, and the epoch expiry. -/
theorem spanEventsAndTheSwap : Obligations.SpanEventsAndTheSwap := by
  refine ⟨fun g rest s => ⟨fun h => ⟨_, exec_addSpan h, addSpan_get g _, rfl⟩,
    fun h => ⟨_, exec_removeSpan h, removeSpan_get g _, rfl⟩⟩, fun s e h => exec_commitMap h,
    fun s n htimer hpending => ?_, fun s n e htimer hpending hheld => ?_⟩
  · show execCoverageEpochExpiry s = _
    unfold execCoverageEpochExpiry
    simp only [htimer, hpending, Bool.false_eq_true, if_false]
    rfl
  · have hswap := swapMap_held (s := s.setCvm { s.cvm with epochTimer := some s.cvm.epochPeriod }) hheld
    obtain ⟨hevent, hvalid⟩ := mapExchanged_source (s.setCvm { s.cvm with epochTimer := some s.cvm.epochPeriod })
    obtain ⟨hsent, hframe⟩ := mapExchanged_frame (s.setCvm { s.cvm with epochTimer := some s.cvm.epochPeriod })
    have hcvm := mapExchanged_cvm (s.setCvm { s.cvm with epochTimer := some s.cvm.epochPeriod })
    refine ⟨_, ((execCoverageEpochExpiry_swaps hpending htimer).trans (congrArg Host.Outcome.next hswap)), hcvm, hevent,
      hvalid, hsent, ?_⟩
    rw [hcvm]
    exact hframe

end Sys2Proof.Machine
end

section
/-! The walks of STREAM-CELLS and READ-CELLS through the loading window (R4, R7, R8): O25. -/

namespace Sys2Proof.Machine

/-! ### The command that a frame has come to -/

/-- A frame that has come to a command holds that command whole. -/
theorem Execution.decoded_of_awaited {e : Execution} {i : Instr} (h : e.awaited = some i) :
    ∃ code args more, e.whole = some (code, args, more) ∧ Decode.command code args = .command i := by
  unfold Execution.awaited at h
  split at h
  · cases h
  · split at h
    · rename_i j hu
      cases h
      unfold Execution.upcoming at hu
      split at hu
      · cases hu
      · split at hu
        · cases hu
        · rename_i code args more hwhole
          refine ⟨code, args, more, hwhole, ?_⟩
          split at hu
          · cases hu
          · cases hu
          · rename_i hdecoded
            cases hu
            exact hdecoded
    all_goals cases h

theorem Decode.cells_length (n : Nat) (bytes : List Byte) (h : 2 * n ≤ bytes.length) :
    (Decode.cells n bytes).length = n := by
  induction n generalizing bytes with
  | zero => rfl
  | succ n ih =>
    obtain _ | ⟨a, _ | ⟨b, rest⟩⟩ := bytes
    · simp at h
    · simp at h
      omega
    · rw [Decode.cells, List.length_cons, ih rest (by simp at h; omega)]

/-- A STREAM-CELLS that is decoded carries as many values as it counts (R7, R169). -/
theorem Decode.command_streamCells {code : Byte} {args : List Byte} {cont n : Nat} {values : List CellValue}
    (h : Decode.command code args = .command (.streamCells cont n values)) : values.length = n := by
  unfold Decode.command at h
  split at h
  any_goals
    rw [Decode.ofOption_eq_command] at h
    repeat' split at h
    all_goals cases h
  any_goals cases h
  rename_i hshort
  exact Decode.cells_length _ _ (Nat.not_lt.1 hshort)

/-! ### Walks -/

section Walk

variable (w : Window) (p : Nat × Nat)

theorem startingCell_some (cont : Nat) (q : Nat × Nat) :
    startingCell w cont (some q) = if cont = 0 then w.firstCell else q := by
  rw [startingCell, flagSet]
  by_cases hcont : cont = 0 <;> simp [hcont]

theorem Window.wraps_succ (n : Nat) :
    w.wraps p (n + 1) = w.wraps p n + (if (w.advance (w.after p n)).2 then 1 else 0) := by
  unfold Window.wraps
  rw [List.range_succ, List.countP_append, List.countP_singleton]

theorem Window.after_advance (n : Nat) : w.after (w.advance p).1 n = w.after p (n + 1) := by
  induction n with
  | zero => rfl
  | succ n ih => simp only [Window.after] at ih ⊢; rw [ih]

theorem Window.wraps_advance (n : Nat) :
    w.wraps p (n + 1) = w.wraps (w.advance p).1 n + (if (w.advance p).2 then 1 else 0) := by
  induction n with
  | zero => exact Window.wraps_succ w p 0
  | succ n ih => rw [Window.wraps_succ, ih, Window.wraps_succ, Window.after_advance]; omega

variable (b : Bank)

theorem streamValues_concat (values : List CellValue) (v : CellValue) :
    streamValues w b p (values ++ [v]) = (streamValues w b p values).store w v := List.foldl_concat ..

/-- A walk that stores values reaches the position after them, with the wraps on the way (R7). -/
theorem streamValues_walk (values : List CellValue) :
    (streamValues w b p values).position = w.after p values.length ∧
      (streamValues w b p values).wraps = w.wraps p values.length ∧
      (streamValues w b p values).bank.geometry = b.geometry := by
  induction values using List.reverseRecOn with
  | nil => exact ⟨rfl, rfl, rfl⟩
  | append_singleton values v ih =>
    obtain ⟨hposition, hwraps, hgeometry⟩ := ih
    rw [streamValues_concat, List.length_append, List.length_singleton]
    refine ⟨congrArg (fun q => (w.advance q).1) hposition, ?_, hgeometry⟩
    rw [Window.wraps_succ, ← hwraps, ← hposition]
    rfl

/-- The walks of reads that stand at a cell, the last first. -/
theorem readWindow_walk (n : Nat) : (readWindow w b n p).cells =
      (List.range n).map (fun j => b.cell (w.after p j).1 (w.after p j).2) ∧
    (readWindow w b n p).wraps = w.wraps p n := by
  induction n generalizing p with
  | zero => exact ⟨rfl, rfl⟩
  | succ n ih =>
    obtain ⟨hcells, hwraps⟩ := ih (w.advance p).1
    refine ⟨?_, ?_⟩
    · rw [List.range_succ_eq_map, List.map_cons, List.map_map]
      refine congrArg (b.cell p.1 p.2 :: ·) (hcells.trans (List.map_congr_left fun j _ => ?_))
      rw [Window.after_advance]
      rfl
    · rw [Window.wraps_advance, ← hwraps]
      rfl

variable {w p b}

/-- A cell after a walk that stores values: the last value stored at it, or as before where none was (R2, R7). -/
theorem streamValues_cell (hw : w.lawful) (hb : b.lawful) (hp : w.holds p) (values : List CellValue) {g a : Nat}
    (ha : a ≤ 7) :
    (((List.range values.length).filter (fun j => w.after p j == (g, a))).getLast? = none →
      (streamValues w b p values).bank.cell g a = b.cell g a) ∧
    ∀ j, ((List.range values.length).filter (fun j => w.after p j == (g, a))).getLast? = some j →
      (streamValues w b p values).bank.cell g a = (values[j]?.map storedCell).getD .empty := by
  induction values using List.reverseRecOn with
  | nil => exact ⟨fun _ => rfl, fun j hj => nomatch hj⟩
  | append_singleton values v ih =>
    obtain ⟨hnone, hsome⟩ := ih
    obtain ⟨hposition, -, -⟩ := streamValues_walk w p b values
    obtain ⟨⟨hwf, -⟩, -⟩ := streamValues_lawful hw hb hp values
    obtain ⟨-, -, -, hlane⟩ := Window.holds_after hw hp values.length
    obtain ⟨-, -, -, hlanes⟩ := hw
    have written := Bank.cell_writeCell (streamValues w b p values).bank (w.after p values.length).1
      (w.after p values.length).2 g a (storedCell v) hwf (by omega) (by omega)
    rw [streamValues_concat, List.length_append, List.length_singleton, List.range_succ, List.filter_append]
    have hstore : ((streamValues w b p values).store w v).bank = (streamValues w b p values).bank.writeCell
        (w.after p values.length).1 (w.after p values.length).2 (storedCell v) := by
      rw [← hposition]
      rfl
    rw [hstore, written]
    by_cases hcell : w.after p values.length = (g, a)
    · rw [if_pos (by rw [hcell]; exact ⟨rfl, rfl⟩), List.filter_cons_of_pos (by simpa using hcell), List.filter_nil,
        List.getLast?_concat]
      refine ⟨(nomatch ·), fun j hj => ?_⟩
      cases hj
      simp
    · have hne : ¬(g = (w.after p values.length).1 ∧ a = (w.after p values.length).2) := fun ⟨hg, ha⟩ =>
        hcell (by rw [hg, ha])
      rw [if_neg hne, List.filter_cons_of_neg (by simpa using hcell), List.filter_nil, List.append_nil]
      refine ⟨hnone, fun j hj => ?_⟩
      have hmem := List.mem_of_getLast? hj
      have hlt : j < values.length := List.mem_range.1 (List.mem_of_mem_filter hmem)
      rw [hsome j hj, List.getElem?_append_left hlt]

end Walk

theorem Cvm.shadow_setShadow (c : Cvm) (b : Bank) (q : Cursor) :
    ({ c.setShadow b with writeCursor := q } : Cvm).shadow = b := by
  unfold Cvm.setShadow
  unfold Cvm.shadow
  cases h : c.activeIsOne <;> rfl

theorem takeStreamCells_eq {cont n : Nat} (values : List CellValue) {s : State} (hlow : 1 ≤ n) (hhigh : n ≤ 64) :
    takeStreamCells cont n values s =
      ⟨if values.any cellClamped then .clamped else .ok,
        be2 n ++ be2 (streamValues s.cvm.window s.cvm.shadow
          (startingCell s.cvm.window cont s.cvm.writeCursor) values).wraps ++
          positionBytes (streamValues s.cvm.window s.cvm.shadow
            (startingCell s.cvm.window cont s.cvm.writeCursor) values).position,
        s.setCvm { s.cvm.setShadow (streamValues s.cvm.window s.cvm.shadow
            (startingCell s.cvm.window cont s.cvm.writeCursor) values).bank with
          writeCursor := some (streamValues s.cvm.window s.cvm.shadow
            (startingCell s.cvm.window cont s.cvm.writeCursor) values).position }⟩ := by
  rw [takeStreamCells, if_neg (by omega)]
  rfl

/-- The bank and the number that a bank selector names (R8). -/
theorem selectedBank_eq (c : Cvm) {k : Nat} (hk : k ≤ 1) :
    selectedBank c k = (if (k = 0 ↔ c.activeIsOne = true) then c.bank1 else c.bank0) ∧
      selectedNumber c k = if (k = 0 ↔ c.activeIsOne = true) then 1 else 0 := by
  unfold selectedBank selectedNumber Cvm.active Cvm.shadow
  obtain rfl | rfl : k = 0 ∨ k = 1 := by omega
  all_goals cases c.activeIsOne <;> exact ⟨rfl, rfl⟩

/-- Settles O25: the values stored and the cells read along the walk. -/
theorem cellCommandsWalkTheWindow : Obligations.CellCommandsWalkTheWindow := by
  refine ⟨?_, ?_⟩
  · intro cont n values s e law hs
    refine ⟨fun hbad => exec_of_awaits hs rfl (if_pos hbad), ?_⟩
    intro hlow hhigh w start
    obtain ⟨hphase, hawaited⟩ := hs
    obtain ⟨code, args, more, -, hdecoded⟩ := Execution.decoded_of_awaited hawaited
    have hlength := Decode.command_streamCells hdecoded
    have hstart : startingCell w cont s.cvm.writeCursor = start := by
      simp only [start]
      cases s.cvm.writeCursor with
      | none => rfl
      | some q => exact startingCell_some w cont q
    have map := (cvm_lawful_iff s).2 law
    have hholds : w.holds start := hstart ▸ Window.holds_startingCell map.window map.write cont
    have htaken := takeStreamCells_eq (cont := cont) values (s := s) hlow hhigh
    obtain ⟨hposition, hwraps, hgeometry⟩ := streamValues_walk w start s.cvm.shadow values
    have hcell (g a : Nat) (ha : a ≤ 7) := streamValues_cell map.window map.shadow hholds values (g := g) ha
    rw [show startingCell s.cvm.window cont s.cvm.writeCursor = start from hstart] at htaken
    change takeStreamCells cont n values s = ⟨_, be2 n ++ be2 (streamValues w s.cvm.shadow start values).wraps ++ _,
      s.setCvm { s.cvm.setShadow (streamValues w s.cvm.shadow start values).bank with
        writeCursor := some (streamValues w s.cvm.shadow start values).position }⟩ at htaken
    generalize streamValues w s.cvm.shadow start values = x at *
    rw [hlength] at hposition hwraps hcell
    rw [hposition, hwraps] at htaken
    have hshadow := Cvm.shadow_setShadow s.cvm x.bank (some (w.after start n))
    refine ⟨s.setCvm { s.cvm.setShadow x.bank with writeCursor := some (w.after start n) },
      exec_of_awaits ⟨hphase, hawaited⟩ rfl (htaken.trans ?_), hlength, fun g a hg ha => ?_, ?_, ?_⟩
    · unfold positionBytes
      rw [List.append_assoc (_ ++ _)]
    · obtain ⟨hkept, hstored⟩ := hcell g a ha
      refine (congrArg (Bank.cell · g a) hshadow).trans ?_
      cases hlast : ((List.range n).filter (fun j => w.after start j == (g, a))).getLast? with
      | none => exact hkept hlast
      | some j => exact hstored j hlast
    · exact (congrArg Bank.geometry hshadow).trans hgeometry
    · exact congrArg (fun b => s.setCvm { s.cvm.setShadow b with writeCursor := some (w.after start n) }) hshadow.symm
  · intro k cont count s e hs
    refine ⟨fun hbad => exec_of_awaits_room hs rfl (if_pos hbad), ?_⟩
    intro hk hlow hhigh hroom w start bank number n
    have hstart : startingCell w cont s.cvm.readCursor = start := by
      simp only [start]
      cases s.cvm.readCursor with
      | none => rfl
      | some q => exact startingCell_some w cont q
    obtain ⟨hbank, hnumber⟩ := selectedBank_eq s.cvm hk
    obtain ⟨hcells, hwraps⟩ := readWindow_walk w start bank n
    have hposition := readWindow_position w bank n start
    have htaken : takeReadCells k cont count e.room s = ⟨if n = count then .ok else .partialFit,
        readCellsBytes s.cvm k (readWindow w (selectedBank s.cvm k) n (startingCell w cont s.cvm.readCursor)),
        if n = 0 then s else s.setCvm { s.cvm with
          readCursor := some (readWindow w (selectedBank s.cvm k) n (startingCell w cont s.cvm.readCursor)).position }⟩ :=
      (if_neg (by omega)).trans (if_neg (by omega))
    rw [hstart, show selectedBank s.cvm k = bank from hbank, hposition] at htaken
    refine exec_of_awaits_room hs rfl (htaken.trans ?_)
    have hresult : readCellsBytes s.cvm k (readWindow w bank n start) =
        be1 number ++ flagByte s.cvm.valid ++ geometryBytes bank.geometry ++ be2 n ++ be2 (w.wraps start n) ++
          (List.range n).flatMap (fun j => cellBytes (bank.cell (w.after start j).1 (w.after start j).2)) := by
      rw [readCellsBytes, hcells, hwraps, show selectedBank s.cvm k = bank from hbank,
        show selectedNumber s.cvm k = number from hnumber, List.length_map, List.length_range, List.flatMap_map]
    rw [hresult]
    rfl

end Sys2Proof.Machine
end

section
/-! Selections, released frames, and the end of a transmission (R135, R138, R144 to R146, R174): O40. -/

namespace Sys2Proof.Machine

/-! ### What a selection changes (R144 to R146) -/

section Select

variable (p : Port) (s : State)

/-- A selection leaves the part as it is, or starts a transmission from the queue it chooses. -/
theorem select_cases : select p s = s ∨ ∃ cls x, chooseQueue s p = some (cls, x) ∧
    select p s = chargeShaper p cls (headLength (x.get cls)) (s.setQueues p { x with sending := some cls }) := by
  unfold select
  split
  · exact .inl rfl
  · cases h : chooseQueue s p with
    | none => exact .inl rfl
    | some choice => exact .inr ⟨choice.1, choice.2, rfl, rfl⟩

theorem chargeShaper_frame (cls : QClass) (n : Nat) : (chargeShaper p cls n s) =
    { s with fsq := { s.fsq with buckets := (chargeShaper p cls n s).fsq.buckets } } := by
  unfold chargeShaper
  dsimp only
  split <;> rfl

theorem chargeShaper_bucket_of_ne (cls : QClass) (n : Nat) {b : BucketNo} (hb : b ≠ shaperBucket p cls) :
    (chargeShaper p cls n s).bucket b = s.bucket b := by
  unfold chargeShaper
  dsimp only
  split
  · rfl
  · exact State.bucket_setBucket_of_ne _ _ hb

/-- A selection changes the ports' queues and the buckets alone. -/
theorem select_frame : select p s =
    { s with fsq := { s.fsq with ports := (select p s).fsq.ports, buckets := (select p s).fsq.buckets } } := by
  obtain h | ⟨cls, x, -, h⟩ := select_cases p s
  · rw [h]
  · rw [h, chargeShaper_frame]
    rfl

theorem select_queues_of_ne {q : Port} (hq : q ≠ p) : (select p s).queues q = s.queues q := by
  obtain h | ⟨cls, x, -, h⟩ := select_cases p s
  · rw [h]
  · rw [h, chargeShaper_frame]
    exact State.queues_setQueues_of_ne _ _ hq

/-- A selection leaves the queues themselves. -/
theorem select_get (q : Port) (k : QClass) : ((select p s).queues q).get k = (s.queues q).get k := by
  obtain h | ⟨cls, x, hchoice, h⟩ := select_cases p s
  · rw [h]
  · by_cases hq : q = p
    · subst hq
      have hqueues : (select q s).queues q = { x with sending := some cls } := by
        rw [h, chargeShaper_frame]
        exact State.queues_setQueues_self ..
      rw [hqueues, PortQueues.get_sending]
      exact chooseQueue_get hchoice k
    · rw [select_queues_of_ne p s hq]

theorem select_bucket_of_ne {b : BucketNo} (hb : ∀ cls, b ≠ shaperBucket p cls) : (select p s).bucket b = s.bucket b := by
  obtain h | ⟨cls, x, -, h⟩ := select_cases p s
  · rw [h]
  · rw [h, chargeShaper_bucket_of_ne _ _ _ _ (hb cls)]
    rfl

variable {p s}

/-- What a selection makes of a port turns on that port's queues, its buckets and its record alone. -/
theorem select_congr {t : State} (hqueues : t.queues p = s.queues p)
    (hbuckets : ∀ cls, t.bucket (shaperBucket p cls) = s.bucket (shaperBucket p cls)) (hports : t.ports = s.ports) :
    (select p t).queues p = (select p s).queues p ∧
      ∀ cls, (select p t).bucket (shaperBucket p cls) = (select p s).bucket (shaperBucket p cls) := by
  have husable : t.usable p = s.usable p := by rw [State.usable_congr hports]
  have hport : t.port p = s.port p := by unfold State.port; rw [hports]
  have heligible (cls : QClass) : eligible t p cls = eligible s p cls := by
    unfold eligible
    rw [hqueues, hbuckets]
  have hchoice : chooseQueue t p = chooseQueue s p := by
    unfold chooseQueue
    rw [hqueues, heligible, heligible, heligible, heligible]
  unfold select
  rw [hqueues, husable, hchoice]
  split
  · exact ⟨hqueues, hbuckets⟩
  · cases chooseQueue s p with
    | none => exact ⟨hqueues, hbuckets⟩
    | some choice =>
      obtain ⟨cls, x⟩ := choice
      dsimp only
      refine ⟨?_, fun k => ?_⟩
      · rw [chargeShaper_frame, chargeShaper_frame p (s.setQueues _ _)]
        exact (State.queues_setQueues_self t p _).trans (State.queues_setQueues_self s p _).symm
      · have hcharged : (t.setQueues p { x with sending := some cls }).bucket (shaperBucket p cls) =
            (s.setQueues p { x with sending := some cls }).bucket (shaperBucket p cls) := hbuckets cls
        have hover : ((t.setQueues p { x with sending := some cls }).port p).overhead =
            ((s.setQueues p { x with sending := some cls }).port p).overhead := congrArg PortRec.overhead hport
        unfold chargeShaper
        dsimp only
        rw [hcharged, hover]
        split
        · exact hbuckets k
        · rw [State.bucket_setBucket, State.bucket_setBucket]
          split
          · rfl
          · exact hbuckets k

theorem select_buckets_congr {t : State} (hqueues : t.queues p = s.queues p) (hbuckets : t.fsq.buckets = s.fsq.buckets)
    (hports : t.ports = s.ports) : (select p t).fsq.buckets = (select p s).fsq.buckets := by
  have hbucket (b : BucketNo) : t.bucket b = s.bucket b := by unfold State.bucket; rw [hbuckets]
  obtain ⟨-, hshapers⟩ := select_congr hqueues (fun cls => hbucket _) hports
  refine Vector.ext fun i hi => ?_
  by_cases h : ∃ cls, (⟨i, hi⟩ : BucketNo) = shaperBucket p cls
  · obtain ⟨cls, h⟩ := h
    have := hshapers cls
    rw [← h] at this
    exact this
  · have hne (cls : QClass) : (⟨i, hi⟩ : BucketNo) ≠ shaperBucket p cls := fun g => h ⟨cls, g⟩
    exact ((select_bucket_of_ne p t hne).trans (hbucket _)).trans (select_bucket_of_ne p s hne).symm

end Select

end Sys2Proof.Machine
end

section
/-! The end of a transmission (R135, R138, R146, R174): O40. -/

namespace Sys2Proof.Machine

/-! ### A released entry (R138) -/

section Release

variable {s : State} {id n len : Nat} {f : Stored}

theorem releaseEntry_last (hf : Table.get s.fsq.store id = some f) (h : f.refs ≤ 1) : releaseEntry s (.frame id n len) =
    { s with fsq := { s.fsq with store := Table.erase s.fsq.store id, free := s.fsq.free + f.cells } } := by
  simp only [releaseEntry, hf, h, if_true]
  rfl

theorem releaseEntry_shared (hf : Table.get s.fsq.store id = some f) (h : 2 ≤ f.refs) :
    releaseEntry s (.frame id n len) =
      { s with fsq := { s.fsq with store := Table.put s.fsq.store id { f with refs := f.refs - 1 } } } := by
  have hmore : ¬f.refs ≤ 1 := by omega
  simp only [releaseEntry, hf, hmore, if_false]
  rfl

/-- Releasing an entry changes the stored frames and the free cells alone. -/
theorem releaseEntry_frame (s : State) (e : Entry) : releaseEntry s e =
    { s with fsq := { s.fsq with store := (releaseEntry s e).fsq.store, free := (releaseEntry s e).fsq.free } } := by
  unfold releaseEntry
  split
  · rfl
  · split
    · rfl
    · split <;> rfl

end Release

/-! ### The end of a transmission -/

section Ended

variable (p : Port) (cls : QClass) (e : Entry) (rest : List Entry) (s : State)

/-- A port whose transmission has ended, its head entry removed (R146). -/
def headRemoved : State :=
  s.setQueues p { (s.queues p).set cls { (s.queues p).get cls with entries := rest } with sending := none }

/-- The part after the end of a transmission, before a selection or a soft restart (R146). -/
def transmissionDone : State :=
  if e.isBatch then batchTransmitted (transmissionCounted p e (transmissionEnded p cls e rest s))
  else transmissionCounted p e (transmissionEnded p cls e rest s)

theorem transmissionEnded_frame : transmissionEnded p cls e rest s =
    { s with
      wire := s.wire ++ [(p, entryBytes s e ++ fcsBytes (entryBytes s e))]
      fsq := { (headRemoved p cls rest s).fsq with
        store := (transmissionEnded p cls e rest s).fsq.store, free := (transmissionEnded p cls e rest s).fsq.free } } := by
  unfold transmissionEnded
  rw [releaseEntry_frame]
  rfl

theorem exec_transmissionEnd (hsending : (s.queues p).sending = some cls)
    (hentries : ((s.queues p).get cls).entries = e :: rest) : exec (.transmissionEnd p) s =
      .next (if isRestartReply s e then softRestart (transmissionDone p cls e rest s)
        else select p (transmissionDone p cls e rest s)) := by
  show execTransmissionEnd p s = _
  unfold execTransmissionEnd
  simp only [hsending, hentries]
  rfl

/-- The counts of an ended transmission (R146), with POOL-LOW presented. -/
theorem transmissionCounted_effect (u : State) :
    ReportsOnly u (transmissionCounted p e u) ∧ HandsOnNotices u (transmissionCounted p e u) ∧
      CounterRises p 2 1 u (transmissionCounted p e u) ∧ CounterRises p 3 e.length u (transmissionCounted p e u) ∧
      ((transmissionCounted p e u).source 20).pending = poolLow u := by
  have hframes := bump_counter p 2 1 (presentPoolLow u) (by decide)
  have hbytes := bump_counter p 3 e.length (bump p 2 1 (presentPoolLow u)) (by decide)
  have hkept : (transmissionCounted p e u).counter p 2 = (bump p 2 1 (presentPoolLow u)).counter p 2 :=
    bump_counter_of_ne _ _ (by decide) (fun h => absurd h.1 (by decide))
  have hpassed : (bump p 2 1 (presentPoolLow u)).counter p 3 = (presentPoolLow u).counter p 3 :=
    bump_counter_of_ne _ _ (by decide) (fun h => absurd h.1 (by decide))
  have hpresented (c : Fin 12) (hc : c ≠ 10) : (presentPoolLow u).counter p c = u.counter p c :=
    present_counter _ _ u p hc
  refine ⟨(transmissionCounted_reported p e u).frame, ?_, ?_, ?_, ?_⟩
  · exact ((present_told ..).handed.trans (bump_handed ..)).trans (bump_handed ..)
  · unfold CounterRises at *
    rw [hkept, hframes, hpresented 2 (by decide)]
  · unfold CounterRises at *
    refine hbytes.trans ?_
    rw [hpassed, hpresented 3 (by decide)]
  · have h20 : (transmissionCounted p e u).source 20 = (presentPoolLow u).source 20 :=
      (bump_source _ _ _ _ _ (by decide)).trans (bump_source _ _ _ _ _ (by decide))
    rw [h20]
    exact present_pending (k := 20) _ _ (by decide)

end Ended

/-! ### A batch frame that was transmitted (R135) -/

theorem discardSending_counter (s : State) (q : Port) (c : Fin 12) :
    (discardSending s).counter q c = s.counter q c := rfl

/-- A swap leaves every counter but the tx port-down discards. -/
theorem carryOutSwap_counter (s : State) (q : Port) {c : Fin 12} (hc : c ≠ 10) :
    (carryOutSwap s).counter q c = s.counter q c := by
  have presented : (presentBatchOverflow (s.setRcn s.rcn.swapped)).counter q c = s.counter q c :=
    present_counter _ _ (s.setRcn s.rcn.swapped) q hc
  unfold carryOutSwap
  dsimp only
  split
  · exact presented
  · rw [discardSending_counter, (portDownDrop_droppedPortDown _ _).counters q c hc]
    exact presented

theorem waitingSwap_counter (s : State) (q : Port) {c : Fin 12} (hc : c ≠ 10) :
    (waitingSwap s).counter q c = s.counter q c := by
  unfold waitingSwap
  split
  · exact carryOutSwap_counter s q hc
  · exact present_counter _ _ s q hc

theorem BatchFrame.refl (s : State) : BatchFrame s s := rfl

theorem waitingSwap_frame (s : State) : BatchFrame s (waitingSwap s) := by
  unfold waitingSwap
  split
  · exact carryOutSwap_frame s
  · exact BatchFrame.reports (.refl s) (present_reportsOnly ..)

theorem batchTransmitted_frame (s : State) : BatchFrame s (batchTransmitted s) :=
  (BatchFrame.setRcn ..).trans (waitingSwap_frame _)

theorem BatchLaw.congr {s t : State} (h : BatchLaw s) (hrcn : t.rcn = s.rcn) : BatchLaw t := by
  obtain ⟨hfilling, hbounded, hunique, hplaced⟩ := h
  constructor
  all_goals
    rw [hrcn]
    assumption

/-- Once the SENDING buffer is IDLE, no buffer is SENDING. -/
theorem Rcn.idleSending_entries {s : State} (law : BatchLaw s) : s.rcn.idleSending.sendingEntries = [] := by
  have hfilling := law.filling
  unfold Rcn.idleSending
  split_ifs with hA hB
  · have hB : s.rcn.bufferB.state = .filling := by
      by_contra h
      rw [hfilling.2 h] at hA
      cases hA
    simp [Rcn.sendingEntries, hB]
  · simp [Rcn.sendingEntries, hA]
  · simp [Rcn.sendingEntries, hA, hB]

theorem Rcn.idleSending_sendDue (r : Rcn) : r.idleSending.sendDue = r.sendDue := by
  unfold Rcn.idleSending
  split_ifs <;> rfl

/-- Without a swap that waits, the end of the SENDING buffer presents BATCH-OVERFLOW alone (R135, R136). -/
theorem waitingSwap_of_clear {s : State} (h : s.rcn.sendDue = false) : (waitingSwap s).rcn = s.rcn := by
  rw [waitingSwap, if_neg (by rw [h]; exact Bool.false_ne_true)]
  exact (presentBatchOverflow_kept s).1

/-- A swap that waits is carried out at the end of the SENDING buffer (R135, R136). -/
theorem waitingSwap_of_due {s : State} (h : s.rcn.sendDue = true) : SwapCarriedOut s (waitingSwap s) := by
  rw [waitingSwap, if_pos h]
  exact carryOutSwap_swapCarriedOut s

/-- A swap leaves the count of batches sent. -/
theorem SwapCarriedOut.batchesSent {s t : State} (h : SwapCarriedOut s t) :
    t.rcn.stats.batchesSent = s.rcn.stats.batchesSent := by
  obtain ⟨-, -, -, -, u, -, -, hup, hdown⟩ := h
  cases husable : s.usable (if (s.domain s.rcn.settings.domain).trunk = .t0 then 12 else 13) with
  | true =>
    obtain ⟨-, -, hstats, -⟩ := hup husable
    rw [hstats]
  | false =>
    obtain ⟨-, -, hstats, -⟩ := hdown husable
    rw [hstats]

/-- The end of the SENDING buffer as transmitted (R135). -/
theorem batchTransmitted_effect (s : State) :
    (s.rcn.sendDue = false → (BatchLaw s → (batchTransmitted s).rcn.sendingEntries = []) ∧
      (batchTransmitted s).rcn.stats =
        { s.rcn.stats with batchesSent := min 4294967295 (s.rcn.stats.batchesSent + 1) } ∧
      (batchTransmitted s).rcn.reefers = s.rcn.reefers) ∧
    (s.rcn.sendDue = true → (batchTransmitted s).rcn.sendDue = false ∧
      (batchTransmitted s).rcn.filling.entries = [] ∧
      (batchTransmitted s).rcn.stats.batchesSent = min 4294967295 (s.rcn.stats.batchesSent + 1)) := by
  have heq : batchTransmitted s = waitingSwap (s.setRcn { s.rcn.idleSending with
      stats := { s.rcn.stats with batchesSent := min 4294967295 (s.rcn.stats.batchesSent + 1) } }) := rfl
  rw [heq]
  generalize hu : s.setRcn { s.rcn.idleSending with
      stats := { s.rcn.stats with batchesSent := min 4294967295 (s.rcn.stats.batchesSent + 1) } } = u
  have hrcn : u.rcn = { s.rcn.idleSending with
      stats := { s.rcn.stats with batchesSent := min 4294967295 (s.rcn.stats.batchesSent + 1) } } := by rw [← hu]; rfl
  have hdue : u.rcn.sendDue = s.rcn.sendDue := by
    rw [hrcn]
    exact Rcn.idleSending_sendDue s.rcn
  refine ⟨fun h => ?_, fun h => ?_⟩
  · rw [waitingSwap_of_clear (hdue.trans h), hrcn]
    exact ⟨fun law => Rcn.idleSending_entries law, rfl, Rcn.idleSending_reefers s.rcn⟩
  · have swapped := waitingSwap_of_due (hdue.trans h)
    have hsent := swapped.batchesSent
    obtain ⟨hfilling, -, hclear, -⟩ := swapped
    refine ⟨hclear, by rw [hfilling], ?_⟩
    rw [hsent, hrcn]

/-! ### O40 -/

theorem entryBytes_frame {s : State} {id n len : Nat} {f : Stored} (hf : Table.get s.fsq.store id = some f) :
    entryBytes s (.frame id n len) = f.bytes := by
  simp only [entryBytes, hf]

theorem isRestartReply_frame {s : State} {id n len : Nat} {f : Stored} (hf : Table.get s.fsq.store id = some f) :
    isRestartReply s (.frame id n len) = (f.origin == .reply true) := by
  simp only [isRestartReply, hf]

theorem softRestart_queues (s : State) (p : Port) :
    (softRestart s).queues p = { (s.queues p).emptied with turn := .b, served := 0 } := by
  unfold State.queues
  rw [softRestart_fsq]
  exact vector_get_map (fun q : PortQueues => { q.emptied with turn := .b, served := 0 }) s.fsq.ports p

theorem softRestart_silent (s : State) (p : Port) :
    ((softRestart s).queues p).sending = none ∧ ((softRestart s).queues p).entries = [] := by
  rw [softRestart_queues]
  exact ⟨rfl, rfl⟩

theorem softRestart_wire (s : State) : (softRestart s).wire = s.wire := by
  have counted := (restartCounted_reported s).frame
  unfold ReportsOnly at counted
  rw [softRestart_eq, counted]

/-- The part after a transmission that ended, before a selection or a soft restart: the port's head entry is removed and
its cells are released, and the rest is what the counts and the batch buffers change (R135, R146). -/
theorem transmissionDone_effect (p : Port) (cls : QClass) (e : Entry) (rest : List Entry) (s : State) :
    CounterRises p 2 1 s (transmissionDone p cls e rest s) ∧
    CounterRises p 3 e.length s (transmissionDone p cls e rest s) ∧
    transmissionDone p cls e rest s = { s with
      rcn := (transmissionDone p cls e rest s).rcn
      fsq := { (headRemoved p cls rest s).fsq with
        store := (transmissionEnded p cls e rest s).fsq.store, free := (transmissionEnded p cls e rest s).fsq.free }
      ntu := (transmissionDone p cls e rest s).ntu, ctb := (transmissionDone p cls e rest s).ctb
      wire := s.wire ++ [(p, entryBytes s e ++ fcsBytes (entryBytes s e))]
      flight := { s.flight with enqueues := (transmissionDone p cls e rest s).flight.enqueues } } := by
  have ended := transmissionEnded_frame p cls e rest s
  obtain ⟨reports, -, hframes, hbytes, -⟩ := transmissionCounted_effect p e (transmissionEnded p cls e rest s)
  have hctb : (transmissionEnded p cls e rest s).ctb = s.ctb := by rw [ended]
  have done : BatchFrame (transmissionEnded p cls e rest s) (transmissionDone p cls e rest s) := by
    have counted := BatchFrame.reports (.refl _) reports
    unfold transmissionDone
    split
    · exact counted.trans (batchTransmitted_frame _)
    · exact counted
  have hcounter (c : Fin 12) (hc : c ≠ 10) : (transmissionDone p cls e rest s).counter p c =
      (transmissionCounted p e (transmissionEnded p cls e rest s)).counter p c := by
    unfold transmissionDone
    split
    · exact waitingSwap_counter _ p hc
    · rfl
  unfold CounterRises State.counter at *
  rw [hctb] at hframes hbytes
  refine ⟨by rw [hcounter 2 (by decide), hframes], by rw [hcounter 3 (by decide), hbytes], ?_⟩
  unfold BatchFrame at done
  exact done.trans (congrArg (fun w : State => { w with
    rcn := (transmissionDone p cls e rest s).rcn, ntu := (transmissionDone p cls e rest s).ntu
    ctb := (transmissionDone p cls e rest s).ctb
    flight := { w.flight with enqueues := (transmissionDone p cls e rest s).flight.enqueues } }) ended)

theorem select_rest (p : Port) (s : State) : select p s = { s with fsq := (select p s).fsq } := by
  obtain h | ⟨cls, x, -, h⟩ := select_cases p s
  · rw [h]
  · rw [h, chargeShaper_frame]
    rfl

/-- The part after the end of a transmission and the selection that follows it (R146). -/
theorem transmissionDone_selected (p : Port) (cls : QClass) (e : Entry) (rest : List Entry) {s t : State}
    (ht : t = select p (transmissionDone p cls e rest s)) :
    (t.queues p = (select p (headRemoved p cls rest s)).queues p ∧
      t.fsq.buckets = (select p (headRemoved p cls rest s)).fsq.buckets) ∧
    ((t.queues p).get cls).entries = rest ∧
    (∀ k, k ≠ cls → ((t.queues p).get k).entries = ((s.queues p).get k).entries) ∧
    (∀ q, q ≠ p → t.queues q = s.queues q) ∧
    t.fsq.store = (transmissionEnded p cls e rest s).fsq.store ∧
    t.fsq.free = (transmissionEnded p cls e rest s).fsq.free ∧ t.fsq.reserve = s.fsq.reserve ∧
    t = { s with
      rcn := (transmissionDone p cls e rest s).rcn, fsq := t.fsq, ntu := (transmissionDone p cls e rest s).ntu
      ctb := (transmissionDone p cls e rest s).ctb
      wire := s.wire ++ [(p, entryBytes s e ++ fcsBytes (entryBytes s e))]
      flight := { s.flight with enqueues := (transmissionDone p cls e rest s).flight.enqueues } } := by
  obtain ⟨-, -, hdone⟩ := transmissionDone_effect p cls e rest s
  generalize transmissionDone p cls e rest s = u at *
  have hqueues (q : Port) : u.queues q = (headRemoved p cls rest s).queues q := by
    unfold State.queues
    rw [hdone]
  have hbuckets : u.fsq.buckets = (headRemoved p cls rest s).fsq.buckets := by rw [hdone]
  have hports : u.ports = (headRemoved p cls rest s).ports := by rw [hdone]; rfl
  have hself : (headRemoved p cls rest s).queues p =
      { (s.queues p).set cls { (s.queues p).get cls with entries := rest } with sending := none } :=
    State.queues_setQueues_self ..
  have hget (k : QClass) : (t.queues p).get k =
      if k = cls then { (s.queues p).get cls with entries := rest } else (s.queues p).get k := by
    rw [ht, select_get, hqueues, hself, PortQueues.get_sending, PortQueues.get_set]
  have hselect := select_frame p u
  rw [← ht] at hselect
  refine ⟨⟨?_, ?_⟩, ?_, fun k hk => ?_, fun q hq => ?_, ?_, ?_, ?_, ?_⟩
  · rw [ht]
    exact (select_congr (hqueues p) (fun k => by unfold State.bucket; rw [hbuckets]) hports).1
  · rw [ht]
    exact select_buckets_congr (hqueues p) hbuckets hports
  · rw [hget, if_pos rfl]
  · rw [hget, if_neg hk]
  · rw [ht, select_queues_of_ne p u hq, hqueues]
    exact State.queues_setQueues_of_ne _ _ hq
  · rw [hselect, hdone]
  · rw [hselect, hdone]
  · rw [hselect, hdone]
    rfl
  · have hrest : t = { u with fsq := t.fsq } := by
      rw [ht]
      exact select_rest p u
    exact hrest.trans (congrArg (fun w : State => { w with fsq := t.fsq }) hdone)

section Frames

variable {p : Port} {cls : QClass} {rest : List Entry} {s t : State} {id n len : Nat} {f : Stored}
  (hf : Table.get s.fsq.store id = some f)
include hf

/-- The stored frame of an entry whose transmission ended (R138, R146). -/
theorem transmissionEnded_last (h : f.refs ≤ 1) :
    (transmissionEnded p cls (.frame id n len) rest s).fsq.store = Table.erase s.fsq.store id ∧
      (transmissionEnded p cls (.frame id n len) rest s).fsq.free = s.fsq.free + f.cells := by
  have hf : Table.get (({ s with wire := s.wire ++ [(p, entryBytes s (.frame id n len) ++
      fcsBytes (entryBytes s (.frame id n len)))] } : State).setQueues p
      { (s.queues p).set cls { (s.queues p).get cls with entries := rest } with sending := none }).fsq.store id =
        some f := hf
  rw [transmissionEnded, releaseEntry_last hf h]
  exact ⟨rfl, rfl⟩

theorem transmissionEnded_shared (h : 2 ≤ f.refs) :
    (transmissionEnded p cls (.frame id n len) rest s).fsq.store =
        Table.put s.fsq.store id { f with refs := f.refs - 1 } ∧
      (transmissionEnded p cls (.frame id n len) rest s).fsq.free = s.fsq.free := by
  have hf : Table.get (({ s with wire := s.wire ++ [(p, entryBytes s (.frame id n len) ++
      fcsBytes (entryBytes s (.frame id n len)))] } : State).setQueues p
      { (s.queues p).set cls { (s.queues p).get cls with entries := rest } with sending := none }).fsq.store id =
        some f := hf
  rw [transmissionEnded, releaseEntry_shared hf h]
  exact ⟨rfl, rfl⟩

end Frames

/-- Settles O40: the entry leaves, its cells are released, and a selection or a soft restart follows. -/
theorem transmissionEndReleasesTheHead : Obligations.TransmissionEndReleasesTheHead := by
  intro p cls rest s hsending x v selected
  refine ⟨fun id n len f hentries hf => ?_, fun bytes hentries => ?_⟩
  · have hexec := exec_transmissionEnd p cls (.frame id n len) rest s hsending hentries
    have hended := transmissionEnded_frame p cls (.frame id n len) rest s
    obtain ⟨reports, hhanded, -, -, hlow⟩ := transmissionCounted_effect p (.frame id n len)
      (transmissionEnded p cls (.frame id n len) rest s)
    change ReportsOnly _ (transmissionDone p cls (.frame id n len) rest s) at reports
    change HandsOnNotices _ (transmissionDone p cls (.frame id n len) rest s) at hhanded
    change ((transmissionDone p cls (.frame id n len) rest s).source 20).pending = _ at hlow
    obtain ⟨hframes, hbytes, hframe⟩ := transmissionDone_effect p cls (.frame id n len) rest s
    rw [isRestartReply_frame hf] at hexec
    by_cases horigin : f.origin = .reply true
    · rw [if_pos (by rw [horigin]; exact beq_self_eq_true _)] at hexec
      refine ⟨_, hexec, ?_, fun _ => ⟨rfl, softRestart_silent _⟩, fun h => absurd horigin h⟩
      rw [softRestart_wire, hframe, entryBytes_frame hf]
    · rw [if_neg (by simpa using horigin)] at hexec
      generalize ht : select p (transmissionDone p cls (.frame id n len) rest s) = t at hexec
      obtain ⟨hselected, hrest, hothers, hports, hstore, hfree, hreserve, hwhole⟩ :=
        transmissionDone_selected p cls (.frame id n len) rest ht.symm
      rw [entryBytes_frame hf] at hwhole
      have hrcn : (transmissionDone p cls (.frame id n len) rest s).rcn = s.rcn := by rw [reports.rcn, hended]
      have hctb : t.ctb = (transmissionDone p cls (.frame id n len) rest s).ctb := by rw [hwhole]
      have hntu : t.ntu = (transmissionDone p cls (.frame id n len) rest s).ntu := by rw [hwhole]
      have henqueues : t.flight.enqueues = (transmissionDone p cls (.frame id n len) rest s).flight.enqueues := by
        rw [hwhole]
      refine ⟨t, hexec, by rw [hwhole], fun h => absurd h horigin, fun _ => ⟨?_, ?_, hrest, hothers, hselected, hports,
        fun h => ?_, fun h => ?_, ?_, ?_, ?_⟩⟩
      · unfold CounterRises State.counter at hframes ⊢
        rw [hctb, hframes]
      · unfold CounterRises State.counter at hbytes ⊢
        rw [hctb, hbytes]
        rfl
      · obtain ⟨hs, hc⟩ := transmissionEnded_last (p := p) (cls := cls) (rest := rest) (n := n) (len := len) hf h
        exact ⟨hstore.trans hs, hfree.trans hc⟩
      · obtain ⟨hs, hc⟩ := transmissionEnded_shared (p := p) (cls := cls) (rest := rest) (n := n) (len := len) hf h
        exact ⟨hstore.trans hs, hfree.trans hc⟩
      · have hsource : t.source 20 = (transmissionDone p cls (.frame id n len) rest s).source 20 := by
          unfold State.source
          rw [hntu]
        have hbefore : (transmissionEnded p cls (.frame id n len) rest s).fsq.reserve = s.fsq.reserve := by
          rw [hended]
          rfl
        rw [hsource, hlow]
        unfold poolLow
        rw [hfree, hreserve, hbefore]
      · have hflight : (transmissionEnded p cls (.frame id n len) rest s).flight = s.flight := by rw [hended]
        unfold HandsOnNotices at hhanded ⊢
        rw [henqueues, ← hflight]
        exact hhanded
      · rw [hctb, hntu, henqueues, hwhole, hrcn]
  · have hexec := exec_transmissionEnd p cls (.batch bytes) rest s hsending hentries
    have hended := transmissionEnded_frame p cls (.batch bytes) rest s
    obtain ⟨reports, -⟩ := transmissionCounted_effect p (.batch bytes) (transmissionEnded p cls (.batch bytes) rest s)
    obtain ⟨hframes, hbytes, -⟩ := transmissionDone_effect p cls (.batch bytes) rest s
    obtain ⟨hclear, hdue⟩ := batchTransmitted_effect (transmissionCounted p (.batch bytes)
      (transmissionEnded p cls (.batch bytes) rest s))
    have hexec : exec (.transmissionEnd p) s = .next (select p (transmissionDone p cls (.batch bytes) rest s)) := hexec
    generalize ht : select p (transmissionDone p cls (.batch bytes) rest s) = t at hexec
    obtain ⟨hselected, hrest, -, hports, hstore, hfree, -, hwhole⟩ :=
      transmissionDone_selected p cls (.batch bytes) rest ht.symm
    have hkept : (transmissionCounted p (.batch bytes) (transmissionEnded p cls (.batch bytes) rest s)).rcn = s.rcn := by
      rw [reports.rcn, hended]
    have hreleased : (transmissionEnded p cls (.batch bytes) rest s).fsq.store = s.fsq.store ∧
        (transmissionEnded p cls (.batch bytes) rest s).fsq.free = s.fsq.free := ⟨rfl, rfl⟩
    have hrcn : t.rcn = (batchTransmitted (transmissionCounted p (.batch bytes)
        (transmissionEnded p cls (.batch bytes) rest s))).rcn := by
      rw [hwhole]
      rfl
    have hctb : t.ctb = (transmissionDone p cls (.batch bytes) rest s).ctb := by rw [hwhole]
    generalize transmissionCounted p (.batch bytes) (transmissionEnded p cls (.batch bytes) rest s) = u at *
    rw [hkept, ← hrcn] at hclear hdue
    refine ⟨t, hexec, by rw [hwhole]; rfl, ?_, ?_, hrest, hselected, hports, hstore.trans hreleased.1,
      hfree.trans hreleased.2, fun h => ?_, hdue, ?_⟩
    · unfold CounterRises State.counter at hframes ⊢
      rw [hctb, hframes]
    · unfold CounterRises State.counter at hbytes ⊢
      rw [hctb, hbytes]
      rfl
    · obtain ⟨hentries, hstats, hreefers⟩ := hclear h
      exact ⟨fun law => hentries (law.congr hkept), hstats, hreefers⟩
    · rw [hwhole]

end Sys2Proof.Machine
end

section
/-! A link-down announcement at the queues of a port (R136, R147, R148, R174): O41. -/

namespace Sys2Proof.Machine

/-! ### A batch frame that was discarded (R136) -/

/-- A record of a lost batch is marked UNSENT (R136). -/
theorem markUnsent_eq (entries : List BatchEntry) (r : Reefer) : markUnsent entries r =
    { r with place := if r.place = .none ∧ r.sid ∈ entries.map (·.sid) then .unsent else r.place } := by
  have hany : entries.any (fun e => e.sid == r.sid) = true ↔ r.sid ∈ entries.map (·.sid) := by
    simp [List.any_eq_true, List.mem_map]
  unfold markUnsent
  by_cases h : r.place = .none ∧ r.sid ∈ entries.map (·.sid)
  · rw [if_pos ⟨h.1, hany.2 h.2⟩, if_pos h]
  · rw [if_neg fun g => h ⟨g.1, hany.1 g.2⟩, if_neg h]

/-- The end of the SENDING buffer as discarded (R136). -/
theorem batchDiscarded_effect (s : State) :
    (s.rcn.sendDue = false →
      (batchDiscarded s).rcn.stats =
        { s.rcn.stats with batchesDiscarded := min 4294967295 (s.rcn.stats.batchesDiscarded + 1) } ∧
      (BatchLaw s → (batchDiscarded s).rcn.sendingEntries = []) ∧
      (∀ j, Table.get (batchDiscarded s).rcn.reefers j = (Table.get s.rcn.reefers j).map (fun r => { r with
        place := if r.place = .none ∧ r.sid ∈ s.rcn.sendingEntries.map (·.sid) then .unsent else r.place })) ∧
      Told (discardSending s) (batchDiscarded s)) ∧
    (s.rcn.sendDue = true → (batchDiscarded s).rcn.sendDue = false ∧ (batchDiscarded s).rcn.filling.entries = []) := by
  have hdue : (discardSending s).rcn.sendDue = s.rcn.sendDue := Rcn.idleSending_sendDue s.rcn
  refine ⟨fun h => ?_, fun h => ?_⟩
  · have hkept := waitingSwap_of_clear (hdue.trans h)
    have told : Told (discardSending s) (batchDiscarded s) := by
      have hpresents : batchDiscarded s = presentBatchOverflow (discardSending s) :=
        if_neg (by rw [hdue, h]; exact Bool.false_ne_true)
      rw [hpresents]
      exact present_told ..
    refine ⟨by rw [batchDiscarded, hkept]; rfl, fun law => ?_, fun j => ?_, told⟩
    · rw [batchDiscarded, hkept]
      exact Rcn.idleSending_entries law
    · rw [batchDiscarded, hkept]
      refine (Table.get_mapValues ..).trans (congrArg (Option.map · _) (funext fun r => markUnsent_eq ..))
  · obtain ⟨hfilling, -, hclear, -⟩ := waitingSwap_of_due (hdue.trans h)
    exact ⟨hclear, congrArg Buffer.entries hfilling⟩

theorem batchDiscarded_frame (s : State) : BatchFrame s (batchDiscarded s) :=
  (BatchFrame.setRcn ..).trans (waitingSwap_frame _)

/-! ### The queues of a port emptied (R147) -/

theorem foldl_releaseEntry_frame (es : List Entry) (s : State) : es.foldl releaseEntry s =
    { s with fsq := { s.fsq with
      store := (es.foldl releaseEntry s).fsq.store, free := (es.foldl releaseEntry s).fsq.free } } := by
  induction es generalizing s with
  | nil => rfl
  | cons e es ih =>
    have first := releaseEntry_frame s e
    have rest := ih (releaseEntry s e)
    rw [List.foldl_cons]
    exact rest.trans (congrArg (fun w : State => { w with fsq := { w.fsq with
      store := (es.foldl releaseEntry (releaseEntry s e)).fsq.store
      free := (es.foldl releaseEntry (releaseEntry s e)).fsq.free } }) first)

theorem portEmptied_frame (p : Port) (s : State) : portEmptied p s =
    { s with fsq := { (s.setQueues p (s.queues p).emptied).fsq with
      store := (portEmptied p s).fsq.store, free := (portEmptied p s).fsq.free } } :=
  foldl_releaseEntry_frame (s.queues p).entries (s.setQueues p (s.queues p).emptied)

theorem portEmptied_queues (p q : Port) (s : State) :
    (portEmptied p s).queues q = if q = p then (s.queues p).emptied else s.queues q := by
  unfold State.queues
  rw [portEmptied_frame]
  exact State.queues_setQueues s p q _

@[simp] theorem PortQueues.emptied_limit (x : PortQueues) (cls : QClass) :
    (x.emptied.get cls).limit = (x.get cls).limit := by cases cls <;> rfl

/-! ### The counts of a discard (R147) -/

/-- A number of frames is counted as port down and under a counter of their port. -/
def dropsCounted (p : Port) (c : Fin 12) (n : Nat) (s : State) : State := bump p c n (addDrop 9 n s)

theorem discardCounted_eq (p : Port) (aborted others : Nat) (s : State) : discardCounted p aborted others s =
    dropsCounted p 10 others (dropsCounted p 11 aborted (presentPoolLow s)) := rfl

section Counted

variable (p : Port) (c : Fin 12) (n : Nat) (s : State)

theorem dropsCounted_told : ReportsOnly s (dropsCounted p c n s) ∧ HandsOnNotices s (dropsCounted p c n s) ∧
    (dropsCounted p c n s).ntu.dest = s.ntu.dest := by
  obtain ⟨-, -, hdest, -⟩ := countPort_ctb p c n (addDrop 9 n s)
  have noted := bump_noted p c n (addDrop 9 n s)
  exact ⟨(addDrop_reportsOnly 9 n s).trans (bump_reportsOnly ..), bump_handed p c n (addDrop 9 n s),
    noted.dest.1.trans hdest⟩

variable {s}

/-- Where no notice frame is lost, such drops are counted as they are. -/
theorem dropsCounted_counts (out : NoticesGoOut s) :
    (dropsCounted p c n s).ctb.drops.get 9 = min 4294967295 (s.ctb.drops.get 9 + n) ∧
    CounterRises p c n s (dropsCounted p c n s) ∧
    ∀ k, k ≠ c → (dropsCounted p c n s).counter p k = s.counter p k := by
  obtain ⟨hdrops, -⟩ := countPort_ctb p c n (addDrop 9 n s)
  obtain ⟨hctb, -⟩ := bump_ctb p c n (addDrop 9 n s) (.inl (out.congr rfl rfl))
  have hcounter (k : Fin 12) : (dropsCounted p c n s).counter p k = (countPort p c n (addDrop 9 n s)).1.counter p k :=
    congrArg (fun x : Ctb => (x.ports.get p).get k) hctb
  refine ⟨?_, ?_, fun k hk => ?_⟩
  · rw [dropsCounted, hctb, hdrops, addDrop_drops, if_pos rfl]
  · unfold CounterRises
    rw [hcounter, countPort_counter, if_pos ⟨rfl, rfl⟩, addDrop_counter]
  · rw [hcounter, countPort_counter, if_neg fun h => hk h.1, addDrop_counter]

variable (aborted others : Nat) (s)

theorem discardCounted_told : ReportsOnly s (discardCounted p aborted others s) ∧
    HandsOnNotices s (discardCounted p aborted others s) ∧
    (discardCounted p aborted others s).ntu.dest = s.ntu.dest := by
  have presented : Told s (presentPoolLow s) := present_told ..
  obtain ⟨areports, ahanded, adest⟩ := dropsCounted_told p 11 aborted (presentPoolLow s)
  obtain ⟨breports, bhanded, bdest⟩ := dropsCounted_told p 10 others (dropsCounted p 11 aborted (presentPoolLow s))
  rw [discardCounted_eq]
  exact ⟨(presented.frame.trans areports).trans breports, (presented.handed.trans ahanded).trans bhanded,
    bdest.trans (adest.trans presented.dest)⟩

variable {s}

/-- Where no notice frame is lost, a discard is counted as it is (R147, R164, R165). -/
theorem discardCounted_counts (out : NoticesGoOut s) :
    DropRises 9 (aborted + others) s (discardCounted p aborted others s) ∧
    CounterRises p 11 aborted s (discardCounted p aborted others s) ∧
    CounterRises p 10 others s (discardCounted p aborted others s) := by
  have presented : Told s (presentPoolLow s) := present_told ..
  have hctb := presented.counts out
  have started (k : Fin 12) : (presentPoolLow s).counter p k = s.counter p k :=
    congrArg (fun x : Ctb => (x.ports.get p).get k) hctb
  obtain ⟨areports, -, adest⟩ := dropsCounted_told p 11 aborted (presentPoolLow s)
  obtain ⟨adrops, acounter, aothers⟩ := dropsCounted_counts p 11 aborted (presented.goOut out)
  obtain ⟨bdrops, bcounter, bothers⟩ := dropsCounted_counts p 10 others
    ((presented.goOut out).congr adest areports.ports)
  rw [discardCounted_eq]
  unfold DropRises CounterRises at *
  rw [bdrops, adrops, bothers 11 (by decide), acounter, bcounter, aothers 10 (by decide), started, started, hctb]
  refine ⟨?_, rfl, rfl⟩
  omega

end Counted

/-! ### O41 -/

section Discarded

variable (p : Port) (s : State)

/-- The port's queues emptied and the discards counted (R147). -/
def portCounted : State :=
  discardCounted p (abortedAt p s) ((s.queues p).entries.length - abortedAt p s) (portEmptied p s)

/-- The part after a discard of a port's queues, before a soft restart (R136, R147). -/
def portDiscarded : State :=
  if (s.queues p).entries.any Entry.isBatch then batchDiscarded (portCounted p s) else portCounted p s

theorem discardPort_cases : discardPort p s =
    if (s.queues p).entries.any (isRestartReply s) then softRestart (portDiscarded p s) else portDiscarded p s := rfl

theorem portDiscarded_batch (h : ∃ x ∈ (s.queues p).entries, x.isBatch = true) :
    portDiscarded p s = batchDiscarded (portCounted p s) := if_pos (List.any_eq_true.2 h)

theorem portDiscarded_plain (h : ¬∃ x ∈ (s.queues p).entries, x.isBatch = true) :
    portDiscarded p s = portCounted p s := if_neg fun g => h (List.any_eq_true.1 g)

theorem portCounted_rcn : (portCounted p s).rcn = s.rcn := by
  obtain ⟨reports, -, -⟩ := discardCounted_told p (portEmptied p s) (abortedAt p s)
    ((s.queues p).entries.length - abortedAt p s)
  rw [portCounted, reports.rcn, portEmptied_frame]

/-- A discard changes the port's queues, the cells, and what the counts and the batch buffers change. -/
theorem portDiscarded_frame : portDiscarded p s = { s with
    rcn := (portDiscarded p s).rcn, fsq := (portEmptied p s).fsq
    ntu := (portDiscarded p s).ntu, ctb := (portDiscarded p s).ctb
    flight := { s.flight with enqueues := (portDiscarded p s).flight.enqueues } } := by
  have emptied := portEmptied_frame p s
  obtain ⟨reports, -, -⟩ := discardCounted_told p (portEmptied p s) (abortedAt p s)
    ((s.queues p).entries.length - abortedAt p s)
  have counted : BatchFrame (portEmptied p s) (portCounted p s) := BatchFrame.reports (.refl _) reports
  have done : BatchFrame (portEmptied p s) (portDiscarded p s) := by
    by_cases h : ∃ x ∈ (s.queues p).entries, x.isBatch = true
    · rw [portDiscarded_batch p s h]
      exact counted.trans (batchDiscarded_frame _)
    · rw [portDiscarded_plain p s h]
      exact counted
  unfold BatchFrame at done
  have hemptied : portEmptied p s = { s with fsq := (portEmptied p s).fsq } := by
    rw [emptied]
  exact done.trans (congrArg (fun w : State => { w with
    rcn := (portDiscarded p s).rcn, ntu := (portDiscarded p s).ntu, ctb := (portDiscarded p s).ctb
    flight := { w.flight with enqueues := (portDiscarded p s).flight.enqueues } }) hemptied)

theorem portDiscarded_queues (q : Port) :
    (portDiscarded p s).queues q = if q = p then (s.queues p).emptied else s.queues q := by
  rw [← portEmptied_queues p q s]
  unfold State.queues
  rw [portDiscarded_frame]

variable {s}

/-- Where no notice frame is lost, a discard without a swap is counted as it is (R147). -/
theorem portDiscarded_counts
    (quiet : (¬∃ x ∈ (s.queues p).entries, x.isBatch = true) ∨ s.rcn.sendDue = false) (out : NoticesGoOut s) :
    NoticesGoOut (portDiscarded p s) ∧
    DropRises 9 (abortedAt p s + ((s.queues p).entries.length - abortedAt p s)) s (portDiscarded p s) ∧
    CounterRises p 11 (abortedAt p s) s (portDiscarded p s) ∧
    CounterRises p 10 ((s.queues p).entries.length - abortedAt p s) s (portDiscarded p s) := by
  have hemptied := portEmptied_frame p s
  have outEmptied : NoticesGoOut (portEmptied p s) := out.congr (by rw [hemptied]) (by rw [hemptied])
  have hctb : (portEmptied p s).ctb = s.ctb := by
    rw [hemptied]
  obtain ⟨reports, -, hdest⟩ := discardCounted_told p (portEmptied p s) (abortedAt p s)
    ((s.queues p).entries.length - abortedAt p s)
  have outCounted : NoticesGoOut (portCounted p s) := outEmptied.congr hdest reports.ports
  have counts := discardCounted_counts p (abortedAt p s) ((s.queues p).entries.length - abortedAt p s) outEmptied
  have hkept : NoticesGoOut (portDiscarded p s) ∧ (portDiscarded p s).ctb = (portCounted p s).ctb := by
    by_cases h : ∃ x ∈ (s.queues p).entries, x.isBatch = true
    · have hdue := quiet.resolve_left (not_not_intro h)
      rw [← portCounted_rcn p s] at hdue
      obtain ⟨-, -, -, told⟩ := (batchDiscarded_effect (portCounted p s)).1 hdue
      have outBatch : NoticesGoOut (discardSending (portCounted p s)) := outCounted.congr rfl rfl
      rw [portDiscarded_batch p s h]
      exact ⟨told.goOut outBatch, told.counts outBatch⟩
    · rw [portDiscarded_plain p s h]
      exact ⟨outCounted, rfl⟩
  refine ⟨hkept.1, ?_⟩
  unfold DropRises CounterRises State.counter at *
  rw [hkept.2]
  rw [hctb] at counts
  exact counts

end Discarded

/-- A soft restart after which no notice frame is lost leaves the counts of a port whose transmitter is IDLE. -/
theorem softRestart_counts_kept {s : State} (out : NoticesGoOut s) {p : Port} (h : (s.queues p).sending = none) :
    (softRestart s).ctb.drops.get 9 = s.ctb.drops.get 9 ∧ (softRestart s).counter p 11 = s.counter p 11 ∧
      (softRestart s).counter p 10 = s.counter p 10 := by
  have hctb : (softRestart s).ctb = (restartCounted s).ctb := by rw [softRestart_eq]
  have counts := restartCounted_counts s
  obtain ⟨hcounters, hdrop, -⟩ := counts.lossless (.inr out)
  have haborted := counts.kept p (.inr h)
  have hdiscards := hcounters p
  unfold State.counter at *
  rw [hctb]
  exact ⟨hdrop, haborted, hdiscards⟩

/-- The link-down announcement of a port is taken. -/
def linkDownTaken (p : Port) (s : State) : State :=
  s.setFlight { s.flight with queueDowns := s.flight.queueDowns.erase p }

theorem abortedAt_linkDownTaken (p : Port) (s : State) :
    (if (s.queues p).sending = none then 0 else 1) = abortedAt p (linkDownTaken p s) := by
  unfold abortedAt
  show _ = if (s.queues p).sending.isSome then 1 else 0
  cases (s.queues p).sending <;> rfl

/-- Settles O41: the port is emptied and counted, and a batch entry or the RESTART's reply has its effect. -/
theorem linkDownDiscardsTheQueues : Obligations.LinkDownDiscardsTheQueues := by
  intro p s hp entries aborted batch restart
  have hexec : exec (.fsqLinkDown p) s = .next (discardPort p (linkDownTaken p s)) := by
    show execFsqLinkDown p s = _
    rw [execFsqLinkDown, if_pos hp]
    rfl
  have haborted : aborted = abortedAt p (linkDownTaken p s) := abortedAt_linkDownTaken p s
  have hentries : entries = ((linkDownTaken p s).queues p).entries := rfl
  have hwhole := portDiscarded_frame p (linkDownTaken p s)
  have hqueues := portDiscarded_queues p (linkDownTaken p s)
  have hself := hqueues p
  rw [if_pos rfl] at hself
  have hcounts : (¬batch ∨ s.rcn.sendDue = false) → NoticesGoOut s → aborted ≤ entries.length →
      NoticesGoOut (portDiscarded p (linkDownTaken p s)) ∧
      DropRises 9 entries.length s (portDiscarded p (linkDownTaken p s)) ∧
      CounterRises p 11 aborted s (portDiscarded p (linkDownTaken p s)) ∧
      CounterRises p 10 (entries.length - aborted) s (portDiscarded p (linkDownTaken p s)) := by
    intro quiet out hle
    have counts := portDiscarded_counts p (s := linkDownTaken p s) quiet (out.congr rfl rfl)
    rw [← haborted, ← hentries, Nat.add_sub_cancel' hle] at counts
    exact counts
  have hreply : isRestartReply (linkDownTaken p s) = isRestartReply s := rfl
  rw [discardPort_cases, ← hentries, hreply] at hexec
  by_cases hrestart : restart
  · rw [if_pos (List.any_eq_true.2 hrestart)] at hexec
    have hrestarts : (portDiscarded p (linkDownTaken p s)).restarts = s.restarts := by
      rw [hwhole]
      rfl
    have hidle : ((portDiscarded p (linkDownTaken p s)).queues p).sending = none := by
      rw [hself]
      rfl
    obtain ⟨hsending, hempty⟩ := softRestart_silent (portDiscarded p (linkDownTaken p s)) p
    refine ⟨_, hexec, hempty, hsending, fun cls => ?_, fun quiet out hle => ?_, fun h => absurd hrestart h,
      fun _ => ⟨rfl, ?_, rfl, rfl, fun q => (softRestart_silent _ q).symm⟩⟩
    · rw [softRestart_queues, hself]
      cases cls <;> rfl
    · obtain ⟨outAfter, hdrops, h11, h10⟩ := hcounts quiet out hle
      obtain ⟨kdrops, k11, k10⟩ := softRestart_counts_kept outAfter hidle
      unfold DropRises CounterRises at *
      rw [kdrops, k11, k10]
      exact ⟨hdrops, h11, h10⟩
    · rw [← hrestarts]
      rfl
  · rw [if_neg fun h => hrestart (List.any_eq_true.1 h)] at hexec
    refine ⟨_, hexec, by rw [hself]; rfl, by rw [hself]; rfl, fun cls => ?_,
      fun quiet out hle => (hcounts quiet out hle).2, fun _ => ⟨fun q hq => ?_, fun h => ⟨?_, ?_⟩, fun h hdue => ?_,
      fun h hdue => ?_, ?_⟩, fun h => absurd h hrestart⟩
    · rw [hself, PortQueues.emptied_limit]
      rfl
    · rw [hqueues, if_neg hq]
      rfl
    · rw [portDiscarded_plain p (linkDownTaken p s) h]
      exact portCounted_rcn ..
    · have hflight : (portEmptied p (linkDownTaken p s)).flight = (linkDownTaken p s).flight := by
        rw [portEmptied_frame]
      obtain ⟨-, handed, -⟩ := discardCounted_told p (portEmptied p (linkDownTaken p s))
        (abortedAt p (linkDownTaken p s)) (((linkDownTaken p s).queues p).entries.length - abortedAt p (linkDownTaken p s))
      rw [portDiscarded_plain p (linkDownTaken p s) h]
      unfold HandsOnNotices at handed ⊢
      rw [hflight] at handed
      exact handed
    · have hkept := portCounted_rcn p (linkDownTaken p s)
      have hdue' : (portCounted p (linkDownTaken p s)).rcn.sendDue = false := by
        rw [hkept]
        exact hdue
      obtain ⟨hstats, hlaw, hreefers, -⟩ := (batchDiscarded_effect (portCounted p (linkDownTaken p s))).1 hdue'
      rw [portDiscarded_batch p (linkDownTaken p s) h]
      rw [hkept] at hstats hreefers
      exact ⟨hstats, fun law => hlaw (law.congr hkept), hreefers⟩
    · have hdue' : (portCounted p (linkDownTaken p s)).rcn.sendDue = true := by
        rw [portCounted_rcn]
        exact hdue
      rw [portDiscarded_batch p (linkDownTaken p s) h]
      exact (batchDiscarded_effect (portCounted p (linkDownTaken p s))).2 hdue'
    · have hfsq : (portDiscarded p (linkDownTaken p s)).fsq = (portEmptied p (linkDownTaken p s)).fsq :=
        (congrArg State.fsq hwhole :)
      rw [hfsq]
      exact hwhole

end Sys2Proof.Machine
end

section
/-! The refusals of an enqueue and their counts (R141, R164, R165): O39. -/

namespace Sys2Proof.Machine

/-! ### What a refusal counts -/

/-- The drop reason under which a refusal is counted (R141). -/
def Admission.drop : Admission → Option (Fin 20)
  | .admitted => none
  | .portDown => some 9
  | .serviceMode => some 6
  | .queueFull => some 8

/-- The counter of its port under which a refusal is counted (R141). -/
def Admission.counter : Admission → Option (Fin 12)
  | .admitted | .serviceMode => none
  | .portDown => some 10
  | .queueFull => some 9

theorem Admission.drop_eq (a : Admission) : (a.drop == some 6) = (a == .serviceMode) ∧
    (a.drop == some 8) = (a == .queueFull) ∧ (a.drop == some 9) = (a == .portDown) := by
  cases a <;> decide

theorem Admission.counter_eq (a : Admission) : (a.counter == some 9) = (a == .queueFull) ∧
    (a.counter == some 10) = (a == .portDown) := by
  cases a <;> decide

/-- The judgement of a queue was counted: under its drop reason and its port's counter, and nowhere else but where a lost
notice frame is counted. -/
structure RefusalCounted (p : Port) (a : Admission) (s t : State) : Prop where
  drop : ∀ c, c ≠ 9 ∨ NoticesGoOut s → a.drop = some c → DropRises c 1 s t
  drops : ∀ c, c ≠ 9 ∨ NoticesGoOut s → a.drop ≠ some c → t.ctb.drops.get c = s.ctb.drops.get c
  counter : ∀ c, c ≠ 10 ∨ NoticesGoOut s → a.counter = some c → CounterRises p c 1 s t
  counters : ∀ q c, c ≠ 10 ∨ NoticesGoOut s → ¬(q = p ∧ a.counter = some c) → t.counter q c = s.counter q c
  handed : HandsOnNotices s t
  frame : ReportsOnly s t
  dest : t.ntu.dest = s.ntu.dest
  enqueued : t.ntu.enqueued = s.ntu.enqueued
  lost : NoticesGoOut s → t.ntu.lost = s.ntu.lost

/-- A counter that rises changes the statistics of the notices only where a notice frame is lost. -/
theorem bump_statistics (p : Port) (c : Fin 12) (n : Nat) (s : State) :
    (bump p c n s).ntu.dest = s.ntu.dest ∧ (bump p c n s).ntu.enqueued = s.ntu.enqueued ∧
      (NoticesGoOut s → (bump p c n s).ntu.lost = s.ntu.lost ∧ (bump p c n s).ctb.drops = s.ctb.drops ∧
        ∀ q k, ¬(k = c ∧ q = p) → (bump p c n s).counter q k = s.counter q k) := by
  obtain ⟨hdrops, -, hdest, henqueued, -⟩ := countPort_ctb p c n s
  obtain ⟨ndest, nenqueued⟩ := (bump_noted p c n s).dest
  refine ⟨ndest.trans hdest, nenqueued.trans henqueued, fun out => ?_⟩
  obtain ⟨hctb, hntu⟩ := bump_ctb p c n s (.inl out)
  have hlost : (countPort p c n s).1.ntu.lost = s.ntu.lost := by
    simp only [countPort]
    split <;> rfl
  refine ⟨by rw [hntu, hlost], by rw [hctb, hdrops], fun q k hne => ?_⟩
  have hcounter : (bump p c n s).counter q k = (countPort p c n s).1.counter q k :=
    congrArg (fun x : Ctb => (x.ports.get q).get k) hctb
  rw [hcounter, countPort_counter, if_neg hne]

theorem countRefusal_portDown (d : Port × QClass) (s : State) :
    RefusalCounted d.1 .portDown s (countRefusal d .portDown s) := by
  have dropped := portDownDrop_droppedPortDown d.1 s
  obtain ⟨-, henqueued, hlost⟩ := bump_statistics d.1 10 1 (addDrop 9 1 s)
  show RefusalCounted d.1 .portDown s (portDownDrop d.1 s)
  refine ⟨fun c h hc => ?_, fun c _ hne => ?_, fun c h hc => ?_, fun q c h hne => ?_, dropped.handed, dropped.frame,
    dropped.dest, henqueued, fun out => (hlost (out.congr rfl rfl)).1⟩
  · cases hc
    exact (dropped.counts (.inl (h.resolve_left (not_not_intro rfl)))).2.1
  · exact dropped.drops c fun h => hne (by rw [h]; rfl)
  · cases hc
    exact (dropped.counts (.inl (h.resolve_left (not_not_intro rfl)))).1
  · by_cases hc : c = 10
    · subst hc
      exact (dropped.counts (.inl (h.resolve_left (not_not_intro rfl)))).2.2 q fun hq => hne ⟨hq, rfl⟩
    · exact dropped.counters q c hc

theorem countRefusal_serviceMode (d : Port × QClass) (s : State) :
    RefusalCounted d.1 .serviceMode s (countRefusal d .serviceMode s) := by
  have counted := countsDrop_none d.1 6 s
  show RefusalCounted d.1 .serviceMode s (addDrop 6 1 s)
  refine ⟨fun c _ hc => ?_, fun c _ hne => ?_, fun c _ hc => (nomatch hc), fun q c _ _ => rfl, counted.handed,
    counted.frame, rfl, rfl, fun _ => rfl⟩
  · cases hc
    exact counted.reason
  · rw [addDrop_drops, if_neg fun h => hne (by rw [h]; rfl)]

theorem countRefusal_queueFull (d : Port × QClass) (s : State) :
    RefusalCounted d.1 .queueFull s (countRefusal d .queueFull s) := by
  have counted := countsDrop_some d.1 9 8 s (by decide) (by decide)
  obtain ⟨hdest, henqueued, hquiet⟩ := bump_statistics d.1 9 1 (addDrop 8 1 s)
  show RefusalCounted d.1 .queueFull s (bump d.1 9 1 (addDrop 8 1 s))
  refine ⟨fun c _ hc => ?_, fun c h hne => ?_, fun c _ hc => ?_, fun q c h hne => ?_, counted.handed, counted.frame,
    hdest, henqueued, fun out => (hquiet (out.congr rfl rfl)).1⟩
  · cases hc
    exact counted.reason
  · have hc8 : c ≠ 8 := fun h => hne (by rw [h]; rfl)
    by_cases hc : c = 9
    · have out : NoticesGoOut (addDrop 8 1 s) := (h.resolve_left (not_not_intro hc)).congr rfl rfl
      obtain ⟨-, hdrops, -⟩ := hquiet out
      rw [hdrops, addDrop_drops, if_neg hc8]
    · exact counted.drops c hc8 hc
  · cases hc
    exact counted.port 9 rfl
  · have hother : ¬(c = 9 ∧ q = d.1) := fun h => hne ⟨h.2, by rw [h.1]; rfl⟩
    by_cases hc : c = 10
    · have out : NoticesGoOut (addDrop 8 1 s) := (h.resolve_left (not_not_intro hc)).congr rfl rfl
      obtain ⟨-, -, hcounters⟩ := hquiet out
      exact hcounters q c hother
    · exact (bump_counter_of_ne 1 _ hc hother).trans rfl

theorem countRefusal_counted (d : Port × QClass) (a : Admission) (s : State) :
    RefusalCounted d.1 a s (countRefusal d a s) := by
  cases a with
  | admitted => exact ⟨(nomatch ·, ·, ·), fun _ _ _ => rfl, fun _ _ h => (nomatch h), fun _ _ _ _ => rfl, .refl s, .refl s,
      rfl, rfl, fun _ => rfl⟩
  | portDown => exact countRefusal_portDown d s
  | serviceMode => exact countRefusal_serviceMode d s
  | queueFull => exact countRefusal_queueFull d s

/-! ### The judgements of an enqueue, counted in turn -/

/-- The judgements of some queues were counted, each as `RefusalCounted` says. -/
structure RefusalsCounted (j : Port × QClass → Admission) (ds : List (Port × QClass)) (s t : State) : Prop where
  drops : ∀ c, c ≠ 9 ∨ NoticesGoOut s → DropRisesBy c (ds.countP fun d => (j d).drop == some c) s t
  counters : ∀ p c, c ≠ 10 ∨ NoticesGoOut s →
    CounterRisesBy p c (ds.countP fun d => d.1 == p && (j d).counter == some c) s t
  handed : HandsOnNotices s t
  frame : ReportsOnly s t
  dest : t.ntu.dest = s.ntu.dest
  enqueued : t.ntu.enqueued = s.ntu.enqueued
  lost : NoticesGoOut s → t.ntu.lost = s.ntu.lost

theorem RefusalsCounted.nil (j : Port × QClass → Admission) (s : State) : RefusalsCounted j [] s s :=
  ⟨fun _ _ => ⟨fun _ => rfl, fun h => absurd rfl h⟩, fun _ _ _ => ⟨fun _ => rfl, fun h => absurd rfl h⟩, .refl s, .refl s,
    rfl, rfl, fun _ => rfl⟩

theorem RefusalsCounted.cons {j : Port × QClass → Admission} {d : Port × QClass} {ds : List (Port × QClass)}
    {s u t : State} (first : RefusalCounted d.1 (j d) s u) (rest : RefusalsCounted j ds u t) :
    RefusalsCounted j (d :: ds) s t := by
  have goes (out : NoticesGoOut s) : NoticesGoOut u := out.congr first.dest first.frame.ports
  refine ⟨fun c h => ?_, fun p c h => ?_, first.handed.trans rest.handed, first.frame.trans rest.frame,
    rest.dest.trans first.dest, rest.enqueued.trans first.enqueued,
    fun out => (rest.lost (goes out)).trans (first.lost out)⟩
  · have later := rest.drops c (h.imp_right goes)
    by_cases hd : (j d).drop = some c
    · rw [List.countP_cons_of_pos (by simp [hd])]
      exact .after (first.drop c h hd) later
    · rw [List.countP_cons_of_neg (by simp [hd])]
      unfold DropRisesBy DropRises at later ⊢
      rwa [first.drops c h hd] at later
  · have later := rest.counters p c (h.imp_right goes)
    by_cases hd : p = d.1 ∧ (j d).counter = some c
    · rw [List.countP_cons_of_pos (by simp [hd])]
      obtain ⟨rfl, hcounter⟩ := hd
      exact .after (first.counter c h hcounter) later
    · have hneg : ¬(d.1 == p && (j d).counter == some c) = true := by
        rw [Bool.and_eq_true, beq_iff_eq, beq_iff_eq]
        exact fun h => hd ⟨h.1.symm, h.2⟩
      rw [List.countP_cons_of_neg (p := fun d => d.1 == p && (j d).counter == some c) hneg]
      unfold CounterRisesBy CounterRises at later ⊢
      rwa [first.counters p c h hd] at later

theorem foldl_countRefusal (j : Port × QClass → Admission) (ds : List (Port × QClass)) (s : State) :
    RefusalsCounted j ds s (ds.foldl (fun t d => countRefusal d (j d) t) s) := by
  induction ds generalizing s with
  | nil => exact .nil j s
  | cons d ds ih => exact .cons (countRefusal_counted d (j d) s) (ih _)

section Read

variable {j : Port × QClass → Admission} {ds : List (Port × QClass)} {s t : State} (h : RefusalsCounted j ds s t)
include h

theorem RefusalsCounted.serviceMode : DropRisesBy 6 (ds.countP fun d => j d == .serviceMode) s t := by
  have counted := h.drops 6 (.inl (by decide))
  simpa only [(Admission.drop_eq _).1] using counted

theorem RefusalsCounted.queueFull : DropRisesBy 8 (ds.countP fun d => j d == .queueFull) s t := by
  have counted := h.drops 8 (.inl (by decide))
  simpa only [(Admission.drop_eq _).2.1] using counted

theorem RefusalsCounted.portDown (out : NoticesGoOut s) : DropRisesBy 9 (ds.countP fun d => j d == .portDown) s t := by
  have counted := h.drops 9 (.inr out)
  simpa only [(Admission.drop_eq _).2.2] using counted

theorem RefusalsCounted.queueFullAt (p : Port) :
    CounterRisesBy p 9 (ds.countP fun d => d.1 == p && j d == .queueFull) s t := by
  have counted := h.counters p 9 (.inl (by decide))
  simpa only [(Admission.counter_eq _).1] using counted

theorem RefusalsCounted.portDownAt (p : Port) (out : NoticesGoOut s) :
    CounterRisesBy p 10 (ds.countP fun d => d.1 == p && j d == .portDown) s t := by
  have counted := h.counters p 10 (.inr out)
  simpa only [(Admission.counter_eq _).2] using counted

theorem RefusalsCounted.otherDrops {c : Fin 20} (h6 : c ≠ 6) (h8 : c ≠ 8) (h9 : c ≠ 9) :
    t.ctb.drops.get c = s.ctb.drops.get c := by
  refine (h.drops c (.inl h9)).1 (List.countP_eq_zero.2 fun d _ => ?_)
  cases j d <;> simp [Admission.drop, h6.symm, h8.symm, h9.symm]

theorem RefusalsCounted.otherCounters (p : Port) {c : Fin 12} (h9 : c ≠ 9) (h10 : c ≠ 10) :
    t.counter p c = s.counter p c := by
  refine (h.counters p c (.inl h10)).1 (List.countP_eq_zero.2 fun d _ => ?_)
  cases j d <;> simp [Admission.counter, h9.symm, h10.symm]

end Read

end Sys2Proof.Machine
end

section
/-! An enqueue: the frame stored once for its admitting queues, and the selections that follow (R138, R141 to R144):
O39. -/

namespace Sys2Proof.Machine

/-! ### Entries added at the tails of queues (R141) -/

section Pushes

variable (e : Entry) (ds : List (Port × QClass)) (s : State)

theorem foldl_pushEntry_frame :
    ds.foldl (pushEntry e) s = { s with fsq := { s.fsq with ports := (ds.foldl (pushEntry e) s).fsq.ports } } := by
  induction ds generalizing s with
  | nil => rfl
  | cons d ds ih => exact ih (pushEntry e s d)

theorem pushEntry_queues (d : Port × QClass) (p : Port) (cls : QClass) :
    ((pushEntry e s d).queues p).get cls = { (s.queues p).get cls with
      entries := ((s.queues p).get cls).entries ++ List.replicate ([d].count (p, cls)) e } ∧
    ((pushEntry e s d).queues p).sending = (s.queues p).sending ∧
    ((pushEntry e s d).queues p).turn = (s.queues p).turn ∧
    ((pushEntry e s d).queues p).served = (s.queues p).served ∧
    ((pushEntry e s d).queues p).weightB = (s.queues p).weightB ∧
    ((pushEntry e s d).queues p).weightD = (s.queues p).weightD := by
  obtain ⟨q, k⟩ := d
  unfold pushEntry
  dsimp only
  rw [State.queues_setQueues]
  by_cases hp : p = q
  · subst hp
    rw [if_pos rfl, PortQueues.get_set]
    by_cases hk : cls = k
    · subst hk
      cases cls <;> simp [PortQueues.set]
    · have hne : (p, k) ≠ (p, cls) := fun h => hk (Prod.mk.inj h).2.symm
      rw [if_neg hk, List.count_singleton, if_neg (by simpa using hne)]
      cases k <;> simp [PortQueues.set]
  · have hne : (q, k) ≠ (p, cls) := fun h => hp (Prod.mk.inj h).1.symm
    rw [if_neg hp, List.count_singleton, if_neg (by simpa using hne)]
    simp

/-- Each queue gains an entry for each time it is named, and nothing else of its port changes. -/
theorem foldl_pushEntry_queues (p : Port) :
    (∀ cls, ((ds.foldl (pushEntry e) s).queues p).get cls = { (s.queues p).get cls with
      entries := ((s.queues p).get cls).entries ++ List.replicate (ds.count (p, cls)) e }) ∧
    ((ds.foldl (pushEntry e) s).queues p).sending = (s.queues p).sending ∧
    ((ds.foldl (pushEntry e) s).queues p).turn = (s.queues p).turn ∧
    ((ds.foldl (pushEntry e) s).queues p).served = (s.queues p).served ∧
    ((ds.foldl (pushEntry e) s).queues p).weightB = (s.queues p).weightB ∧
    ((ds.foldl (pushEntry e) s).queues p).weightD = (s.queues p).weightD := by
  induction ds generalizing s with
  | nil => exact ⟨fun cls => by simp, rfl, rfl, rfl, rfl, rfl⟩
  | cons d ds ih =>
    obtain ⟨-, hsending, hturn, hserved, hb, hd⟩ := pushEntry_queues e s d p .c
    obtain ⟨rget, rsending, rturn, rserved, rb, rd⟩ := ih (pushEntry e s d)
    refine ⟨fun cls => ?_, rsending.trans hsending, rturn.trans hturn, rserved.trans hserved, rb.trans hb, rd.trans hd⟩
    have hcount : (d :: ds).count (p, cls) = [d].count (p, cls) + ds.count (p, cls) := List.count_append (l₁ := [d])
    rw [List.foldl_cons, rget cls, (pushEntry_queues e s d p cls).1, hcount, List.replicate_add, List.append_assoc]

theorem foldl_pushEntry_of_unnamed {p : Port} (hp : p ∉ ds.map Prod.fst) :
    (ds.foldl (pushEntry e) s).queues p = s.queues p := by
  induction ds generalizing s with
  | nil => rfl
  | cons d ds ih =>
    obtain ⟨hne, hrest⟩ := not_or.1 fun h => hp (List.mem_cons.2 h)
    exact (ih (pushEntry e s d) hrest).trans (State.queues_setQueues_of_ne _ _ hne)

/-- What the entries added make of the queues turns on the queues alone. -/
theorem foldl_pushEntry_congr {t : State} (h : t.fsq.ports = s.fsq.ports) :
    (ds.foldl (pushEntry e) t).fsq.ports = (ds.foldl (pushEntry e) s).fsq.ports := by
  induction ds generalizing s t with
  | nil => exact h
  | cons d ds ih =>
    refine ih _ ?_
    unfold pushEntry State.setQueues State.queues
    dsimp only [State.setFsq]
    rw [h]

end Pushes

/-! ### The selections of some ports (R144) -/

theorem shaperBucket_port {p q : Port} {k cls : QClass} (h : shaperBucket p k = shaperBucket q cls) : p = q := by
  have hcode (k : QClass) : k.code < 4 := by cases k <;> decide
  have hval : 81 + p.val * 4 + k.code = 81 + q.val * 4 + cls.code := congrArg Fin.val h
  have := hcode k
  have := hcode cls
  exact Fin.ext (by omega)

/-- A second selection of a port changes nothing. -/
theorem select_select (p : Port) (s : State) : select p (select p s) = select p s := by
  obtain h | ⟨cls, x, -, h⟩ := select_cases p s
  · rw [h, h]
  · refine select_idle (.inl ?_)
    have hqueues : (select p s).queues p = { x with sending := some cls } := by
      rw [h, chargeShaper_frame]
      exact State.queues_setQueues_self ..
    rw [hqueues]
    exact Option.some_ne_none cls

/-- Some ports make selections, each from its own queues and buckets. -/
theorem foldl_select (ds : List (Port × QClass)) (s : State) :
    (∀ p, p ∈ ds.map Prod.fst → (ds.foldl (fun t d => select d.1 t) s).queues p = (select p s).queues p ∧
      ∀ cls, (ds.foldl (fun t d => select d.1 t) s).bucket (shaperBucket p cls) =
        (select p s).bucket (shaperBucket p cls)) ∧
    (∀ p, p ∉ ds.map Prod.fst → (ds.foldl (fun t d => select d.1 t) s).queues p = s.queues p) ∧
    (∀ b, (∀ p cls, p ∈ ds.map Prod.fst → b ≠ shaperBucket p cls) →
      (ds.foldl (fun t d => select d.1 t) s).bucket b = s.bucket b) ∧
    (∀ p cls, ((ds.foldl (fun t d => select d.1 t) s).queues p).get cls = (s.queues p).get cls) ∧
    ds.foldl (fun t d => select d.1 t) s = { s with fsq := { s.fsq with
      ports := (ds.foldl (fun t d => select d.1 t) s).fsq.ports
      buckets := (ds.foldl (fun t d => select d.1 t) s).fsq.buckets } } := by
  induction ds generalizing s with
  | nil => exact ⟨fun _ h => (nomatch h), fun _ _ => rfl, fun _ _ => rfl, fun _ _ => rfl, rfl⟩
  | cons d ds ih =>
    obtain ⟨hnamed, hunnamed, hbucket, hget, hframe⟩ := ih (select d.1 s)
    have hfirst := select_frame d.1 s
    have hports : (select d.1 s).ports = s.ports := by rw [hfirst]
    simp only [List.foldl_cons, List.map_cons]
    generalize ds.foldl (fun t d => select d.1 t) (select d.1 s) = t at *
    refine ⟨fun p hp => ?_, fun p hp => ?_, fun b hb => ?_, fun p cls => ?_, ?_⟩
    · by_cases hpd : p = d.1
      · subst hpd
        by_cases hmem : d.1 ∈ ds.map Prod.fst
        · have hlater := hnamed d.1 hmem
          rwa [select_select] at hlater
        · refine ⟨hunnamed d.1 hmem, fun cls => hbucket _ fun q k hq h => hmem ?_⟩
          rwa [shaperBucket_port h]
      · obtain ⟨hqueues, hbuckets⟩ := hnamed p ((List.mem_cons.1 hp).resolve_left hpd)
        have hother (cls : QClass) : (select d.1 s).bucket (shaperBucket p cls) = s.bucket (shaperBucket p cls) :=
          select_bucket_of_ne d.1 s fun k h => hpd (shaperBucket_port h)
        obtain ⟨cqueues, cbuckets⟩ := select_congr (select_queues_of_ne d.1 s hpd) hother hports
        exact ⟨hqueues.trans cqueues, fun cls => (hbuckets cls).trans (cbuckets cls)⟩
    · obtain ⟨hne, hrest⟩ := not_or.1 fun h => hp (List.mem_cons.2 h)
      exact (hunnamed p hrest).trans (select_queues_of_ne d.1 s hne)
    · refine (hbucket b fun p cls hp => hb p cls (List.mem_cons_of_mem _ hp)).trans ?_
      exact select_bucket_of_ne d.1 s fun cls => hb d.1 cls List.mem_cons_self
    · exact (hget p cls).trans (select_get d.1 s p cls)
    · exact hframe.trans (congrArg (fun w : State => { w with fsq := { w.fsq with
        ports := t.fsq.ports, buckets := t.fsq.buckets } }) hfirst)

end Sys2Proof.Machine
end

section
/-! An enqueue taken by the frame store: O39. -/

namespace Sys2Proof.Machine

/-! ### A frame stored for its admitting queues (R138, R141, R144) -/

/-- A presentation leaves every drop reason but port down, and the count of notice frames handed on. -/
theorem present_drops (k : SourceNo) (c : Bool) (s : State) :
    (∀ r, r ≠ 9 → (present k c s).ctb.drops.get r = s.ctb.drops.get r) ∧
      (present k c s).ntu.enqueued = s.ntu.enqueued := by
  unfold present
  dsimp only
  split
  · split
    · exact ⟨fun _ _ => rfl, rfl⟩
    · have noted := issue_noted k (s.setSource k { s.source k with
        pending := true, count := min 255 ((s.source k).count + 1), holdoff := some s.ntu.dest.holdoff })
      exact ⟨noted.drops, noted.dest.2⟩
  · split <;> exact ⟨fun _ _ => rfl, rfl⟩

/-- A frame was stored at a place for the queues of some ports, which then made selections from the queues of `v`. -/
structure FrameStored (v : State) (x : Stored) (id : Nat) (ds : List (Port × QClass)) (s t : State) : Prop where
  store : t.fsq.store = Table.put s.fsq.store id x
  free : t.fsq.free = s.fsq.free - x.cells
  queue : ∀ p cls, (t.queues p).get cls = (v.queues p).get cls
  named : ∀ p, p ∈ ds.map Prod.fst → t.queues p = (select p v).queues p ∧
    ∀ cls, t.bucket (shaperBucket p cls) = (select p v).bucket (shaperBucket p cls)
  unnamed : ∀ p, p ∉ ds.map Prod.fst → t.queues p = s.queues p
  buckets : ∀ b, (∀ p cls, p ∈ ds.map Prod.fst → b ≠ shaperBucket p cls) → t.bucket b = s.bucket b
  low : (t.source 20).pending = poolLow t
  handed : HandsOnNotices s t
  dest : t.ntu.dest = s.ntu.dest
  enqueued : t.ntu.enqueued = s.ntu.enqueued
  counts : NoticesGoOut s → t.ctb = s.ctb
  drops : ∀ r, r ≠ 9 → t.ctb.drops.get r = s.ctb.drops.get r
  counters : ∀ p c, c ≠ 10 → t.counter p c = s.counter p c
  frame : t = { s with
    fsq := t.fsq, ntu := t.ntu, ctb := t.ctb, flight := { s.flight with enqueues := t.flight.enqueues } }

theorem storeFrame_stored {r : EnqueueRequest} {ds : List (Port × QClass)} {s : State} {id : Nat}
    (hid : Table.lowestFree s.fsq.store Config.poolCells = some id) :
    FrameStored (ds.foldl (pushEntry (.frame id (cellsOf r.body.length) r.body.length)) s)
      { bytes := storedBytes s r, cells := cellsOf r.body.length, refs := ds.length, kind := r.kind
        origin := r.body.origin } id ds s (storeFrame r ds s) := by
  unfold storeFrame
  simp only [hid, Option.getD_some]
  generalize Entry.frame id (cellsOf r.body.length) r.body.length = e
  generalize hx : Stored.mk (storedBytes s r) (cellsOf r.body.length) ds.length r.kind r.body.origin = x
  have hcells : cellsOf r.body.length = x.cells := by rw [← hx]
  have hpushed : ds.foldl (pushEntry e) (s.setFsq { s.fsq with
      free := s.fsq.free - cellsOf r.body.length, store := Table.put s.fsq.store id x }) =
      { s with fsq := { s.fsq with
        ports := (ds.foldl (pushEntry e) s).fsq.ports, free := s.fsq.free - x.cells
        store := Table.put s.fsq.store id x } } := by
    rw [foldl_pushEntry_frame, hcells]
    exact congrArg (fun ports => ({ s with fsq := { s.fsq with
      ports := ports, free := s.fsq.free - x.cells, store := Table.put s.fsq.store id x } } : State))
      (foldl_pushEntry_congr e ds s rfl)
  generalize ds.foldl (pushEntry e) (s.setFsq { s.fsq with
      free := s.fsq.free - cellsOf r.body.length, store := Table.put s.fsq.store id x }) = y at hpushed
  have hv := foldl_pushEntry_frame e ds s
  have hunnamed (p : Port) (hp : p ∉ ds.map Prod.fst) := foldl_pushEntry_of_unnamed e ds s hp
  generalize ds.foldl (pushEntry e) s = v at *
  have told : Told y (presentPoolLow y) := present_told ..
  obtain ⟨hdrops, henqueued⟩ := present_drops Src.poolLow (poolLow y) y
  have hcounters (q : Port) (c : Fin 12) (hc : c ≠ 10) := present_counter Src.poolLow (poolLow y) y q hc
  have hlow := present_pending (k := Src.poolLow) (poolLow y) y (by decide)
  change ((presentPoolLow y).source 20).pending = poolLow y at hlow
  change ∀ q c, c ≠ 10 → (presentPoolLow y).counter q c = y.counter q c at hcounters
  change ∀ r, r ≠ 9 → (presentPoolLow y).ctb.drops.get r = y.ctb.drops.get r at hdrops
  change (presentPoolLow y).ntu.enqueued = y.ntu.enqueued at henqueued
  generalize presentPoolLow y = u at *
  obtain ⟨snamed, sunnamed, sbuckets, sget, sframe⟩ := foldl_select ds u
  generalize ds.foldl (fun t d => select d.1 t) u = t at *
  have hframe := told.frame
  have hfsq : u.fsq = y.fsq := by rw [hframe]
  have hqueues (p : Port) : u.queues p = v.queues p := by
    unfold State.queues
    rw [hfsq, hpushed]
  have hbuckets (b : BucketNo) : u.bucket b = s.bucket b := by
    unfold State.bucket
    rw [hfsq, hpushed]
  have hvbuckets (b : BucketNo) : v.bucket b = s.bucket b := by
    unfold State.bucket
    rw [hv]
  have hports : u.ports = v.ports := by
    rw [hframe, hpushed, hv]
  have hkept : t.ctb = u.ctb ∧ t.ntu = u.ntu ∧ t.flight = u.flight ∧ t.fsq.store = u.fsq.store ∧
      t.fsq.free = u.fsq.free ∧ t.fsq.reserve = u.fsq.reserve := by
    rw [sframe]
    exact ⟨rfl, rfl, rfl, rfl, rfl, rfl⟩
  obtain ⟨tctb, tntu, tflight, tstore, tfree, treserve⟩ := hkept
  refine ⟨?_, ?_, fun p cls => ?_, fun p hp => ?_, fun p hp => ?_, fun b hb => ?_, ?_, ?_, ?_, ?_, fun out => ?_,
    fun r hr => ?_, fun p c hc => ?_, ?_⟩
  · rw [tstore, hfsq, hpushed]
  · rw [tfree, hfsq, hpushed]
  · rw [sget, hqueues]
  · obtain ⟨squeues, sbuckets⟩ := snamed p hp
    obtain ⟨cqueues, cbuckets⟩ := select_congr (hqueues p) (fun cls => (hbuckets _).trans (hvbuckets _).symm) hports
    exact ⟨squeues.trans cqueues, fun cls => (sbuckets cls).trans (cbuckets cls)⟩
  · exact (sunnamed p hp).trans ((hqueues p).trans (hunnamed p hp))
  · exact (sbuckets b hb).trans (hbuckets b)
  · have hsource : t.source 20 = u.source 20 := by
      unfold State.source
      rw [tntu]
    rw [hsource, hlow]
    unfold poolLow
    rw [tfree, treserve, hfsq]
  · have handed := told.handed
    unfold HandsOnNotices at handed ⊢
    rw [tflight]
    rwa [hpushed] at handed
  · rw [tntu, told.dest, hpushed]
  · rw [tntu, henqueued, hpushed]
  · have out' : NoticesGoOut y := out.congr (by rw [hpushed]) (by rw [hpushed])
    rw [tctb, told.counts out', hpushed]
  · rw [tctb, hdrops r hr, hpushed]
  · have hcounter : t.counter p c = u.counter p c := by
      unfold State.counter
      rw [tctb]
    rw [hcounter, hcounters p c hc, hpushed]
    rfl
  · have hu : u = { s with
        fsq := u.fsq, ntu := u.ntu, ctb := u.ctb, flight := { s.flight with enqueues := u.flight.enqueues } } := by
      rw [hfsq]
      unfold ReportsOnly at hframe
      exact hframe.trans (congrArg (fun z : State => { z with
        ntu := u.ntu, ctb := u.ctb, flight := { z.flight with enqueues := u.flight.enqueues }, fsq := y.fsq }) hpushed)
    rw [tctb, tntu, tflight]
    have hlast : t = { u with fsq := t.fsq } := sframe.trans
      (congrArg (fun f => ({ u with fsq := f } : State)) (congrArg State.fsq sframe :).symm)
    exact hlast.trans (congrArg (fun z : State => { z with fsq := t.fsq }) hu)

end Sys2Proof.Machine
end

section
/-! Settling O39: an enqueue is judged, its refusals counted, and its frame stored or refused (R136, R138, R141 to R144). -/

namespace Sys2Proof.Machine

/-! ### What the owner learns (R160, R173) -/

theorem admissionEvent_taken (o : Origin) (s : State) : ∃ n,
    admissionEvent o true s = s.setNtu { s.ntu with enqueued := n } ∧
      (o = .notice → n = min 4294967295 (s.ntu.enqueued + 1)) := by
  cases o with
  | notice => exact ⟨_, rfl, fun _ => rfl⟩
  | reply restart => cases restart <;> exact ⟨s.ntu.enqueued, rfl, (nomatch ·)⟩
  | forwarded | advisory => exact ⟨s.ntu.enqueued, rfl, (nomatch ·)⟩

theorem admissionEvent_refused {o : Origin} (h : o ≠ .reply true) (s : State) : ∃ n,
    admissionEvent o false s = s.setNtu { s.ntu with lost := n } ∧
      (o = .notice → n = min 4294967295 (s.ntu.lost + 1)) := by
  cases o with
  | notice => exact ⟨_, rfl, fun _ => rfl⟩
  | reply restart =>
    cases restart with
    | true => exact absurd rfl h
    | false => exact ⟨s.ntu.lost, rfl, (nomatch ·)⟩
  | forwarded | advisory => exact ⟨s.ntu.lost, rfl, (nomatch ·)⟩

/-! ### The enqueue -/

/-- An enqueue is taken: it is no longer in flight. -/
def enqueueTaken (k : Nat) (s : State) : State :=
  s.setFlight { s.flight with enqueues := s.flight.enqueues.eraseIdx k }

section Enqueue

variable {k : Nat} {r : EnqueueRequest} {s : State}

theorem exec_enqueue (hr : s.flight.enqueues[k]? = some r) :
    exec (.enqueue k) s = .next (takeEnqueue r (enqueueTaken k s)) := by
  show execEnqueue k s = _
  unfold execEnqueue
  simp only [hr]
  rfl

theorem takeEnqueue_frame (hbody : ∀ bytes, r.body ≠ .batch bytes) : takeEnqueue r s = takeFrame r s := by
  unfold takeEnqueue
  split
  · rename_i bytes h
    exact absurd h (hbody bytes)
  all_goals rfl

/-- The part after the refusals of an enqueue were counted (R141). -/
def refusalsMade (r : EnqueueRequest) (s : State) : State :=
  r.queues.foldl (fun t d => countRefusal d (judgeQueue s r.kind (cellsOf r.body.length) d) t) s

theorem refusalsMade_counted (r : EnqueueRequest) (s : State) :
    RefusalsCounted (judgeQueue s r.kind (cellsOf r.body.length)) r.queues s (refusalsMade r s) :=
  foldl_countRefusal ..

/-- The admitting queues of an enqueue (R141). -/
def admittingQueues (r : EnqueueRequest) (s : State) : List (Port × QClass) :=
  r.queues.filter (fun d => judgeQueue s r.kind (cellsOf r.body.length) d == .admitted)

theorem takeFrame_refused (h : admittingQueues r s = []) :
    takeFrame r s = admissionEvent r.body.origin false (refusalsMade r s) := if_pos h

theorem takeFrame_admitted (h : admittingQueues r s ≠ []) : takeFrame r s =
    admissionEvent r.body.origin true (storeFrame r (admittingQueues r s) (refusalsMade r s)) := if_neg h

theorem Body.cells_pos {b : Body} (h : b.holdsCells) : 1 ≤ cellsOf b.length := by
  have hlen : 1 ≤ b.length := by
    cases b with
    | forwarded bytes => exact List.length_pos_iff.2 h
    | originated o bytes => exact le_trans (by decide) (Nat.le_max_left 64 (12 + bytes.length))
    | batch bytes => exact le_trans (by decide) (Nat.le_max_left 64 (12 + bytes.length))
  unfold cellsOf
  omega

/-- The bytes that are stored turn on the port records and the straps alone (R24). -/
theorem storedBytes_congr {t : State} (hports : t.ports = s.ports) (hstraps : t.straps = s.straps) :
    storedBytes t r = storedBytes s r := by
  unfold storedBytes State.port
  rw [hports, hstraps]

/-- The counts of the refusals, where nothing else was counted but lost notice frames. -/
theorem RefusalsCounted.kept {j : Port × QClass → Admission} {ds : List (Port × QClass)} {s u t : State}
    (h : RefusalsCounted j ds s u) (hcounts : NoticesGoOut s → t.ctb = u.ctb)
    (hdrops : ∀ c, c ≠ 9 → t.ctb.drops.get c = u.ctb.drops.get c)
    (hcounters : ∀ p c, c ≠ 10 → t.counter p c = u.counter p c) :
    DropRisesBy 6 (ds.countP fun d => j d == .serviceMode) s t ∧
    DropRisesBy 8 (ds.countP fun d => j d == .queueFull) s t ∧
    (∀ p, CounterRisesBy p 9 (ds.countP fun d => d.1 == p && j d == .queueFull) s t) ∧
    (NoticesGoOut s → DropRisesBy 9 (ds.countP fun d => j d == .portDown) s t ∧
      ∀ p, CounterRisesBy p 10 (ds.countP fun d => d.1 == p && j d == .portDown) s t) ∧
    (∀ c, c ≠ 6 → c ≠ 8 → c ≠ 9 → t.ctb.drops.get c = s.ctb.drops.get c) ∧
    (∀ p c, c ≠ 9 → c ≠ 10 → t.counter p c = s.counter p c) := by
  have h6 := h.serviceMode
  have h8 := h.queueFull
  refine ⟨?_, ?_, fun p => ?_, fun out => ⟨?_, fun p => ?_⟩, fun c hc6 hc8 hc9 => ?_, fun p c hc9 hc10 => ?_⟩
  · unfold DropRisesBy DropRises at *
    rwa [hdrops 6 (by decide)]
  · unfold DropRisesBy DropRises at *
    rwa [hdrops 8 (by decide)]
  · have h9 := h.queueFullAt p
    unfold CounterRisesBy CounterRises at *
    rwa [hcounters p 9 (by decide)]
  · have h9 := h.portDown out
    unfold DropRisesBy DropRises at *
    rwa [hcounts out]
  · have h10 := h.portDownAt p out
    unfold CounterRisesBy CounterRises State.counter at *
    rwa [hcounts out]
  · exact (hdrops c hc9).trans (h.otherDrops hc6 hc8 hc9)
  · exact (hcounters p c hc10).trans (h.otherCounters p hc9 hc10)

end Enqueue

/-! ### A batch frame (R136, R143) -/

section Batch

variable {k : Nat} {p : Port} {bytes : List Byte} {s : State}
  (hr : s.flight.enqueues[k]? = some { queues := [(p, .b)], kind := .reeferBatch, body := .batch bytes })
include hr

theorem exec_enqueue_batch (hup : s.usable p = true) : exec (.enqueue k) s =
    .next (select p (pushEntry (.batch (withAddresses (s.port p).neighbour (partAddress s.straps.addr) bytes))
      (enqueueTaken k s) (p, .b))) :=
  (exec_enqueue hr).trans (congrArg Host.Outcome.next (if_pos hup))

theorem exec_enqueue_batch_down (hdown : s.usable p = false) :
    exec (.enqueue k) s = .next (batchDiscarded (portDownDrop p (enqueueTaken k s))) := by
  have hnot : ¬(enqueueTaken k s).usable p = true := fun h => Bool.false_ne_true (hdown.symm.trans h)
  exact (exec_enqueue hr).trans (congrArg Host.Outcome.next (if_neg hnot))

end Batch

/-! ### O39 -/

/-- The frame of an enqueue stored for its admitting queues, from the state before its refusals were counted. -/
theorem takeFrame_stored {r : EnqueueRequest} {s : State} (law : PoolLaw s) (hcells : r.body.holdsCells)
    (hadmits : admittingQueues r s ≠ []) :
    ∃ u id, Table.get s.fsq.store id = none ∧ takeFrame r s = admissionEvent r.body.origin true u ∧
      FrameStored ((admittingQueues r s).foldl
          (pushEntry (.frame id (cellsOf r.body.length) r.body.length)) (refusalsMade r s))
        { bytes := storedBytes s r, cells := cellsOf r.body.length, refs := (admittingQueues r s).length
          kind := r.kind, origin := r.body.origin } id (admittingQueues r s) (refusalsMade r s) u := by
  have hframe := (refusalsMade_counted r s).frame
  have hfsq : (refusalsMade r s).fsq = s.fsq := by rw [hframe]
  have hports : (refusalsMade r s).ports = s.ports := by rw [hframe]
  have hstraps : (refusalsMade r s).straps = s.straps := by rw [hframe]
  obtain ⟨d, hd⟩ := List.exists_mem_of_ne_nil _ hadmits
  have hroom := judgeQueue_admitted (beq_iff_eq.1 (List.mem_filter.1 hd).2)
  obtain ⟨id, hid⟩ := Pooled.exists_free ((poolLaw_iff s).1 law).1 ((Body.cells_pos hcells).trans hroom)
  have stored := storeFrame_stored (r := r) (ds := admittingQueues r s) (s := refusalsMade r s) (id := id)
    (by rw [hfsq]; exact hid)
  rw [storedBytes_congr hports hstraps] at stored
  exact ⟨_, id, (Table.lowestFree_some hid).1, takeFrame_admitted hadmits, stored⟩

theorem DropRisesBy.single {α : Type} {c : Fin 20} {j : α → Bool} {d : α} {s t : State}
    (h : DropRisesBy c ([d].countP j) s t) (hd : j d = true) : DropRises c 1 s t := by
  rw [List.countP_cons_of_pos hd] at h
  exact h.2 (Nat.succ_ne_zero 0)

theorem CounterRisesBy.single {α : Type} {p : Port} {c : Fin 12} {j : α → Bool} {d : α} {s t : State}
    (h : CounterRisesBy p c ([d].countP j) s t) (hd : j d = true) : CounterRises p c 1 s t := by
  rw [List.countP_cons_of_pos hd] at h
  exact h.2 (Nat.succ_ne_zero 0)

/-- What an enqueue whose frame was stored made of the part, from the state before it was taken. -/
theorem FrameStored.enqueued_frame {v w u s : State} {x : Stored} {id n : Nat} {ds : List (Port × QClass)}
    (h : FrameStored v x id ds w u) (hmade : ReportsOnly s w) : u.setNtu { u.ntu with enqueued := n } =
      { s with fsq := u.fsq, ntu := { u.ntu with enqueued := n }, ctb := u.ctb
               flight := { s.flight with enqueues := u.flight.enqueues } } := by
  unfold ReportsOnly at hmade
  have hu := h.frame.trans (congrArg (fun z : State => { z with
    fsq := u.fsq, ntu := u.ntu, ctb := u.ctb, flight := { z.flight with enqueues := u.flight.enqueues } }) hmade)
  exact congrArg (fun z : State => { z with ntu := { u.ntu with enqueued := n } }) hu

/-- Settles O39: each queue is judged at the state found, and the frame is stored once for those that take it. -/
theorem enqueueStoresOnceForItsQueues : Obligations.EnqueueStoresOnceForItsQueues := by
  refine ⟨fun k r s law hr hbody => ?_, fun k p bytes s hr => ?_⟩
  · intro n taken admitting refused refusedAt counted bytes
    have hexec := (exec_enqueue hr).trans (congrArg Host.Outcome.next (takeEnqueue_frame hbody))
    have made := refusalsMade_counted r (enqueueTaken k s)
    have hmade := made.frame
    refine ⟨fun hadmits => ?_, fun hnone horigin => ?_, fun hnone horigin => ?_⟩
    · have lawTaken : PoolLaw (enqueueTaken k s) := ⟨law.places, law.total, law.counted, law.entries, law.sending,
        fun x hx => law.flight x (List.mem_of_mem_eraseIdx hx), law.slots⟩
      obtain ⟨u, id, hfree, htake, stored⟩ := takeFrame_stored (r := r) lawTaken
        (law.flight r (List.mem_of_getElem? hr)) hadmits
      obtain ⟨enqueued, hevent, henqueued⟩ := admissionEvent_taken r.body.origin u
      have hbytes : storedBytes (enqueueTaken k s) r = bytes := by
        simp only [bytes, storedBytes]
        cases h : r.body with
        | batch b => exact absurd h (hbody b)
        | forwarded b => cases r.queues <;> rfl
        | originated o b => cases r.queues <;> rfl
      rw [hbytes] at stored
      rw [htake, hevent] at hexec
      generalize hw : refusalsMade r (enqueueTaken k s) = w at made hmade stored
      change FrameStored (admitting.foldl (pushEntry (.frame id n r.body.length)) w)
        ⟨bytes, n, admitting.length, r.kind, r.body.origin⟩ id admitting w u at stored
      have hfsq : w.fsq = s.fsq := by rw [hmade]; rfl
      have hports : w.ports = s.ports := by rw [hmade]; rfl
      have hv := foldl_pushEntry_frame (.frame id n r.body.length) admitting s
      have hsame := foldl_pushEntry_congr (.frame id n r.body.length) admitting s (t := w) (by rw [hfsq])
      have hwv := foldl_pushEntry_frame (.frame id n r.body.length) admitting w
      have pushed (p : Port) := foldl_pushEntry_queues (.frame id n r.body.length) admitting s p
      have hqueues (p : Port) : (admitting.foldl (pushEntry (.frame id n r.body.length)) w).queues p =
          (admitting.foldl (pushEntry (.frame id n r.body.length)) s).queues p := by
        unfold State.queues
        rw [hsame]
      generalize admitting.foldl (pushEntry (.frame id n r.body.length)) s = v at *
      generalize admitting.foldl (pushEntry (.frame id n r.body.length)) w = y at *
      have hget (p : Port) (cls : QClass) : (u.queues p).get cls = (v.queues p).get cls := by
        rw [stored.queue, hqueues]
      have hselect (p : Port) := select_congr (hqueues p)
        (fun cls => (by unfold State.bucket; rw [hwv, hv, hfsq] :
          y.bucket (shaperBucket p cls) = v.bucket (shaperBucket p cls)))
        (by rw [hwv, hv, hports])
      have hcounted := made.kept (t := u.setNtu { u.ntu with enqueued := enqueued })
        (fun out => stored.counts (out.congr made.dest hmade.ports)) stored.drops stored.counters
      refine ⟨_, id, v, hexec, hfree, stored.store.trans (by rw [hfsq]), ?_, fun p cls => ⟨?_, ?_⟩, fun p hp => ?_, hv,
        fun p cls => (hget p cls).symm, fun p => (pushed p).2, fun p hp => ?_, fun b hb => ?_, hcounted,
        made.handed.trans stored.handed, fun hnotice => ?_, stored.low, stored.enqueued_frame hmade⟩
      · exact stored.free.trans (by rw [hfsq])
      · exact (congrArg Queue.limit (hget p cls)).trans (by rw [(pushed p).1])
      · exact (congrArg Queue.entries (hget p cls)).trans (by rw [(pushed p).1])
      · exact (stored.unnamed p hp).trans (by unfold State.queues; rw [hfsq])
      · obtain ⟨nqueues, nbuckets⟩ := stored.named p hp
        exact ⟨nqueues.trans (hselect p).1, fun cls => (nbuckets cls).trans ((hselect p).2 cls)⟩
      · exact (stored.buckets b hb).trans (by unfold State.bucket; rw [hfsq])
      · exact (henqueued hnotice).trans (by rw [stored.enqueued, made.enqueued]; rfl)
    · rw [takeFrame_refused (s := enqueueTaken k s) hnone] at hexec
      obtain ⟨lost, hevent, hlost⟩ := admissionEvent_refused horigin (refusalsMade r (enqueueTaken k s))
      rw [hevent] at hexec
      generalize refusalsMade r (enqueueTaken k s) = w at *
      have hcounted := made.kept (t := w.setNtu { w.ntu with lost := lost })
        (fun _ => rfl) (fun _ _ => rfl) (fun _ _ _ => rfl)
      have ⟨h6, h8, h9, _⟩ := hcounted
      refine ⟨_, hexec, fun d hd hjudge => ?_, fun d hd hjudge => ⟨?_, ?_⟩, hcounted, made.handed,
        fun hnotice out => ?_, ?_⟩
      · rw [hd] at h6
        exact h6.single (beq_iff_eq.2 hjudge)
      · rw [hd] at h8
        exact h8.single (beq_iff_eq.2 hjudge)
      · have h9 := h9 d.1
        rw [hd] at h9
        exact h9.single (Bool.and_eq_true_iff.2 ⟨beq_self_eq_true _, beq_iff_eq.2 hjudge⟩)
      · exact (hlost hnotice).trans (by rw [made.lost (out.congr rfl rfl)]; rfl)
      · unfold ReportsOnly at hmade
        exact congrArg (fun z : State => { z with ntu := { w.ntu with lost := lost } }) hmade
    · rw [takeFrame_refused (s := enqueueTaken k s) hnone, horigin] at hexec
      exact ⟨_, hexec, rfl⟩
  · refine ⟨fun hup => ?_, fun hdown hdue => ?_⟩
    · intro x
      have hexec := exec_enqueue_batch hr hup
      generalize withAddresses (s.port p).neighbour (partAddress s.straps.addr) bytes = sent at *
      have hget (cls : QClass) : ((select p (pushEntry (.batch sent) (enqueueTaken k s) (p, .b))).queues p).get cls =
          { (s.queues p).get cls with
            entries := ((s.queues p).get cls).entries ++ List.replicate ([(p, .b)].count (p, cls)) (.batch sent) } :=
        (select_get ..).trans (pushEntry_queues (.batch sent) (enqueueTaken k s) (p, .b) p cls).1
      have hframe := select_frame p (pushEntry (.batch sent) (enqueueTaken k s) (p, .b))
      refine ⟨hexec, _, hexec, ?_, fun cls hcls => ?_, fun q hq => ?_, ?_, ?_, select_rest ..⟩
      · rw [hget, List.count_singleton_self]
        rfl
      · have hne : (p, QClass.b) ≠ (p, cls) := fun h => hcls (Prod.mk.inj h).2.symm
        rw [hget, List.count_singleton, if_neg (by simpa using hne)]
        exact List.append_nil _
      · exact (select_queues_of_ne _ _ hq).trans (State.queues_setQueues_of_ne _ _ hq)
      · rw [hframe]
        rfl
      · rw [hframe]
        rfl
    · have hexec := exec_enqueue_batch_down hr hdown
      have dropped := portDownDrop_droppedPortDown p (enqueueTaken k s)
      generalize portDownDrop p (enqueueTaken k s) = u at *
      have hrcn : u.rcn = s.rcn := dropped.frame.rcn
      have hfsq : u.fsq = s.fsq := by rw [dropped.frame]; rfl
      obtain ⟨hstats, hlaw, hreefers, told⟩ := (batchDiscarded_effect u).1 (by rw [hrcn]; exact hdue)
      have hframe := batchDiscarded_frame u
      rw [hrcn] at hstats hreefers
      refine ⟨_, hexec, ?_, hstats, fun law => hlaw (law.congr hrcn), fun out => ?_, dropped.handed.trans told.handed,
        hreefers⟩
      · rw [hframe]
        exact hfsq
      · obtain ⟨hcounter, hdrop, -⟩ := dropped.counts (.inl (out.congr rfl rfl))
        have hctb : (batchDiscarded u).ctb = u.ctb := told.counts (out.congr dropped.dest dropped.frame.ports)
        unfold DropRises CounterRises State.counter at *
        rw [hctb]
        exact ⟨hdrop, hcounter⟩

end Sys2Proof.Machine
end

section
/-! The agent takes a frame and ends a command (R168 to R172): O47 and O48. -/

namespace Sys2Proof.Machine

/-! ### What settling a frame does (R169) -/

/-- An entry of a command that no owner takes (R169, R171). -/
def ReplyEntry.untaken (x : ReplyEntry) : Prop :=
  x.result = [] ∧ (x.status = .short ∨ x.status = .badCode ∨ x.status = .skipped)

namespace Execution

variable (n : Nat) (e : Execution)

/-- A frame skips its commands once one has failed under stop-on-error (R169). -/
def skipping : Prop := e.stopOnError = true ∧ e.failed = true

variable {e}

theorem upcoming_of_skipping (h : e.skipping) : e.upcoming = .skipped := by
  obtain ⟨hstop, hfailed⟩ := h
  rw [upcoming, if_pos (by rw [hstop, hfailed]; rfl)]

theorem not_skips (h : ¬e.skipping) : ¬(e.stopOnError && e.failed) = true := fun g =>
  h (Bool.and_eq_true_iff.1 g)

theorem upcoming_of_cut (h : ¬e.skipping) (hcut : e.whole = none) : e.upcoming = .short := by
  rw [upcoming, if_neg (not_skips h), hcut]

theorem whole_of_few (h : e.rest.length < 2) : e.whole = none := by
  unfold whole
  split
  · rename_i hrest
    rw [hrest] at h
    simp at h
  · rfl
  · rfl

theorem whole_of_cut {code m : Byte} {rest : List Byte} (hrest : e.rest = code :: m :: rest)
    (h : rest.length < m.toNat) : e.whole = none := by
  simp only [whole, hrest]
  rw [if_neg (by omega)]

theorem push_skipping (h : e.skipping) (st : Status) (result : List Byte) : (e.push st result).skipping :=
  ⟨h.1, by simp [push, h.2]⟩

theorem push_of_rest {code m : Byte} {args more : List Byte} (hrest : e.rest = code :: m :: (args ++ more))
    (hlength : args.length = m.toNat) (st : Status) (result : List Byte) : e.push st result = { e with
      rest := more, entries := e.entries ++ [⟨code, st, result⟩], room := e.room - result.length
      failed := e.failed || st.fails } := by
  have hcode : e.code = code := by rw [Execution.code, hrest]
  unfold push
  simp only [whole_of_rest e hrest hlength, hcode]

/-! One step of settling. -/

section Step

variable (h : e.entries.length < e.count)
include h

theorem settle_of_skipped (hu : e.upcoming = .skipped) : settle (n + 1) e = settle n (e.push .skipped []) := by
  rw [settle, if_neg (by omega), hu]

theorem settle_of_short (hu : e.upcoming = .short) : settle (n + 1) e = settle n (e.push .short []) := by
  rw [settle, if_neg (by omega), hu]

theorem settle_of_badCode (hu : e.upcoming = .badCode) : settle (n + 1) e = settle n (e.push .badCode []) := by
  rw [settle, if_neg (by omega), hu]

end Step

variable (e)

/-- Settling adds entries of commands that no owner takes, all SKIPPED where the frame skips. -/
theorem settle_entries : ∃ more, (e.settle n).entries = e.entries ++ more ∧ (∀ x ∈ more, x.untaken) ∧
    (e.skipping → ∀ x ∈ more, x.status = .skipped) := by
  induction n generalizing e with
  | zero => exact ⟨[], (List.append_nil _).symm, by simp, by simp⟩
  | succ n ih =>
    have step (st : Status) (hst : st = .short ∨ st = .badCode ∨ st = .skipped) (hskip : e.skipping → st = .skipped)
        (hsettle : e.settle (n + 1) = settle n (e.push st [])) : ∃ more, (e.settle (n + 1)).entries = e.entries ++ more ∧
          (∀ x ∈ more, x.untaken) ∧ (e.skipping → ∀ x ∈ more, x.status = .skipped) := by
      obtain ⟨more, hentries, huntaken, hskipped⟩ := ih (e.push st [])
      refine ⟨⟨e.code, st, []⟩ :: more, ?_, fun x hx => ?_, fun h x hx => ?_⟩
      · rw [hsettle, hentries, push_entries, List.append_assoc]
        rfl
      · obtain rfl | hx := List.mem_cons.1 hx
        · exact ⟨rfl, hst⟩
        · exact huntaken x hx
      · obtain rfl | hx := List.mem_cons.1 hx
        · exact hskip h
        · exact hskipped (push_skipping h st []) x hx
    by_cases h : e.entries.length < e.count
    · cases hu : e.upcoming with
      | skipped => exact step .skipped (.inr (.inr rfl)) (fun _ => rfl) (settle_of_skipped n h hu)
      | short =>
        exact step .short (.inl rfl) (fun g => (nomatch (upcoming_of_skipping g).symm.trans hu)) (settle_of_short n h hu)
      | badCode =>
        exact step .badCode (.inr (.inl rfl)) (fun g => (nomatch (upcoming_of_skipping g).symm.trans hu))
          (settle_of_badCode n h hu)
      | command i =>
        rw [settle_of_command (n + 1) e hu]
        exact ⟨[], (List.append_nil _).symm, by simp, by simp⟩
    · rw [settle_of_complete (n + 1) (by omega)]
      exact ⟨[], (List.append_nil _).symm, by simp, by simp⟩

/-- What settling leaves. -/
theorem settle_frame : (e.settle n).room = e.room ∧ (e.settle n).count = e.count ∧ (e.settle n).tag = e.tag ∧
    (e.settle n).stopOnError = e.stopOnError ∧ (e.settle n).arrival = e.arrival ∧ (e.settle n).station = e.station ∧
    (e.settle n).peer = e.peer :=
  settle_preserves (fun x => x.room = e.room ∧ x.count = e.count ∧ x.tag = e.tag ∧ x.stopOnError = e.stopOnError ∧
    x.arrival = e.arrival ∧ x.station = e.station ∧ x.peer = e.peer) (fun _ _ _ h _ => h) n e
    ⟨rfl, rfl, rfl, rfl, rfl, rfl, rfl⟩

variable {e}

theorem settle_bounded (h : e.entries.length ≤ e.count) : (e.settle n).entries.length ≤ e.count := by
  have bounded := settle_preserves (fun x => x.entries.length ≤ x.count)
    (fun x st _ _ hx => by rw [push_entries, List.length_append]; exact hx) n e h
  have hcount := (settle_frame n e).2.1
  rwa [hcount] at bounded

/-- A frame that skips has an entry for every command. -/
theorem settle_of_skipping (h : e.skipping) (hn : e.count ≤ e.entries.length + n) :
    e.count ≤ (e.settle n).entries.length := by
  have hskips : (e.settle n).skipping := settle_preserves skipping (fun x st _ hx _ => push_skipping hx st []) n e h
  obtain hfull | hawaited := settle_ends n e hn
  · rwa [(settle_frame n e).2.1] at hfull
  · unfold awaited at hawaited
    rw [upcoming_of_skipping hskips] at hawaited
    split at hawaited <;> cases hawaited

end Execution

end Sys2Proof.Machine
end

section
/-! Settling O47 and O48: the agent takes a frame, and a command ends (R168 to R173). -/

namespace Sys2Proof.Machine

/-! ### O48 -/

theorem fitResult_of_failing {room : Nat} {st : Status} {result : List Byte} (h : st.fails = true) :
    fitResult room st result = (st, []) := if_pos h

theorem fitResult_of_room {room : Nat} {st : Status} {result : List Byte} (h : ¬st.fails = true)
    (hroom : result.length ≤ room) : fitResult room st result = (st, result) := by
  rw [fitResult, if_neg h, if_pos hroom]

theorem fitResult_of_excess {room : Nat} {st : Status} {result : List Byte} (h : ¬st.fails = true)
    (hroom : room < result.length) : fitResult room st result = (.partialFit, []) := by
  rw [fitResult, if_neg h, if_neg (by omega)]

/-- A result is left out under a status that does not fail where the status it had does not. -/
theorem fitResult_fails (room : Nat) (st : Status) (result : List Byte) :
    (fitResult room st result).1.fails = st.fails := by
  by_cases h : st.fails = true
  · rw [fitResult_of_failing h]
  · by_cases hroom : result.length ≤ room
    · rw [fitResult_of_room h hroom]
    · rw [fitResult_of_excess h (by omega)]
      exact (Bool.eq_false_of_not_eq_true h).symm

/-- The frame is answered once every command has its entry (R172). -/
theorem continueFrame_of_full {restart : Bool} {e : Execution} {s : State} (h : e.count ≤ e.entries.length) :
    continueFrame restart e s = answer restart e.arrival e.station e.peer (replyPayload e.tag .ok e.entries) s := if_pos h

theorem continueFrame_of_open {restart : Bool} {e : Execution} {s : State} (h : e.entries.length < e.count) :
    continueFrame restart e s = s.setMga { s.mga with phase := .executing e } := if_neg (by omega)

/-- Settles O48: the entry is added, and what follows it in the payload is settled. -/
theorem commandEndsWithItsEntry : Obligations.CommandEndsWithItsEntry := by
  intro e st result s hopen hcount fails
  have hfails : st.fails = true ↔ fails := st.fails_iff
  obtain ⟨st', kept, hfit⟩ : ∃ st' kept, fitResult e.room st result = (st', kept) := ⟨_, _, rfl⟩
  have hkeeps : st'.fails = st.fails := by
    have := fitResult_fails e.room st result
    rwa [hfit] at this
  have hafter : e.afterCommand st result = Execution.settle 16 (e.push st' kept) := by
    rw [Execution.afterCommand, hfit]
  have hends : completeCommand false e st result s = continueFrame false (e.afterCommand st result) s := rfl
  obtain ⟨more, hentries, huntaken, hskipped⟩ := Execution.settle_entries 16 (e.push st' kept)
  obtain ⟨hroom, hcounts, htag, hstop, harrival, hstation, hpeer⟩ := Execution.settle_frame 16 (e.push st' kept)
  have hbounded := Execution.settle_bounded 16 (e := e.push st' kept) (by simpa using hopen)
  have hsettles := Execution.settle_ends 16 (e.push st' kept) (by simp; omega)
  have hfull (h : (e.push st' kept).skipping) := Execution.settle_of_skipping 16 h (by simp; omega)
  have hskips (hs : e.stopOnError = true) (hf : fails) : (e.push st' kept).skipping :=
    ⟨hs, Bool.or_eq_true_iff.2 (.inr (hkeeps.trans (hfails.2 hf)))⟩
  rw [← hafter] at hentries hroom hcounts htag hstop harrival hstation hpeer hbounded hsettles hfull
  refine ⟨st', kept, more, e.afterCommand st result, fun hf => ?_, fun hf hfits => ?_, fun hf hlarge => ?_, huntaken,
    hafter, fun code n args next hrest hlength code' n' args' more' i hnext hlength' hdecode hroom hnot => ?_, hentries,
    hroom, hcounts, htag, hstop, harrival, hstation, hpeer, hbounded, fun hs hf => ⟨?_, hskipped (hskips hs hf)⟩,
    fun hlt => ⟨?_, ?_⟩, fun heq => ?_⟩
  · rw [fitResult_of_failing (hfails.2 hf)] at hfit
    exact ⟨(Prod.mk.inj hfit).1.symm, (Prod.mk.inj hfit).2.symm⟩
  · rw [fitResult_of_room (fun h => hf (hfails.1 h)) hfits] at hfit
    exact ⟨(Prod.mk.inj hfit).1.symm, (Prod.mk.inj hfit).2.symm⟩
  · rw [fitResult_of_excess (fun h => hf (hfails.1 h)) hlarge] at hfit
    exact ⟨(Prod.mk.inj hfit).1.symm, (Prod.mk.inj hfit).2.symm⟩
  · have hpush := Execution.push_of_rest hrest hlength st' kept
    have hpushRest : (e.push st' kept).rest = code' :: n' :: (args' ++ more') := by rw [hpush]; exact hnext
    have hgoes : ¬(e.push st' kept).skipping := fun h => hnot ⟨h.1, by
      obtain hf | hf := Bool.or_eq_true_iff.1 h.2
      · exact .inl hf
      · exact .inr (hfails.1 (hkeeps.symm.trans hf))⟩
    have hupcoming : (e.push st' kept).upcoming = .command i := by
      rw [Execution.upcoming_of_rest _ hpushRest hlength' hgoes, hdecode]
    have hstays : e.afterCommand st result = e.push st' kept := by
      rw [hafter, Execution.settle_of_command 16 _ hupcoming]
    have hmore : more = [] := by
      rw [hstays] at hentries
      simpa using hentries
    rw [hstays]
    refine ⟨rfl, by rw [hpush], ?_, hmore⟩
    exact Execution.awaited_of_upcoming _ (by simpa using hroom) hupcoming
  · exact le_antisymm hbounded (hfull (hskips hs hf))
  · exact hsettles.resolve_left (by rw [hcounts]; simpa using hlt)
  · rw [hends, continueFrame_of_open (by rw [hcounts]; exact hlt)]
    rfl
  · have hanswer : completeCommand false e st result s = answer false e.arrival e.station e.peer
        (replyPayload e.tag .ok (e.afterCommand st result).entries) s := by
      rw [hends, continueFrame_of_full (by rw [hcounts]; exact heq.ge), harrival, hstation, hpeer, htag]
      rfl
    have hdown (h : s.usable e.arrival = false) : completeCommand false e st result s =
        portDownDrop e.arrival (s.setMga { s.mga with phase := .idle }) := by
      rw [hanswer, answer_of_not_usable false _ _ _ h, if_neg Bool.false_ne_true]
    have hup (h : s.usable e.arrival = true) := hanswer.trans (answer_of_usable false e.station e.peer
      (replyPayload e.tag .ok (e.afterCommand st result).entries) h)
    refine ⟨?_, hup, fun h => ?_⟩
    · cases h : s.usable e.arrival with
      | true => rw [hup h]; rfl
      | false =>
        have dropped := portDownDrop_reportsOnly e.arrival (s.setMga { s.mga with phase := .idle })
        rw [hdown h, dropped]
        rfl
    · rw [hdown h]
      exact portDownDrop_reportsOnly ..

/-! ### O47 -/

/-- A frame that was taken is answered (R172). -/
theorem answer_taken (a : Port) (x y : Sid) (payload : List Byte) (r : List CommandFrame) (s : State) :
    let t := answer false a x y payload (s.setMga { s.mga with queue := r })
    t.mga.queue = r ∧
    (s.usable a = true → t = { s with
      mga := ⟨r, .idle⟩
      flight := { s.flight with enqueues := s.flight.enqueues ++
        [{ queues := [(a, .u)], kind := .managementReply
           body := .originated (.reply false) (originatedBytes .managementReply (Port.isQuay a) x y payload) }] } }) ∧
    (s.usable a = false → DroppedPortDown a { s with mga := ⟨r, .idle⟩ } t) := by
  intro t
  cases h : s.usable a with
  | true =>
    have ht := answer_of_usable false (s := s.setMga { s.mga with queue := r }) x y payload h
    exact ⟨congrArg (fun w : State => w.mga.queue) ht, fun _ => ht, (nomatch ·)⟩
  | false =>
    have ht : t = portDownDrop a { s with mga := ⟨r, .idle⟩ } :=
      (answer_of_not_usable false (s := s.setMga { s.mga with queue := r }) x y payload h).trans
        (if_neg Bool.false_ne_true)
    have dropped := portDownDrop_droppedPortDown a { s with mga := ⟨r, .idle⟩ }
    rw [ht]
    refine ⟨?_, (nomatch ·), fun _ => dropped⟩
    rw [dropped.frame]

theorem exec_commandFrameTake {f : CommandFrame} {r : List CommandFrame} {s : State} (hphase : s.mga.phase = .idle)
    (hqueue : s.mga.queue = f :: r) :
    exec .commandFrameTake s = .next (beginFrame f (s.setMga { s.mga with queue := r })) := by
  show execCommandFrameTake s = _
  unfold execCommandFrameTake
  simp only [hphase, hqueue]

/-- Settles O47: the envelope is judged, and the commands are settled up to the first that an owner takes. -/
theorem commandFrameTakeBeginsExecution : Obligations.CommandFrameTakeBeginsExecution := by
  refine ⟨fun f r s hphase hqueue => ?_, fun e => ?_⟩
  · intro count tag start e answered
    have hexec := exec_commandFrameTake hphase hqueue
    by_cases hbad : f.count = 0 ∨ 16 < f.count
    · have hbegin : beginFrame f (s.setMga { s.mga with queue := r }) = answer false f.arrival f.station f.peer
          (replyPayload f.tag .badArgument []) (s.setMga { s.mga with queue := r }) := if_pos hbad
      rw [hbegin] at hexec
      obtain ⟨htaken, hanswered⟩ := answer_taken f.arrival f.station f.peer (replyPayload f.tag .badArgument []) r s
      refine ⟨_, hexec, htaken, fun _ => hanswered, fun hone hmany => ?_⟩
      exact absurd hbad (not_or.2 ⟨Nat.ne_of_gt hone, Nat.not_lt.2 hmany⟩)
    · have hbegin : beginFrame f (s.setMga { s.mga with queue := r }) =
          continueFrame false e (s.setMga { s.mga with queue := r }) := if_neg hbad
      rw [hbegin] at hexec
      obtain ⟨more, hentries, huntaken, -⟩ := Execution.settle_entries 16 start
      obtain ⟨hroom, hcounts, htag, hstop, harrival, hstation, hpeer⟩ := Execution.settle_frame 16 start
      have hbounded := Execution.settle_bounded 16 (e := start) (Nat.zero_le _)
      have hmany : count ≤ 16 := Nat.not_lt.1 (not_or.1 hbad).2
      have hends := Execution.settle_ends 16 start (by show count ≤ 0 + 16; omega)
      change e.entries = more at hentries
      change e.count = count at hcounts
      change e.entries.length ≤ count at hbounded
      change e.count ≤ e.entries.length ∨ e.awaited.isSome = true at hends
      rw [← hentries] at huntaken
      rw [hcounts] at hends
      have hwhole (hone : 1 ≤ count) {code m : Byte} {args rest : List Byte} {i : Instr}
          (hrest : f.payload.drop 4 = code :: m :: (args ++ rest)) (hlength : args.length = m.toNat)
          (hdecode : Decode.command code args = .command i) : e = start ∧ start.awaited = some i := by
        have hupcoming : start.upcoming = .command i := by
          rw [Execution.upcoming_of_rest start hrest hlength fun h => Bool.false_ne_true h.2, hdecode]
        exact ⟨Execution.settle_of_command 16 start hupcoming, Execution.awaited_of_upcoming start hone hupcoming⟩
      by_cases hfull : count ≤ e.entries.length
      · have hanswer : continueFrame false e (s.setMga { s.mga with queue := r }) = answer false f.arrival f.station
            f.peer (replyPayload tag .ok e.entries) (s.setMga { s.mga with queue := r }) := by
          rw [continueFrame_of_full (by rw [hcounts]; exact hfull), harrival, hstation, hpeer, htag]
        obtain ⟨htaken, hanswered⟩ := answer_taken f.arrival f.station f.peer (replyPayload tag .ok e.entries) r s
        rw [hanswer] at hexec
        refine ⟨_, hexec, htaken, fun h => absurd h hbad, fun hone _ => ⟨hbounded, huntaken, fun heq => ?_,
          fun hlt => absurd hfull (Nat.not_le.2 hlt), fun code n args rest i hrest hlength hdecode => ?_⟩⟩
        · rw [← heq]
          exact hanswered
        · obtain ⟨hstays, -⟩ := hwhole hone hrest hlength hdecode
          rw [hstays] at hfull
          exact absurd hone (Nat.not_le.2 (Nat.lt_succ_of_le hfull))
      · have hopen : continueFrame false e (s.setMga { s.mga with queue := r }) =
            { s with mga := ⟨r, .executing e⟩ } :=
          continueFrame_of_open (by rw [hcounts]; exact Nat.not_le.1 hfull)
        rw [hopen] at hexec
        refine ⟨_, hexec, rfl, fun h => absurd h hbad, fun hone _ => ⟨hbounded, huntaken,
          fun heq => absurd heq.ge hfull, fun _ => ⟨rfl, hends.resolve_left hfull, hcounts, htag, hroom, harrival,
          hstation, hpeer, hstop⟩, fun code n args rest i hrest hlength hdecode => ?_⟩⟩
        obtain ⟨hstays, hawaited⟩ := hwhole hone hrest hlength hdecode
        exact ⟨by rw [hstays], hawaited⟩
  · intro skips
    refine ⟨fun h => Execution.upcoming_of_skipping h,
      fun h hfew => Execution.upcoming_of_cut h (Execution.whole_of_few hfew),
      fun code n rest hrest h hcut => Execution.upcoming_of_cut h (Execution.whole_of_cut hrest hcut),
      fun code n args more hrest hlength => ⟨fun h => ?_, fun st result => ?_⟩,
      fun n => ⟨fun h => Execution.settle_of_complete n h, fun h => ⟨fun i hu => Execution.settle_of_command n e hu,
        fun hu => Execution.settle_of_skipped n h hu, fun hu => Execution.settle_of_short n h hu,
        fun hu => Execution.settle_of_badCode n h hu⟩⟩⟩
    · exact (Execution.upcoming_of_rest e hrest hlength h).trans (by cases Decode.command code args <;> rfl)
    · rw [Execution.push_of_rest hrest hlength]
      have hfails : st.fails = decide (st ≠ .ok ∧ st ≠ .clamped ∧ st ≠ .partialFit) :=
        Bool.eq_iff_iff.2 (st.fails_iff.trans decide_eq_true_iff.symm)
      rw [hfails]

end Sys2Proof.Machine
end
